-- ==== Sys2Proof/Word.lean ====
section
/-! DEFINITION. Word.lean: the words the spec numbers (R12: little-endian fields; R14: 32-bit
registers), the byte and byte-string types, and the type of a sparse table. -/
namespace Sys2Proof

/-- A byte. -/
abbrev Byte := BitVec 8
/-- A register word (R14: every register access is one 32-bit word). -/
abbrev Word := BitVec 32
/-- A SHA-512 working word. -/
abbrev DWord := BitVec 64
/-- A byte string, first byte first. -/
abbrev Bytes := List Byte
/-- A sparse table: key and value pairs.  Its canonical form (keys strictly rising, no entry equal to
what an unlisted key reads as) is `Tbl.wf` of Machine/Tables.lean. -/
abbrev Tbl (α : Type) := List (Nat × α)

end Sys2Proof
end

