-- ==== Sys2Proof/Config.lean ====
section
/-! DEFINITION. Config.lean: what an implementation or a part fixes (R5), and the free values: what the spec leaves
open.  A free value is an opaque constant, so no proof can see what it is (assumption log 3). -/
namespace Sys2Proof

/-- The three part numbers of R5. -/
inductive Part
  | wdx6416
  | wdx6408
  | wdx6404
  deriving DecidableEq, Repr

/-- Flash guard ports (R5, R78). -/
def Part.ports : Part → Nat | .wdx6416 => 16 | .wdx6408 => 8 | .wdx6404 => 4
/-- Hash lanes. -/
def Part.lanes : Part → Nat | .wdx6416 => 8 | .wdx6408 => 4 | .wdx6404 => 2
/-- Curve units. -/
def Part.curves : Part → Nat | .wdx6416 => 4 | .wdx6408 => 2 | .wdx6404 => 1
/-- AES-GCM units. -/
def Part.aes : Part → Nat | .wdx6416 => 2 | .wdx6408 => 1 | .wdx6404 => 1
/-- Verified-store banks. -/
def Part.banks : Part → Nat | .wdx6416 => 4 | .wdx6408 => 2 | .wdx6404 => 1
/-- Frames in each present bank. -/
def Part.framesPerBank : Part → Nat | .wdx6404 => 4096 | _ => 6144
/-- Verified-store frames. -/
def Part.frames (p : Part) : Nat := p.banks * p.framesPerBank
/-- VFs supported. -/
def Part.vfs : Part → Nat | .wdx6416 => 64 | .wdx6408 => 32 | .wdx6404 => 0
/-- Pairing unit present. -/
def Part.hasPair : Part → Bool | .wdx6404 => false | _ => true
/-- The part number field of BOOT_CAP_PART. -/
def Part.number : Part → Nat | .wdx6416 => 0x6416 | .wdx6408 => 0x6408 | .wdx6404 => 0x6404
/-- Silicon stepping A0 (R78). -/
def Part.stepping (_ : Part) : Nat := 0xA0
/-- BOOT_CAP_PART (R78). -/
def Part.cap (p : Part) : Nat := p.number + 0x10000 * p.stepping

/-! ### Free values -/

/-- The bytes the entropy source and the DRBG draw (R198, R213, R254): byte `n` of the draws of a run. -/
opaque Config.freeByte : Nat → BitVec 8
/-- What a delay monitor counts in its window (R57): silicon dependent. -/
opaque Config.dlymonCount : Nat → BitVec 20

/-- DTMCS as the debug transport module reports it (R265 names the specification only). -/
opaque Config.dtmcs : BitVec 32
/-- What the debug module's own registers shift out (R265 names the specification only), by draw. -/
opaque Config.dmi : Nat → BitVec 32

/-- The GETSTATUS word of the I3C target, which depends on whether an interrupt is pending (R365 names the CCC only). -/
opaque Config.i3cStatus : Bool → BitVec 16

/-- The completion timeout of a range of Device Control 2, in TBCLK cycles (R355 gives the ranges' bounds, 50 µs to 250 ms). -/
opaque Config.ctoCycles : Nat → Nat

/-! ### What the ROM holds and the spec does not give -/

/-- The issuer keys of R245, by issuer index. -/
opaque Config.issuerKey : Nat → List (BitVec 8)
/-- The issuer names of R245: a DER Name, by issuer index. -/
opaque Config.issuerName : Nat → List (BitVec 8)
/-- The Idsitia firmware key digest (R282). -/
opaque Config.idsitiaFirmwareDigest : List (BitVec 8)
/-- The Idsitia token key (R225). -/
opaque Config.idsitiaTokenKey : List (BitVec 8)

end Sys2Proof
end

