-- ==== Sys2Proof/Syntax.lean ====
section
/-! DEFINITION. Syntax.lean: the commands of the block, one constructor per row of spec/opcode_table.json, and their
operands.  The table gives its rows no bits and no operands: each operand is what the row's rule says the
command carries, or what the outside world supplies with it (assumption log 2). -/
namespace Sys2Proof

/-- The master ID and the privilege bit every access carries (R76). -/
structure Acc where
  master : Byte
  priv : Bool
  deriving DecidableEq, Repr

/-- What an ECC read meets (R148): no error, a corrected bit, or an uncorrectable error in 64-bit word `word`. -/
inductive EccRes
  | clean
  | corrected (word : Nat)
  | uncorrectable (word : Nat)
  deriving DecidableEq, Repr

/-- What the flash side and the frames supply to one platform read: the flash's data bytes, whether the first byte is ready
at the cycle it is due (R95), the byte at which the protocol buffer runs empty (R93), and the ECC events met, each
at a byte of the data phase and uncorrectable or not (R148). -/
structure ReadIn where
  data : Bytes
  ready : Bool
  under : Option Nat
  ecc : List (Nat × Bool)
  deriving DecidableEq, Repr

/-- The reads of one golden block (R188): first and second read of the block, its leaf pair, and what the level-1 node read
meets. -/
structure BlkRead where
  d1 : Bytes
  d2 : Bytes
  pair : Bytes
  ecc : EccRes := .clean
  deriving DecidableEq, Repr

/-- What a unit's second copy meets (R188): the blocks read again and their read-back. -/
structure UnitRetry where
  blks : List BlkRead
  back : List Bytes
  deriving DecidableEq, Repr

/-- The argument of a common command code (R365); a broadcast where `all`. -/
structure Ccc (α : Type) where
  all : Bool
  arg : α
  deriving DecidableEq, Repr

/-- The lanes of the PCIe data link, and whether it is found in L1 (R364). -/
structure LinkLanes where
  width : Nat
  l1 : Bool
  deriving DecidableEq, Repr

/-- An address of one of a port's two flash chips (R28). -/
structure ChipAddr where
  cs : Nat
  addr : Nat
  deriving DecidableEq, Repr

/-- The registers of the latched set but for the density field (R127). -/
inductive LatchedReg
  | winBase (w : Nat)
  | winLimit (w : Nat)
  | winPolicy (w : Nat)
  | winMap (w : Nat)
  | abMap
  | abCtrl
  | relCfg
  | frameRange
  deriving DecidableEq, Repr

/-- The registers of the protocol set (R127). -/
inductive ProtoReg
  | protoCfg
  | protoDummy
  | flashCfg
  | flashRdop
  | fsck
  deriving DecidableEq, Repr

/-- A submission ring and its completion ring (R193): a core queue's or an instance's. -/
inductive RingId
  | core (q : Nat)
  | inst (i : Nat)
  deriving DecidableEq, Repr

/-- What the host answers to one page access of an instance (R385 to R387): whether a cached translation of the page is still
held, the table entries as read from level 3 down (none: the table read met UR, CA or a timeout), whether ATS
denies the access, and whether the data access itself meets UR, CA or a timeout. -/
structure Walk where
  kept : Bool
  entries : List (Option Nat)
  denied : Bool
  bus : Bool
  deriving DecidableEq, Repr

/-- What the memory of an instance or a remote submitter gives a job: its source and auxiliary buffers, and what its page
accesses meet, in order.  A core-class job reads core SRAM instead (R522). -/
structure JobIO where
  src : Bytes
  aux : Bytes
  walks : List Walk
  deriving DecidableEq, Repr

/-- What a reset finds outside (R253, R271, R314): the strap pins as BOOT_STRAPS numbers them (GOLDEN_N in bit 3), and what the word
under a fuse pulse reads at READ and at STRICT once that pulse has ended. -/
structure RstIn where
  straps : Word
  pulseR : Word
  pulseS : Word
  deriving DecidableEq, Repr

/-- What a register write finds outside the block: what a reset that it triggers finds, what cores have stored to core SRAM (address,
bytes) and to the Dill image memories (core, offset, bytes) before it (R270, R522), what page accesses it causes meet, the
peer WMS and the blob in host memory (R396, R397; none where a read of it meets UR, CA or a timeout), whether the
last byte of a blob written reads back (R397), and what a read of a frame word meets (R148, R163). -/
structure BusIn where
  rst : RstIn := ⟨0, 0, 0⟩
  sram : List (Nat × Bytes) := []
  dill : List (Nat × Nat × Bytes) := []
  walks : List Walk := []
  wms : Option Bytes := none
  blob : Option Bytes := none
  blobOk : Bool := true
  ecc : EccRes := .clean
  deriving DecidableEq, Repr

/-- What the ROM meets in a start (R214, R255, R276, R277, R284, R291, R310): failing known-answer tests, numbered as in CJE_KAT_PASS;
words whose programming fails, with what they then read at READ and at STRICT, and words that take more pulses than one; the
boot flash: identification bytes, both copies of the minimum-version record and of the settings store, the content of the
four bundle areas, areas (0 Golden, 1 Primary, 2 Previous, 3 Staging) a read of which fails, how often each of the ROM's
programs and erases is polled busy in order (none: beyond its limit), whether each copy it writes to the protected region
reads back differently in order, and a phase (0 to Previous, 1 to Primary) and unit for each read-back of the bundle copy
that differs, with what such a unit reads as; how many units are copied before the command ends with the copy under way
(none: all); and what the DEVICE reset after a life-cycle change finds. -/
structure RomEnv where
  kat : Word := 0
  fuseFails : List (Nat × Word × Word) := []
  pulses : List (Nat × Nat) := []
  bfId : Bytes := []
  recA : Bytes := []
  recB : Bytes := []
  setA : Bytes := []
  setB : Bytes := []
  golden : Bytes := []
  primary : Bytes := []
  previous : Bytes := []
  staging : Bytes := []
  badReads : List Nat := []
  busy : List (Option Nat) := []
  backBad : List Bool := []
  copyBad : List (Nat × Nat) := []
  copyGot : Bytes := []
  units : Option Nat := none
  rst : RstIn := ⟨0, 0, 0⟩
  deriving DecidableEq, Repr

/-- A frame (R407): its header fields and payload. -/
structure Frame17 where
  type : Nat
  flags : Nat := 0
  dst : Nat
  src : Nat
  seq : Nat := 0
  ack : Nat := 0
  srcInc : Nat := 0
  dstInc : Nat := 0
  hops : Nat := 0
  payload : Bytes := []
  deriving DecidableEq, Repr

/-- What the arrival of a frame of the ring brings beside the frame: what page accesses it causes meet and the bytes host memory holds
there (R422), the tag a job it starts gets, what a register write it makes finds outside, and what the ROM meets where it
ends a push. -/
structure LmsIn where
  walks : List Walk := []
  mem : Bytes := []
  tag : Nat := 0
  bus : BusIn := {}
  rom : RomEnv := {}
  deriving DecidableEq, Repr

/-- An access of the debug module (R264, R265): halt or resume a core, a bus access with master ID 0x04, or anything else. -/
inductive DmiOp
  | halt (core : Nat)
  | resume (core : Nat)
  | busRead (off size : Nat)
  | busWrite (off size : Nat) (data : Word)
  | other
  deriving DecidableEq, Repr

/-- The configuration-space fields of one function that a host writes (R355 to R362): Memory Space and Bus Master Enable, MSI-X Enable
and Function Mask, ATS and PRI Enable, D3hot; the BAR addresses and those of the VF BARs; Max Payload Size and Max Read Request Size as
encoded, the Completion Timeout Value and Disable, ASPM Control, Smallest Translation Unit, Outstanding Page Request Allocation, System
Page Size and VF Memory Space Enable.  All but VF Enable, NumVFs and ARI Capable Hierarchy, which VF_ENABLE_WRITE writes. -/
structure PciFn where
  mem : Bool := false
  bme : Bool := false
  msixEn : Bool := false
  fmask : Bool := false
  ats : Bool := false
  pri : Bool := false
  d3 : Bool := false
  bar0 : Nat := 0
  bar2 : Nat := 0
  bar4 : Nat := 0
  vfBar0 : Nat := 0
  vfBar2 : Nat := 0
  mps : Nat := 0
  mrrs : Nat := 2
  cto : Nat := 0
  ctoOff : Bool := false
  aspm : Nat := 0
  stu : Nat := 0
  prAlloc : Nat := 0
  sysPage : Nat := 1
  vfMem : Bool := false
  deriving DecidableEq, Repr

/-- The commands of the block, in the order of spec/opcode_table.json. -/
inductive Instr
  -- resets and the bus (chapters 02, 03, 10)
  /-- R475: a main rail falls below its POR threshold; `rail` is the rail's code of PWR_POR_INFO, `tear` says how the counter
  operation in progress is cut (R320), `r` and `t` what the word under a cut fuse pulse reads at READ and STRICT (R314). -/
  | supplyFall (rail tear : Nat) (r t : Word)
  /-- R51: rails good and multiplier locked: POR ends.  `xinCmos` is the detected XIN source, `straps` the sampled straps, and
  `backup` the contents the VBAT domain is found to hold where they have not been kept: canary, acknowledged count with
  its complement, latch and copy of TEM_LOCK_INFO (R333). -/
  | porEnd (xinCmos : Bool) (straps : Word) (backup : Option (Bytes × Word × Bool × Word))
  /-- R251: DEV_RST_N held low for at least 1 µs. -/
  | devRstNAssert (inp : RstIn)
  /-- R253: DEV_RST_N rises; `inp` holds the sampled straps. -/
  | devRstNRelease (inp : RstIn)
  /-- R274: BOOT_RST_REQ written with kind DEVICE; `data` is the write's other fields. -/
  | rstReqDevice (acc : Acc) (data : Word) (inp : RstIn)
  /-- R274: BOOT_RST_REQ written with kind CONTROL. -/
  | rstReqControl (acc : Acc) (data : Word) (inp : RstIn)
  /-- R274: BOOT_RST_REQ written with kind PORT. -/
  | rstReqPort (acc : Acc) (data : Word) (inp : RstIn)
  /-- R251: the lockstep halves of Sage disagree. -/
  | lockstepMismatch (inp : RstIn)
  /-- R268: the debug module requests a non-debug-module reset. -/
  | debugModuleReset (inp : RstIn)
  /-- R257: Sage fetches outside the ROM before BOOT_DBG_LOCK is written. -/
  | romFetchViolation (inp : RstIn)
  /-- R255: the ROM runs from SELF_TEST; `env` is what it meets outside the device. -/
  | romFlow (env : RomEnv)
  /-- R16: a write access of `size` bytes to register-space offset `off`. -/
  | registerWrite (acc : Acc) (off size : Nat) (data : Word) (inp : BusIn)
  /-- R66: a write to PAGE_IRQ_STATUS of the page at `page`. -/
  | pageIrqClear (acc : Acc) (page : Nat) (data : Word)
  /-- R66: a write to PAGE_IRQ_FORCE. -/
  | pageIrqForce (acc : Acc) (page : Nat) (data : Word)
  /-- R66: a write of 1 to PAGE_LOCK.lock. -/
  | pageLock (acc : Acc) (page : Nat)
  /-- R65: a write of 1 to PAGE_ERR_INFO.valid; `data` is the write's other bits. -/
  | pageErrClear (acc : Acc) (page : Nat) (data : Word)
  /-- R79: a write of 1 to BOOT_BERR_CTRL.clear. -/
  | berrClear (acc : Acc)
  /-- R59: a read of TB_TIME_LO. -/
  | tbTimeRead (acc : Acc)
  /-- R60: a write of `data` with the start bit to TB_DLYMON_SEL. -/
  | dlymonStart (acc : Acc) (data : Word)
  /-- R60: the measurement window ends. -/
  | dlymonDone
  /-- R54: the detector reports timebase loss; `lockLost` when the multiplier reports loss of lock. -/
  | timebaseLoss (lockLost : Bool)
  /-- R54: 1,024 locked cycles have passed since TBCLK returned. -/
  | timebaseReturn
  -- platform commands (chapters 04, 05)
  /-- R113: a platform READ: opcode, extension byte, address and data length; `inp` is what the flash and the frames
  deliver. -/
  | platformRead (n : Nat) (op ext : Byte) (addr len : Nat) (inp : ReadIn)
  /-- R95: a 0x03 or 0x13 read; `slow` when the platform's SCK period is at least 200 ns. -/
  | legacyRead (n : Nat) (op : Byte) (addr len : Nat) (slow : Bool) (inp : ReadIn)
  /-- R113: a platform PROGRAM. -/
  | pageProgram (n : Nat) (op ext : Byte) (addr : Nat) (data : Bytes)
  /-- R114: a platform 4 KiB erase; `op4` for the opcode with a 4-byte address. -/
  | erase4K (n : Nat) (op4 : Bool) (ext : Byte) (addr : Nat)
  /-- R114: a platform 32 KiB erase. -/
  | erase32K (n : Nat) (op4 : Bool) (ext : Byte) (addr : Nat)
  /-- R114: a platform 64 KiB erase. -/
  | erase64K (n : Nat) (op4 : Bool) (ext : Byte) (addr : Nat)
  /-- R85: chip erase, 0xC7 when `alt`, else 0x60. -/
  | chipErase (n : Nat) (alt : Bool) (ext : Byte)
  /-- R85: 0x06. -/
  | writeEnable (n : Nat) (ext : Byte)
  /-- R85: 0x04. -/
  | writeDisable (n : Nat) (ext : Byte)
  /-- R90: 0x05. -/
  | readStatus (n : Nat) (ext : Byte)
  /-- R85: 0x70. -/
  | readFlagStatus (n : Nat) (ext : Byte)
  /-- R85: 0x35. -/
  | readRegister35 (n : Nat) (ext : Byte)
  /-- R85: 0x15. -/
  | readRegister15 (n : Nat) (ext : Byte)
  /-- R88: 0x85. -/
  | readMode (n : Nat) (ext : Byte)
  /-- R104: 0x9F, `len` bytes. -/
  | readId (n : Nat) (ext : Byte) (len : Nat)
  /-- R99: 0x5A; `ready` when the first data byte is ready in time. -/
  | readSfdp (n : Nat) (ext : Byte) (addr len : Nat) (ready : Bool)
  /-- R85: 0x4B when `unique`, else 0x48. -/
  | securityIdRead (n : Nat) (unique : Bool) (len : Nat)
  /-- R85: 0x01 with its data. -/
  | writeStatus (n : Nat) (ext : Byte) (data : Bytes)
  /-- R88: 0x81 with its configuration address and data. -/
  | writeMode (n : Nat) (ext : Byte) (addr : Nat) (data : Bytes)
  /-- R89: 0x77 with its data byte. -/
  | setBurstWrap (n : Nat) (data : Byte)
  /-- R85: 0xB7. -/
  | enter4Byte (n : Nat)
  /-- R85: 0xE9. -/
  | exit4Byte (n : Nat)
  /-- R87: 0x66. -/
  | resetEnable (n : Nat) (ext : Byte)
  /-- R87: 0x99. -/
  | protocolReset (n : Nat) (ext : Byte)
  /-- R85: a security, protection or unlock write, opcode `op`. -/
  | protectionWrite (n : Nat) (op : Byte)
  /-- R85: an accepted opcode with no effect. -/
  | noOpCommand (n : Nat) (op ext : Byte)
  /-- R86: an opcode the current mode does not support. -/
  | unsupportedOpcode (n : Nat) (op ext : Byte)
  /-- R120: Pn_CS_N rises. -/
  | platformCsDeassert (n : Nat)
  /-- R92: the 2 µs poll of CS0; `wip` is what it reads. -/
  | busyPoll (n : Nat) (wip : Bool)
  /-- R92: CS0 busy exceeds busy_max. -/
  | cs0BusyTimeout (n : Nat)
  /-- R29: the port issues or resumes its highest-priority own access; `data` is what a block-completion read
  returns before it ends or yields. -/
  | ownAccessIssue (n : Nat) (data : Bytes)
  /-- R98: the 10 µs pulse on Fn_RST_N ends. -/
  | flashResetPulseEnd (n : Nat)
  /-- R98: the 50 µs after the pulse end. -/
  | flashResetQuietEnd (n : Nat)
  /-- R100: the filtered level of Pn_PREQ_N becomes `level`. -/
  | preqChange (n : Nat) (level : Bool)
  -- port commands (chapters 05 to 07)
  /-- R167: FGPn_CMD MEASURE. -/
  | cmdMeasure (acc : Acc) (n : Nat)
  /-- R167: FGPn_CMD RELEASE. -/
  | cmdRelease (acc : Acc) (n : Nat)
  /-- R167: FGPn_CMD HOLD. -/
  | cmdHold (acc : Acc) (n : Nat)
  /-- R167: FGPn_CMD STAGE. -/
  | cmdStage (acc : Acc) (n : Nat)
  /-- R167: FGPn_CMD ACTIVATE. -/
  | cmdActivate (acc : Acc) (n : Nat)
  /-- R167: FGPn_CMD RECOVER. -/
  | cmdRecover (acc : Acc) (n : Nat)
  /-- R167: FGPn_CMD UNQUARANTINE. -/
  | cmdUnquarantine (acc : Acc) (n : Nat)
  /-- R168: an FGPn_CMD code that is not defined. -/
  | cmdInvalid (acc : Acc) (n code : Nat)
  /-- R127: a write to register `reg` of port `n`'s latched set. -/
  | latchedSetWrite (acc : Acc) (n : Nat) (reg : LatchedReg) (data : Word)
  /-- R127: a write to register `reg` of port `n`'s protocol set. -/
  | protocolSetWrite (acc : Acc) (n : Nat) (reg : ProtoReg) (data : Word)
  /-- R116: a write to FGPn_ARM. -/
  | armWrite (acc : Acc) (n : Nat) (data : Word)
  /-- R125: a write to FGPn_MB_RSP_CTRL. -/
  | mbPublish (acc : Acc) (n : Nat) (data : Word)
  /-- R125: Pn_CS_N is deasserted and the accepted publish takes effect. -/
  | responseVisible (n : Nat)
  /-- R173: the MANIFEST_CHECK job of `tag` in mode MEASURE runs; `man` is the flash from the manifest's address. -/
  | manifestCheckMeasure (tag : Nat) (man : Bytes)
  /-- R184: mode STAGE; `dtts` are the staged trees in image order. -/
  | manifestCheckStage (tag : Nat) (man : Bytes) (dtts : List Bytes)
  /-- R188: mode GOLDEN. -/
  | manifestCheckGolden (tag : Nat) (man : Bytes)
  /-- R142: the tree load of port `n` ends; `dtts` are the trees read, in image order. -/
  | treeLoadDone (n : Nat) (dtts : List Bytes)
  /-- R146: a residency-fill block has been read and hashed. -/
  | fillBlockDone (n : Nat) (data : Bytes)
  /-- R147: a refill read of the first waiting frame has ended. -/
  | refillDone (n : Nat) (data : Bytes)
  /-- R144: the leaf pair at the head of the port's requests has been read; `ecc` is what the level-1 node read meets, its
  word counted within the node. -/
  | leafFetchDone (n : Nat) (data : Bytes) (ecc : EccRes)
  /-- R154: a segment of the open block at flash address `fa` runs on lane `lane`. -/
  | hashSegment (n fa lane : Nat)
  /-- R156: the check of the open block at flash address `fa`. -/
  | blockCheck (n fa : Nat)
  /-- R161: the block at `fa` has been open longer than defer µs. -/
  | deferralExpiry (n fa : Nat)
  /-- R179: d1 ends. -/
  | releaseD1Expiry (n : Nat)
  /-- R179: d2 ends. -/
  | releaseD2Expiry (n : Nat)
  /-- R186: CS# is deasserted and the open blocks are checked. -/
  | activationQuiesced (n : Nat)
  /-- R188: golden verification ends; `blks` are the reads of the verified blocks in window and address order. -/
  | goldenVerifyDone (n : Nat) (blks : List BlkRead)
  /-- R188: a 64 KiB unit has been erased, programmed and read back; `rb1` is the read-back of its first copy and
  `retry` what a second one meets; `busyAt` is the erase or program whose busy poll exceeded busy_max, where one
  did: 0 the erase, 1 to 256 the pages, and 257 on the same of the second copy. -/
  | recoveryUnitDone (n : Nat) (blks : List BlkRead) (rb1 : List Bytes) (retry : UnitRetry)
      (busyAt : Option Nat)
  /-- R150: the scrub interval of bank `k` elapses; `ecc` is what the scrub read meets. -/
  | scrubTick (k : Nat) (ecc : EccRes)
  /-- R148: the oldest queued write-back is made. -/
  | eccWriteback
  /-- R163: a read of VST_DIAG_DATA. -/
  | vstDiagRead (acc : Acc) (ecc : EccRes)
  -- crypto job engine (chapters 08, 09)
  /-- R194: a write of SQ_TAIL; `stores` is what cores have stored to core SRAM before it (R522). -/
  | sqDoorbell (acc : Acc) (ring : RingId) (data : Word) (stores : List (Nat × Bytes))
  /-- R194: a write of CQ_HEAD. -/
  | cqHeadWrite (acc : Acc) (ring : RingId) (data : Word)
  /-- R194: a write of the ring configuration register. -/
  | ringEnable (acc : Acc) (ring : RingId) (data : Word)
  /-- R195: the descriptor at SQ_HEAD is fetched into `tag`; `desc` and `walk` are what host memory gives an instance ring. -/
  | descriptorFetch (ring : RingId) (tag : Nat) (desc : Bytes) (walk : Walk)
  /-- R205: a QUEUED job is granted unit `unit` of its kind, with hash lane `lane` where it hashes beside a curve unit. -/
  | jobDispatch (tag unit lane : Nat) (walks : List Walk)
  /-- R207: the job on hash lane `lane` is pre-empted after `blocks` whole blocks since it started on the lane. -/
  | preemption (lane blocks : Nat) (io : JobIO)
  /-- R205: the job on hash lane `lane` yields after `blocks` whole blocks since it started on the lane. -/
  | yield (lane blocks : Nat) (io : JobIO)
  /-- R208: a PREEMPTED job resumes on a unit; `rec` is its context record as host memory gives it. -/
  | jobResume (tag unit : Nat) (rec : Bytes) (walks : List Walk)
  /-- R200: a finished job's outputs and completion entry are written. -/
  | completionWrite (tag : Nat) (walks : List Walk)
  /-- R211: a job's time exceeds job_timeout. -/
  | jobTimeout (tag : Nat) (walks : List Walk)
  /-- R206: a write of CJE_LANEm_CFG. -/
  | laneReserveWrite (acc : Acc) (m : Nat) (data : Word)
  /-- R198: the job of `tag` runs. -/
  | nop (tag : Nat) (io : JobIO)
  /-- R198. -/
  | hash (tag : Nat) (io : JobIO)
  /-- R198. -/
  | hmacGenerate (tag : Nat) (io : JobIO)
  /-- R198. -/
  | hmacVerify (tag : Nat) (io : JobIO)
  /-- R198. -/
  | kdf (tag : Nat) (io : JobIO)
  /-- R198. -/
  | drbg (tag : Nat) (io : JobIO)
  /-- R198. -/
  | ed25519Sign (tag : Nat) (io : JobIO)
  /-- R198. -/
  | ed25519Verify (tag : Nat) (io : JobIO)
  /-- R198. -/
  | x25519 (tag : Nat) (io : JobIO)
  /-- R198. -/
  | gcmEnc (tag : Nat) (io : JobIO)
  /-- R198. -/
  | gcmDec (tag : Nat) (io : JobIO)
  /-- R216: a SELF_TEST job ends; `bad` has bit u set for each unit u, numbered as in CJE_KAT_PASS, whose vectors mismatch. -/
  | selfTest (tag : Nat) (bad : Word)
  /-- R216: a reserved lane's test has not finished after 10 ms. -/
  | selfTestTimeout (tag : Nat)
  /-- R214: a continuous health test of the entropy source fails. -/
  | entropyHealthFailure
  /-- R234. -/
  | keyGen (tag : Nat) (io : JobIO)
  /-- R234. -/
  | keyPub (tag : Nat) (io : JobIO)
  /-- R234. -/
  | keyImport (tag : Nat) (io : JobIO)
  /-- R236. -/
  | keyWrap (tag : Nat) (io : JobIO)
  /-- R236. -/
  | keyUnwrap (tag : Nat) (io : JobIO)
  /-- R230. -/
  | keyInvalidate (tag : Nat) (io : JobIO)
  /-- R240. -/
  | measExtend (tag : Nat) (io : JobIO)
  /-- R243. -/
  | wmsBuild (tag : Nat) (io : JobIO)
  /-- R235. -/
  | policyCommit (tag : Nat) (io : JobIO)
  /-- R235. -/
  | fwRecord (tag : Nat) (io : JobIO)
  /-- R235. -/
  | aliasCreate (tag : Nat) (io : JobIO)
  /-- R231: one pass of the scrubber. -/
  | keyScrubPass
  -- device start and the TAP (chapters 10, 11)
  /-- R268: The single write of BOOT_DBG_LOCK fixes the debug access of the start. -/
  | bootDbgLockWrite (acc : Acc) (data : Word)
  /-- R270: A write to BOOT_CORE_RELEASE hashes Dill q's image and, on a match, locks it and starts the core; `inp` holds the
  images cores have stored before. -/
  | coreRelease (acc : Acc) (data : Word) (inp : BusIn)
  /-- R262: BOOT_LC_CMD submit triggers a CONTROL reset so that the ROM evaluates the life-cycle request. -/
  | lcSubmit (acc : Acc) (data : Word) (inp : RstIn)
  /-- R294: BOOT_HEALTH_CONFIRM in a trial start retires the boot watchdog. -/
  | healthConfirm (acc : Acc) (data : Word)
  /-- R265: The EXTEST instruction drives the outputs from boundary scan while pin instructions are open; `cells` are shifted
  into the boundary-scan register, `pins` is what it captured. -/
  | tapExtest (cells pins : Bytes)
  /-- R265: The SAMPLE/PRELOAD instruction accesses the boundary-scan register; `cells` are shifted in, `pins` captured. -/
  | tapSamplePreload (cells pins : Bytes)
  /-- R265: The IDCODE instruction returns the 32-bit identification. -/
  | tapIdcode
  /-- R265: The NONCE instruction returns BOOT_NONCE. -/
  | tapNonce
  /-- R265: The TOKEN instruction shifts 176 bytes into the token buffer; `t` are the bytes shifted in. -/
  | tapToken (t : Bytes)
  /-- R265: The TOKEN_STATUS instruction returns BOOT_TOKEN_STATUS. -/
  | tapTokenStatus
  /-- R266: TOKEN_RESET with a valid unevaluated token causes a CONTROL reset with cause 11; `inp` is what the reset finds
  outside. -/
  | tokenReset (inp : RstIn)
  /-- R265: The DTMCS instruction accesses the debug transport control. -/
  | tapDtmcs
  /-- R265: The DMI instruction accesses the debug module, which refuses while closed; `op` is the access, `inp` what a register
  write it makes finds outside. -/
  | tapDmi (op : DmiOp) (inp : BusIn)
  /-- R265: BYPASS, or any unlisted instruction, selects the 1-bit bypass register. -/
  | tapBypass
  /-- R300: A BOOT_BF_CMD READ copies boot flash into core SRAM. -/
  | bfRead (acc : Acc) (data : Word)
  /-- R278: A BOOT_BF_CMD PROGRAM programs within one page, subject to the area rules; `inp` holds what cores have stored to
  core SRAM before. -/
  | bfProgram (acc : Acc) (data : Word) (inp : BusIn)
  /-- R278: A BOOT_BF_CMD erase of 4 KiB, subject to the area rules. -/
  | bfErase4k (acc : Acc) (data : Word)
  /-- R278: A BOOT_BF_CMD erase of 64 KiB, subject to the area rules. -/
  | bfErase64k (acc : Acc) (data : Word)
  /-- R277: Every 2 µs the boot flash port polls status; the command ends when the chip is no longer busy; `wip` is the busy bit
  read. -/
  | bfBusyPoll (wip : Bool)
  /-- R277: A busy poll exceeds 2 s for an erase or 10 ms for a page, and the command ends with 0x013A. -/
  | bfBusyTimeout
  /-- R300: A boot flash command ends; busy clears and the result is set; `data` is what a READ returned, `ok` false where the
  command failed. -/
  | bfCommandDone (data : Bytes) (ok : Bool)
  /-- R363: A PCIe write to the push aperture goes to boot SRAM, or is discarded; `bs` are the bytes from aperture offset `off`,
  none where a byte is not enabled. -/
  | pushApertureWrite (off : Nat) (bs : List (Option Byte))
  /-- R296: PUSH_GO closes the push window, locks boot SRAM and checks the pushed bundle; `data` is the word written, `env` what
  the ROM then meets. -/
  | pushGo (data : Word) (env : RomEnv)
  -- watchdogs (chapter 14)
  /-- R343: The ROM kicks the boot watchdog and reloads its count. -/
  | bwdKick (acc : Acc) (data : Word)
  /-- R342: BWD_HANDOVER moves the boot watchdog to FIRST_STAGE or TRIAL with the handover period. -/
  | bwdHandover (acc : Acc) (data : Word)
  /-- R342: The boot-watchdog count falls to half, and warned is set. -/
  | bwdHalfPeriod
  /-- R342: The boot-watchdog count reaches 0; BWD_LAST is written and a CONTROL reset with cause 6 follows. -/
  | bwdBite (inp : RstIn)
  /-- R346: A write to TWD_ARM arms slots; the first one turns the task watchdog on and retires the boot watchdog. -/
  | twdArm (acc : Acc) (data : Word)
  /-- R348: A check-in write is accepted, counted as a duplicate, or recorded as foreign. -/
  | twdCheckin (acc : Acc) (data : Word)
  /-- R350: A task-watchdog period ends; missing slots enter PREBITE and start the grace time. -/
  | twdPeriodEnd
  /-- R350: The grace time ends; TWD_LAST_BITE is written and a CONTROL reset with cause 7 follows. -/
  | twdBite (inp : RstIn)
  -- fuses and counter store (chapter 12)
  /-- R309: FUS_CMD READ senses one word at READ and at STRICT. -/
  | fuseRead (acc : Acc) (data : Word)
  /-- R310: FUS_CMD PROGRAM starts pulses on the selected bits. -/
  | fuseProgram (acc : Acc) (data : Word)
  /-- R310: A 10 µs programming pulse ends, is verified, and is retried or ends the command; what the pulse's word reads at
  READ, NORM and STRICT. -/
  | fusePulseEnd (r n t : Word)
  /-- R309: FUS_CMD REPAIR programs marginal bits with a STRICT verify. -/
  | fuseRepair (acc : Acc) (data : Word)
  /-- R311: FUS_CMD LOCK checks a bank's margin and integrity word, then programs its lock bit. -/
  | fuseLock (acc : Acc) (data : Word)
  /-- R312: FUS_CMD ROOT_GEN programs the root secret, its complement, the integrity words, the locks and the ROOTED marker. -/
  | rootGen (acc : Acc) (data : Word)
  /-- R309: FUS_CMD STRICT_CHECK rereads a bank and updates its FUS_MARGIN bit. -/
  | strictCheck (acc : Acc) (data : Word)
  /-- R308: The TEM programs the next tamper-thermometer bit after the pulse in progress; whether the bit pulsed reads 1 at READ
  and at STRICT. -/
  | tamperCountAdvance (r t : Bool)
  /-- R318: A core queue requests INCREMENT of a counter through CST_COREq_CMD. -/
  | cstIncrement (acc : Acc) (q : Nat) (data : Word)
  /-- R318: A core queue requests RAISE of a counter to its argument. -/
  | cstRaise (acc : Acc) (q : Nat) (data : Word)
  /-- R319: Sage writes CST_OWNERc to change the owner of a counter. -/
  | cstOwnerWrite (acc : Acc) (c : Nat) (data : Word)
  /-- R320: A granted counter operation writes and verifies both copies and reports completion; `k` is the operation granted in
  the queue order of R324, and whether writing either copy fails its verify. -/
  | counterOperationDone (k : Nat) (aFails bFails : Bool)
  /-- R321: The counter store finishes reconciling both copies, and waiting operations are granted; `bad` lists the counters
  whose rewritten copy fails its verify. -/
  | reconcileDone (bad : List Nat)
  -- tamper and environment (chapter 13)
  /-- R327: A supply sensor converts a sample, and an excursion counts towards the N-of-M rule; sensor `i` reads `code`. -/
  | supplySample (i code : Nat)
  /-- R327: A junction temperature sensor converts a sample, and an excursion counts towards the N-of-M rule; sensor `i` reads
  `code`. -/
  | temperatureSample (i code : Nat)
  /-- R327: The glitch detector finds a short TBCLK period or phase; `bad` is the detector output. -/
  | tbclkGlitch (bad : Bool)
  /-- R327: A shield mesh pass ends and reports a break or a short; `bad` where the pass reports a fault. -/
  | meshPass (bad : Bool)
  /-- R327: An enabled CASE_N input's filtered level reaches its active level; input `i`. -/
  | caseInputChange (i : Nat) (level : Bool)
  /-- R327: The VBAT monitor samples the cell under main power; the sample reads `code`. -/
  | vbatSample (code : Nat)
  /-- R327: A monitored state register holds a code outside its set on a write or at a 1 µs check; monitored register `i` holds
  `code`. -/
  | stateCodeCheck (i code : Nat)
  /-- R336: TEM_TOKEN_LOAD copies BOOT_LCREQ bytes into the token buffer. -/
  | temTokenLoad (acc : Acc) (data : Word)
  /-- R336: VBAT has stayed in limits for 1 s after a dip; the window closes and a fresh canary is written. -/
  | batteryWindowClose
  /-- R336: The battery window time runs out; a fresh canary is written, or an alarm is raised if VBAT is low. -/
  | batteryWindowExpiry
  -- PCIe, I3C, service port (chapter 15)
  /-- R362: PCIE_PERST_N is asserted; configuration space resets and every instance is removed. -/
  | pciePerst
  /-- R362: A hot reset resets configuration space and removes every instance. -/
  | pcieHotReset
  /-- R362: The link goes down, which acts as a fundamental reset of the endpoint. -/
  | pcieLinkDown
  /-- R364: The data link comes up, with the negotiated `speed` and width; a link that is up is then found in L1 or (`l1` false) leaves
  L1 or has retrained. -/
  | pcieLinkUp (speed : Nat) (lanes : LinkLanes)
  /-- R362: A PF function-level reset resets the functions and removes every instance. -/
  | pfFlr
  /-- R362: A VF function-level reset resets VF i's configuration space and performs INSTANCE i reset. -/
  | vfFlr (i : Nat)
  /-- R358: A write of VF Enable or NumVFs enables VFs, with the clamping and ARI rules; VF Enable, NumVFs and ARI Capable
  Hierarchy as written. -/
  | vfEnableWrite (en : Bool) (num : Nat) (ari : Bool)
  /-- R360: An ATS invalidation completes after every request that used the translation; function, range, and what page accesses
  that follow meet. -/
  | atsInvalidate (fn addr len : Nat) (ws : List Walk)
  /-- R386: A page request group response arrives; the access is retried or the job fails; `success` or failure, and what the
  retried accesses meet. -/
  | prgResponse (idx : Nat) (success : Bool) (ws : List Walk)
  /-- R361: A device read's completion times out and is reported to the unit that issued it; the job `tag` whose read it was,
  and what its completion write meets. -/
  | pcieCompletionTimeout (tag : Nat) (ws : List Walk)
  /-- R366: A private write delivers an MCTP packet to the receive queue, or is NACKed; the bytes written, PEC last. -/
  | mctpPacketWrite (bytes : Bytes)
  /-- R366: The controller reads the transmit packet, and the PEC is appended. -/
  | mctpPacketRead
  /-- R366: The target raises an IBI at a bus-free condition while a packet is pending; `acked` by the controller. -/
  | ibi (acked : Bool)
  /-- R366: I3C_TX_CTRL send queues a transmit packet. -/
  | i3cTxSend (acc : Acc) (data : Word)
  /-- R366: I3C_TX_CTRL cancel withdraws the unread packet. -/
  | i3cTxCancel (acc : Acc)
  /-- R367: I3C_RX_POP discards the head received packet. -/
  | i3cRxPop (acc : Acc)
  /-- R366: A packet not read within tx_to ms is withdrawn with 0x1202. -/
  | i3cTxTimeout
  /-- R365: The ENEC CCC enables events. -/
  | enec (events : Ccc Byte)
  /-- R365: The DISEC CCC disables events. -/
  | disec (events : Ccc Byte)
  /-- R365: The RSTDAA CCC resets the dynamic address. -/
  | rstdaa
  /-- R365: The ENTDAA CCC assigns a dynamic address; the address assigned. -/
  | entdaa (a : Nat)
  /-- R365: The SETDASA CCC assigns a dynamic address from the static address; the static address named and the address
  assigned. -/
  | setdasa (sa a : Nat)
  /-- R365: The SETNEWDA CCC changes the dynamic address. -/
  | setnewda (a : Nat)
  /-- R365: The SETMWL CCC sets the maximum write length. -/
  | setmwl (n : Ccc Nat)
  /-- R365: The SETMRL CCC sets the maximum read length. -/
  | setmrl (n : Ccc Nat)
  /-- R365: The GETMWL CCC returns the maximum write length. -/
  | getmwl
  /-- R365: The GETMRL CCC returns the maximum read length. -/
  | getmrl
  /-- R365: The GETPID CCC returns the provisional ID. -/
  | getpid
  /-- R365: The GETBCR CCC returns BCR. -/
  | getbcr
  /-- R365: The GETDCR CCC returns DCR. -/
  | getdcr
  /-- R365: The GETSTATUS CCC returns status. -/
  | getstatus
  /-- R365: The RSTACT CCC with reset peripheral resets the MCTP queues. -/
  | rstact (act : Ccc Byte)
  /-- R370: A HELLO request returns the part, life cycle, context, nonce and DevID. -/
  | hello (seq : Nat) (payload : Bytes)
  /-- R370: A BAUD request sets a new divisor, which takes effect 1 ms after the response. -/
  | baud (seq : Nat) (payload : Bytes)
  /-- R370: 1 ms after the BAUD response, the new rate takes effect. -/
  | baudSwitch
  /-- R370: No valid header arrives within 2 s at the new rate, so the divisor reverts. -/
  | baudRevert
  /-- R372: SESSION_OPEN opens a staging session when it is permitted. -/
  | sessionOpen (seq : Nat) (payload : Bytes)
  /-- R289: A DATA frame writes one 4 KiB block into Staging, erasing its unit first if needed; `readBack` is what the
  programmed block reads back as, none where a busy limit was exceeded. -/
  | data (seq : Nat) (payload : Bytes) (readBack : Option Bytes)
  /-- R372: SESSION_CLOSE ends the session and clears stg_enable. -/
  | sessionClose (seq : Nat) (payload : Bytes)
  /-- R372: 10 s pass without a valid request and the session ends with 0x1306. -/
  | sessionTimeout
  /-- R370: A service-port PUSH_WRITE writes boot SRAM in RECOVERY. -/
  | svcPushWrite (seq : Nat) (payload : Bytes)
  /-- R370: A service-port PUSH_GO ends the push and runs the check of R296; `env` is what the ROM then meets. -/
  | svcPushGo (seq : Nat) (payload : Bytes) (env : RomEnv)
  /-- R373: A firmware request is placed in SVC_FW_RX and firmware is signalled; request type 0x40 + `k`. -/
  | svcFirmwareRequest (k seq : Nat) (payload : Bytes)
  /-- R373: Firmware writes SVC_FW_TX_CTRL to send the response to the pending request. -/
  | svcFwAnswer (acc : Acc) (data : Word)
  /-- R369: A gap of more than 1 ms between bytes aborts the frame. -/
  | svcFrameAbort
  -- service instances (chapter 16)
  /-- R380: INSTi_CMD CREATE checks the resources, assigns them and creates the root and migration keys. -/
  | instCreate (acc : Acc) (i : Nat) (data : Word)
  /-- R390: INSTi_CMD DESTROY resets the instance in squash mode and frees its resources. -/
  | instDestroy (acc : Acc) (i : Nat) (data : Word)
  /-- R390: INSTi_CMD RESET runs the instance reset in squash or drain mode. -/
  | instReset (acc : Acc) (i : Nat) (data : Word) (inp : BusIn)
  /-- R390: 10 ms into a drain, the remaining jobs are squashed without an entry. -/
  | drainTimeout (i : Nat)
  /-- R393: A delayed generation increment proceeds once the remote item carrying it is 1 s old; `ws` is what completion writes
  meet. -/
  | generationDelayEnd (i : Nat) (ws : List Walk)
  /-- R395: INSTi_CMD FREEZE stops descriptor fetch and draws a new challenge. -/
  | instFreeze (acc : Acc) (i : Nat) (data : Word)
  /-- R395: A freezing instance has no job and no remote item left, and becomes FROZEN. -/
  | instanceFrozen (i : Nat)
  /-- R378: INSTi_CMD THAW makes the instance ACTIVE and resumes fetch. -/
  | instThaw (acc : Acc) (i : Nat) (data : Word)
  /-- R397: INSTi_CMD SAVE checks the peer WMS and writes the encrypted migration blob. -/
  | instSave (acc : Acc) (i : Nat) (data : Word) (inp : BusIn)
  /-- R400: INSTi_CMD RESTORE checks and decrypts the blob, restores keys and counters, and freezes. -/
  | instRestore (acc : Acc) (i : Nat) (data : Word) (inp : BusIn)
  /-- R389: INSTi_RESUME resume invalidates the cached translations and retries the parked jobs and queue. -/
  | instResume (acc : Acc) (i : Nat) (inp : BusIn)
  /-- R389: INSTi_RESUME abort completes or squashes the faulted jobs. -/
  | instAbort (acc : Acc) (i : Nat) (inp : BusIn)
  /-- R389: INSTi_RESUME inval discards the instance's cached translations. -/
  | instInval (acc : Acc) (i : Nat) (inp : BusIn)
  /-- R382: Instance software requests INCREMENT of one of its counters. -/
  | instCtrIncrement (acc : Acc) (i : Nat) (data : Word)
  /-- R382: Instance software requests RAISE of one of its counters. -/
  | instCtrRaise (acc : Acc) (i : Nat) (data : Word)
  /-- R383: The PF rings the manager doorbell and the channel becomes PENDING. -/
  | mgrDoorbell (acc : Acc) (data : Word)
  /-- R383: Firmware publishes the manager response and the channel becomes DONE. -/
  | mgrPublish (acc : Acc) (data : Word)
  /-- R393: A forwarded job has no result 1 s after issue and completes with 0x0C1A; `ws` is what the completion write meets. -/
  | remoteJobTimeout (tag : Nat) (ws : List Walk)
  -- the Lomes ring (chapter 17)
  /-- R406: Every 1 µs an enabled side sends a heartbeat ordered set. -/
  | heartbeatSend (x : Nat)
  /-- R406: A receive lane sees 64 consecutive valid sync headers and reaches block lock. -/
  | blockLock (x : Nat)
  /-- R406: A LINK_HELLO from the neighbour is received and the side becomes UP. -/
  | linkHello (x : Nat) (f : Frame17)
  /-- R409: A frame not addressed to the node is forwarded cut-through, or turned at a wrap; on receive lane `x`. -/
  | frameForward (x : Nat) (f : Frame17) (inp : LmsIn)
  /-- R413: Node 0 sends DISCOVER 1 ms after its first side becomes UP or after a LINK_EVENT. -/
  | discoverOriginate
  /-- R413: A DISCOVER is received; a node appends itself, and node 0 builds the order and broadcasts TOPOLOGY. -/
  | discover (x : Nat) (f : Frame17)
  /-- R413: A TOPOLOGY with a higher topo_seq is accepted, and routing and wrap state follow it. -/
  | topology (x : Nat) (f : Frame17)
  /-- R413: Every 10 ms node 0 repeats its current TOPOLOGY. -/
  | topologyRepeat
  /-- R413: A node accepts no TOPOLOGY for 30 ms and enters ISOLATED. -/
  | isolatedTimeout
  /-- R426: Every 1 ms a node sends STATUS to node 0. -/
  | statusSend
  /-- R426: Node 0 receives a STATUS frame and marks the node present. -/
  | status (x : Nat) (f : Frame17)
  /-- R426: No STATUS has come from a node for 5 ms, so node 0 removes it from the node table. -/
  | nodeAgeing (n : Nat)
  /-- R415: The silent timer of a receive lane expires; the side becomes SILENT, wraps and sends LINK_EVENT. -/
  | silentTimeout (x : Nat)
  /-- R415: Node 0 receives a LINK_EVENT and rediscovers the ring. -/
  | linkEvent (x : Nat) (f : Frame17)
  /-- R411: An ACK frame acknowledges reliable frames, or with sync reports a new incarnation. -/
  | ack (x : Nat) (f : Frame17)
  /-- R411: An unacknowledged reliable frame is retransmitted, or the sender gives up after retx_max; to node `n`. -/
  | retransmitTimeout (n seq : Nat)
  /-- R419: A remote REG_RD is executed at the target under remote rights and answered. -/
  | regRd (x : Nat) (f : Frame17)
  /-- R419: A remote REG_WR is executed at the target under remote rights and answered. -/
  | regWr (x : Nat) (f : Frame17) (inp : LmsIn)
  /-- R418: A REG_RSP completes a remote aperture access. -/
  | regRsp (x : Nat) (f : Frame17)
  /-- R418: An access in the remote aperture is sent as REG_RD or REG_WR, or is refused; at aperture offset `o`. -/
  | remoteApertureAccess (acc : Acc) (write : Bool) (o : Nat) (data : Word)
  /-- R421: A received EVENT frame is queued on LMS page 0, or counted as lost. -/
  | event (x : Nat) (f : Frame17)
  /-- R429: LMS_EVQ_POP discards the head event entry. -/
  | evqPop (acc : Acc)
  /-- R422: The executing node accepts a forwarded job as remote class, or refuses it with JOB_ABORT; `inp.tag` is the tag it
  gets. -/
  | jobReq (x : Nat) (f : Frame17) (inp : LmsIn)
  /-- R422: The home node serves a buffer read with its translations and answers with BUF_DATA. -/
  | bufRd (x : Nat) (f : Frame17) (inp : LmsIn)
  /-- R422: The executing node receives buffer data for a remote job. -/
  | bufData (x : Nat) (f : Frame17)
  /-- R422: The home node writes remote job output after the generation check. -/
  | bufWr (x : Nat) (f : Frame17) (inp : LmsIn)
  /-- R422: The home node writes the completion entry of a forwarded job. -/
  | jobDone (x : Nat) (f : Frame17) (inp : LmsIn)
  /-- R423: The home node completes a forwarded job with the abort status. -/
  | jobAbort (x : Nat) (f : Frame17) (inp : LmsIn)
  /-- R423: The executing node squashes a detached remote job. -/
  | jobCancel (x : Nat) (f : Frame17)
  /-- R424: The target writes pushed bytes into boot SRAM, or refuses them with 0x1407. -/
  | pushData (x : Nat) (f : Frame17)
  /-- R424: The target takes PUSH_LEN and PUSH_GO from a frame and checks the bundle. -/
  | pushCtrl (x : Nat) (f : Frame17) (inp : LmsIn)
  /-- R424: Node 0 receives the push result and ends the bulk channel. -/
  | pushRsp (x : Nat) (f : Frame17)
  /-- R424: A bulk channel start of kind PUSH sends host memory to a target's boot SRAM; `mem` is the host memory read, none
  where a read fails. -/
  | bulkPush (acc : Acc) (c : Nat) (data : Word) (mem : Option Bytes)
  /-- R424: A bulk channel start of kind FETCH reads a target's register space into host memory. -/
  | bulkFetch (acc : Acc) (c : Nat) (data : Word)
  /-- R425: A bulk channel makes no progress for 1 s and ends with 0x140A. -/
  | bulkProgressTimeout (ch : Nat)
  -- pairs (chapter 18)
  /-- R441: A claim-link frame with valid sync and CRC is received and the output rule is re-evaluated; the peer's claim, the
  echoed claim and the flags byte; `ok` when sync and CRC are valid. -/
  | claimLinkFrame (claim echo flags : Nat) (ok : Bool)
  /-- R441: 2 µs pass without a fresh frame, so the link becomes stale and the peer claim is taken as 0. -/
  | claimLinkStale
  /-- R443: PAIR_REQ_CMD RENEW draws a nonce and sends or holds a RENEW request. -/
  | pairReqRenew (acc : Acc) (data : Word)
  /-- R443: PAIR_REQ_CMD CLAIM draws a nonce and sends or holds a CLAIM request. -/
  | pairReqClaim (acc : Acc) (data : Word)
  /-- R443: A pending pair request expires after 10 s. -/
  | requestExpiry
  /-- R449: Firmware writes PAIR_GRANT_GO and the grant in PAIR_GRANTw is checked. -/
  | pairGrantGo (acc : Acc) (data : Word)
  /-- R446: The lease expires; the claim ends and the outputs go high-impedance. -/
  | leaseExpiry
  /-- R446: The hold-off ends, and the unit drives if the output rule holds. -/
  | holdoffEnd
  /-- R450: Every 10 µs a paired unit sends PAIR_BEAT. -/
  | pairBeatSend
  /-- R450: A PAIR_BEAT datagram from the peer or a tracked source is received. -/
  | pairBeat (x : Nat) (f : Frame17)
  /-- R450: No peer beat arrives for beat_to × 10 µs; a standby with auto_req sends a CLAIM request. -/
  | beatTimeout
  /-- R450: Every 100 ms while beats stay absent, the standby repeats its CLAIM request. -/
  | claimRequestRepeat
  /-- R454: Every health_ms × 10 ms the unit builds and sends a health report. -/
  | healthReportTimer
  /-- R454: PAIR_HEALTH_CTRL builds and sends a health report at once. -/
  | pairHealthCtrl (acc : Acc)
  /-- R452: PAIR_WARM makes the listed deciding ports re-read manifest, DTTs and resident blocks for snooping. -/
  | pairWarm (acc : Acc) (data : Word)
  /-- R453: PAIR_MTX_CTRL sends a firmware mirror record to the peer. -/
  | mirrorSend (acc : Acc) (data : Word)
  /-- R453: A COUNTER mirror record is applied by the standby port as a raise, or queued to firmware. -/
  | mirrorCounter (x : Nat) (f : Frame17)
  /-- R453: A QUARANTINE mirror record is applied to the standby port as a failed check. -/
  | mirrorQuarantine (x : Nat) (f : Frame17)
  /-- R453: A firmware mirror record is queued for standby firmware; kind 0x10 + `kind`. -/
  | mirrorFirmwareRecord (kind x : Nat) (f : Frame17)
  /-- R458: PAIR_MRX_POP discards the head mirror record. -/
  | pairMrxPop (acc : Acc)
  /-- R449: A witness receives a pair request into its inbox. -/
  | pairRequest (x : Nat) (f : Frame17)
  /-- R449: A witness receives a health report into its inbox. -/
  | pairHealthReport (x : Nat) (f : Frame17)
  /-- R458: PAIR_WIN_POP discards the head witness inbox entry. -/
  | pairWinPop (acc : Acc)
  /-- R449: PAIR_WOUT_CTRL sends the grant in PAIR_WOUTw to the target unit. -/
  | pairWoutSend (acc : Acc) (data : Word)
  -- events and power (chapters 19, 20)
  /-- R465: A route entry write can deliver an already active source to a newly selected destination; source number `src`. -/
  | evhRouteWrite (acc : Acc) (src : Nat) (data : Word)
  /-- R465: Every resend µs an MSI-X vector whose OR stays 1 is sent again. -/
  | msixResend (fn v : Nat)
  /-- R477: A write to PWR_DOMAIN_EN switches domains one at a time, refusing those not permitted. -/
  | pwrDomainEnWrite (acc : Acc) (data : Word)
  /-- R477: A domain switch-on or switch-off completes. -/
  | domainSwitchDone
  /-- R483: PWR_REST_CMD enter is checked and, if accepted, the state becomes ARMED. -/
  | restEnter (acc : Acc) (data : Word)
  /-- R484: PWR_REST_CMD cancel returns the state from ARMED to RUN. -/
  | restCancel (acc : Acc) (data : Word)
  /-- R484: All cores are in wait-for-interrupt; the state becomes ENTERING and domains switch off. -/
  | restCoresHalted
  /-- R484: The switch-offs complete and the state becomes REST. -/
  | restEntered
  /-- R485: PWR_WAKE_TIMER µs have elapsed in REST. -/
  | wakeTimer
  /-- R486: The wake completes; the cores resume and the state becomes RUN with the cause recorded. -/
  | wakeComplete
  -- further events of the chapters above
  /-- R56: A timebase loss that persists for 1 µs by the detector's own delay line meets the clock-class condition and leads to
  LOCKED. -/
  | timebaseLossPersists
  /-- R415: A heartbeat ordered set arrives on a receive lane and restarts its silent timer. -/
  | heartbeat (x : Nat)
  /-- R411: With no frame pending to carry it, a node sends an ACK frame within 2 µs of receiving a reliable frame. -/
  | ackDelayExpiry (n : Nat)
  /-- R408: A Lomes frame of unknown type, with malformed fixed fields, with hops reaching 128 or failing its CRC at this node
  is discarded and counted in LMS_LINK_ERRS; `crc` when the CRC fails at this hop. -/
  | malformedFrame (x : Nat) (crc : Bool)
  /-- R369: A service-port frame whose header CRC fails, whose type is unknown, or that overruns the two-request limit is
  discarded or refused and counted; `hdrOk` when the header CRC holds. -/
  | svcInvalidFrame (hdrOk : Bool) (type seq : Nat) (payload : Bytes)
  /-- R449: A grant sent by the witness in a PAIR frame arrives and the pairing unit loads, checks and applies it without
  firmware. -/
  | grantFrame (x : Nat) (f : Frame17)
  /-- R451: A non-driving unit decodes a command and its read data on the shared flash-side bus and uses them for its own
  pending accesses and busy state; port `n`, flash address, data bytes; `poll` is the busy bit a status poll of CS0
  read. -/
  | snoopedFlashCommand (n : Nat) (fa : ChipAddr) (data : Bytes) (poll : Option Bool)
  /-- R386: A page request group index whose response has not arrived becomes reusable 1 s after issue. -/
  | prgIndexTimeout (idx : Nat) (ws : List Walk)
  /-- R359: A PCIe configuration write to the PF or a VF, such as Bus Master Enable, ATS or PRI Enable, or the power state,
  takes effect and releases pending MSI-X messages; function `fn` then holds the fields `f`. -/
  | configWrite (fn : Nat) (f : PciFn)
  /-- R359: A write to an MSI-X table entry or mask, which sends a pending message when its vector is unmasked; entry `v` of
  function `fn`. -/
  | msixTableWrite (fn v addr data : Nat) (masked : Bool)
  /-- R361: A PCIe completion that arrives after its request was abandoned is discarded and logged under AER. -/
  | unexpectedCompletion
  /-- R265: TRST_N low or the TMS sequence puts the TAP into test-logic reset, which selects IDCODE. -/
  | testLogicReset
  deriving DecidableEq, Repr

end Sys2Proof
end

