-- ==== Sys2Proof/Decode.lean ====
section
/-! DEFINITION. Decode.lean: the commands that words spell.  spec/opcode_table.json gives its rows no bits and no operand fields, so
no word spells a command: commands reach the block over its interfaces, not as encoded words. -/
namespace Sys2Proof

/-- The command a word of the opcode table's bits spells: none, since no row of the table has bits. -/
def decodeTableWord (_nbits _w : Nat) : Option Instr := none

end Sys2Proof
end

