-- ==== Sys2Proof/Machine/Tables.lean ====
section
/-! DEFINITION. Machine/Tables.lean: bit fields, byte orders and the one sparse table every memory, register
file and per-unit record of the model is kept in. -/
namespace Sys2Proof

/-- Bits `hi` down to `lo` of a register, as a number. -/
def fld (w : Word) (hi lo : Nat) : Nat := (w.toNat >>> lo) % 2 ^ (hi + 1 - lo)

/-- Bit `i` of a register. -/
def bit (w : Word) (i : Nat) : Bool := w.getLsbD i

/-- The mask of bits `hi` down to `lo`. -/
def maskOf (hi lo : Nat) : Word := BitVec.ofNat 32 ((2 ^ (hi + 1 - lo) - 1) <<< lo)

/-- `w` with bits `hi` down to `lo` holding `v` (cut to the field's width). -/
def setFld (w : Word) (hi lo v : Nat) : Word :=
  (w &&& ~~~ maskOf hi lo) ||| ((BitVec.ofNat 32 (v <<< lo)) &&& maskOf hi lo)

/-- A field in place: `v` (cut to its width) at bits `hi` down to `lo`, zero elsewhere. -/
def mk (hi lo v : Nat) : Word := setFld 0 hi lo v

/-- A Bool as a field value. -/
def b2n (b : Bool) : Nat := if b then 1 else 0

/-- A number as `n` bytes, least significant first (R12). -/
def leBytes : Nat → Nat → Bytes
  | 0, _ => []
  | n + 1, v => BitVec.ofNat 8 v :: leBytes n (v / 256)

/-- The number that bytes spell, least significant first (R12). -/
def leNat : Bytes → Nat
  | [] => 0
  | b :: t => b.toNat + 256 * leNat t

/-- A number as `n` bytes, most significant first. -/
def beBytes (n v : Nat) : Bytes := (leBytes n v).reverse

/-- The number that bytes spell, most significant first. -/
def beNat (bs : Bytes) : Nat := leNat bs.reverse

/-- `n` bytes of `bs` from offset `o`, zero beyond its end. -/
def sliceZ (bs : Bytes) (o n : Nat) : Bytes :=
  let t := (bs.drop o).take n
  t ++ List.replicate (n - t.length) 0

/-- The little-endian number in the `n` bytes of `bs` from offset `o` (zero beyond its end). -/
def fieldLe (bs : Bytes) (o n : Nat) : Nat := leNat (sliceZ bs o n)

/-- The 32-bit words of a byte string, least significant byte first (R12). -/
def wordAtLe (bs : Bytes) (i : Nat) : Word := BitVec.ofNat 32 (fieldLe bs (4 * i) 4)

/-- All bytes zero. -/
def allZero (bs : Bytes) : Bool := bs.all (· == 0)

/-- `n` zero bytes. -/
def zeros (n : Nat) : Bytes := List.replicate n 0

/-- `n` all-ones bytes. -/
def ones (n : Nat) : Bytes := List.replicate n 0xFF

/-- The bytes of an ASCII string. -/
def ascii (s : String) : Bytes := s.toList.map fun c => BitVec.ofNat 8 c.toNat

/-! ### The sparse table -/

/-- What key `k` holds: its entry, or `d k` where the table lists none. -/
def Tbl.get {α : Type} (d : Nat → α) : Tbl α → Nat → α
  | [], k => d k
  | (j, v) :: t, k => if k = j then v else Tbl.get d t k

/-- The table without an entry for `k`. -/
def Tbl.erase {α : Type} (t : Tbl α) (k : Nat) : Tbl α := t.filter fun e => e.1 != k

/-- `(k, v)` put before the first larger key. -/
def Tbl.insert {α : Type} : Tbl α → Nat → α → Tbl α
  | [], k, v => [(k, v)]
  | (j, w) :: t, k, v => if k < j then (k, v) :: (j, w) :: t else (j, w) :: Tbl.insert t k v

/-- The table in which `k` holds `v`: writing what an unlisted key reads as removes the entry. -/
def Tbl.set {α : Type} [DecidableEq α] (d : Nat → α) (t : Tbl α) (k : Nat) (v : α) : Tbl α :=
  if v = d k then t.erase k else (t.erase k).insert k v

/-- The table with every key from `lo` up to but not including `hi` back at what an unlisted key reads as. -/
def Tbl.clearRange {α : Type} (t : Tbl α) (lo hi : Nat) : Tbl α :=
  t.filter fun e => !(decide (lo ≤ e.1) && decide (e.1 < hi))

/-- Keys strictly rising, starting above `lo`. -/
def Tbl.sortedFrom {α : Type} : Option Nat → Tbl α → Bool
  | _, [] => true
  | none, (j, _) :: t => Tbl.sortedFrom (some j) t
  | some i, (j, _) :: t => decide (i < j) && Tbl.sortedFrom (some j) t

/-- No entry equal to what an unlisted key reads as. -/
def Tbl.noDefault {α : Type} [DecidableEq α] (d : Nat → α) (t : Tbl α) : Bool :=
  t.all fun e => decide (e.2 ≠ d e.1)

/-- The canonical form: keys strictly rising and no entry equal to what an unlisted key reads as, so that
equal contents are equal data. -/
def Tbl.wf {α : Type} [DecidableEq α] (d : Nat → α) (t : Tbl α) : Bool :=
  Tbl.sortedFrom none t && Tbl.noDefault d t

/-! ### Byte memories: tables of bytes whose unlisted addresses read zero -/

/-- An unlisted byte reads zero. -/
def zeroByte : Nat → Byte := fun _ => 0

/-- `n` bytes of a memory from address `a`. -/
def memRead (m : Tbl Byte) (a n : Nat) : Bytes := (List.range n).map fun i => Tbl.get zeroByte m (a + i)

/-- The memory with `bs` stored from address `a`. -/
def memWrite (m : Tbl Byte) (a : Nat) : Bytes → Tbl Byte
  | [] => m
  | b :: t => memWrite (Tbl.set zeroByte m a b) (a + 1) t

/-- The number of set bits of a list. -/
def countTrue (l : List Bool) : Nat := (l.filter id).length

/-- `v` raised by `n`, saturating at `top` (R23-style counters: "saturates at"). -/
def satAdd (v n top : Nat) : Nat := min (v + n) top

end Sys2Proof
end

