-- ==== Sys2Proof/Machine/CryptoAes.lean ====
section
/-! DEFINITION. Machine/CryptoAes.lean: AES-256 in Galois/counter mode (FIPS 197, SP 800-38D), the operations GCM_ENC
and GCM_DEC of R198 and the blobs of R236 and R397.  PRESUMED: the spec names the standards and gives no
text of them (assumption log 4). -/
namespace Sys2Proof

/-- Multiplication by x in the AES field. -/
def aesXtime (b : Byte) : Byte := if b.getLsbD 7 then (b <<< 1) ^^^ 0x1B else b <<< 1

/-- Multiplication in the AES field. -/
def aesMul (a b : Byte) : Byte :=
  ((List.range 8).foldl (fun (s : Byte × Byte) i =>
    (if b.getLsbD i then s.1 ^^^ s.2 else s.1, aesXtime s.2)) (0, a)).1

/-- The inverse in the AES field (b to the 254th; 0 to 0). -/
def aesInv (b : Byte) : Byte :=
  let b2 := aesMul b b
  let b4 := aesMul b2 b2
  let b8 := aesMul b4 b4
  let b16 := aesMul b8 b8
  let b32 := aesMul b16 b16
  let b64 := aesMul b32 b32
  let b128 := aesMul b64 b64
  aesMul b128 (aesMul b64 (aesMul b32 (aesMul b16 (aesMul b8 (aesMul b4 b2)))))

/-- The AES substitution box. -/
def aesSbox (b : Byte) : Byte :=
  let i := aesInv b
  i ^^^ i.rotateLeft 1 ^^^ i.rotateLeft 2 ^^^ i.rotateLeft 3 ^^^ i.rotateLeft 4 ^^^ 0x63

/-- Bytewise exclusive or of two byte strings. -/
def xorBytes (a b : Bytes) : Bytes := List.zipWith (· ^^^ ·) a b

/-- The AES-256 key schedule: `ws` is the schedule so far, newest word first; `n` words are still to come. -/
def aesExpand : Nat → Nat → Byte → List Bytes → List Bytes
  | 0, _, _, ws => ws.reverse
  | n + 1, i, rc, ws =>
    let t := ws.getD 0 []
    let sub := t.map aesSbox
    let t' :=
      if i % 8 = 0 then xorBytes (sub.drop 1 ++ sub.take 1) [rc, 0, 0, 0]
      else if i % 8 = 4 then sub else t
    aesExpand n (i + 1) (if i % 8 = 0 then aesXtime rc else rc) (xorBytes (ws.getD 7 []) t' :: ws)

/-- The 15 round keys of an AES-256 key. -/
def aesRoundKeys (key : Bytes) : List Bytes :=
  let ws := aesExpand 52 8 1 ((List.range 8).map fun i => sliceZ key (4 * i) 4).reverse
  (List.range 15).map fun r => ((ws.drop (4 * r)).take 4).flatten

/-- SubBytes and ShiftRows. -/
def aesSubShift (st : Bytes) : Bytes :=
  (List.range 16).map fun i => aesSbox (st.getD ((i + 4 * (i % 4)) % 16) 0)

/-- MixColumns. -/
def aesMix (st : Bytes) : Bytes :=
  (List.range 16).map fun i =>
    let c := 4 * (i / 4)
    let g (k : Nat) := st.getD (c + (i + k) % 4) 0
    aesXtime (g 0) ^^^ (aesXtime (g 1) ^^^ g 1) ^^^ g 2 ^^^ g 3

/-- The rounds after the first key addition. -/
def aesRounds : List Bytes → Bytes → Bytes
  | [], st => st
  | [k], st => xorBytes (aesSubShift st) k
  | k :: k' :: ks, st => aesRounds (k' :: ks) (xorBytes (aesMix (aesSubShift st)) k)

/-- One AES-256 block encryption under expanded round keys. -/
def aesBlock (rks : List Bytes) (blk : Bytes) : Bytes :=
  aesRounds (rks.drop 1) (xorBytes blk (rks.getD 0 []))

/-- Multiplication in the GCM field, most significant bit first. -/
def gcmMul (x y : BitVec 128) : BitVec 128 :=
  ((List.range 128).foldl (fun (s : BitVec 128 × BitVec 128) i =>
    (if x.getMsbD i then s.1 ^^^ s.2 else s.1,
     if s.2.getLsbD 0 then (s.2 >>> 1) ^^^ (0xE1 <<< 120) else s.2 >>> 1)) (0, y)).1

/-- A byte string cut into `n` 16-byte blocks, the last filled with zeros. -/
def gcmBlocks : Nat → Bytes → List Bytes
  | 0, _ => []
  | n + 1, m => (m.take 16 ++ zeros (16 - (m.take 16).length)) :: gcmBlocks n (m.drop 16)

/-- GHASH of the AAD and the ciphertext. -/
def ghash (h : BitVec 128) (aad ct : Bytes) : BitVec 128 :=
  let blocks := gcmBlocks ((aad.length + 15) / 16) aad ++ gcmBlocks ((ct.length + 15) / 16) ct ++
    [beBytes 8 (8 * aad.length) ++ beBytes 8 (8 * ct.length)]
  blocks.foldl (fun y b => gcmMul (y ^^^ BitVec.ofNat 128 (beNat b)) h) 0

/-- Counter-mode encryption of `n` blocks from counter `c`. -/
def gcmCtr (rks : List Bytes) (iv : Bytes) : Nat → Nat → Bytes → Bytes
  | 0, _, _ => []
  | n + 1, c, m =>
    xorBytes (m.take 16) (aesBlock rks (iv ++ beBytes 4 c)) ++ gcmCtr rks iv n (c + 1) (m.drop 16)

/-- The tag of AES-256-GCM. -/
def gcmTag (rks : List Bytes) (iv aad ct : Bytes) : Bytes :=
  let h := BitVec.ofNat 128 (beNat (aesBlock rks (zeros 16)))
  xorBytes (beBytes 16 (ghash h aad ct).toNat) (aesBlock rks (iv ++ beBytes 4 1))

/-- AES-256-GCM encryption with a 96-bit IV: ciphertext and 16-byte tag. -/
def gcmEnc (key iv aad pt : Bytes) : Bytes × Bytes :=
  let rks := aesRoundKeys key
  let ct := gcmCtr rks iv ((pt.length + 15) / 16) 2 pt
  (ct, gcmTag rks iv aad ct)

/-- AES-256-GCM decryption: the plaintext, or none where the tag does not match. -/
def gcmDec (key iv aad ct tag : Bytes) : Option Bytes :=
  let rks := aesRoundKeys key
  if gcmTag rks iv aad ct = tag then some (gcmCtr rks iv ((ct.length + 15) / 16) 2 ct) else none

end Sys2Proof
end

