-- ==== Sys2Proof/Machine/CryptoHash.lean ====
section
/-! DEFINITION. Machine/CryptoHash.lean: SHA-512 (FIPS 180-4), HMAC-SHA-512 (FIPS 198-1), the counter-mode KDF of
SP 800-108 over it, and the two CRCs the spec names.  PRESUMED: the spec names these standards and gives
no text of them, so the functions follow the standards (assumption log 4). -/
namespace Sys2Proof

/-- A numeral's `n` 64-bit digits, most significant first. -/
def dwords : Nat → Nat → List DWord
  | 0, _ => []
  | n + 1, x => dwords n (x / 2 ^ 64) ++ [BitVec.ofNat 64 x]
/-- The fractional parts of the cube roots of the first 80 primes to 64 bits, five to a numeral. -/
def shaRoots : List Nat := [
  0x428a2f98d728ae227137449123ef65cdb5c0fbcfec4d3b2fe9b5dba58189dbbc3956c25bf348b538,
  0x59f111f1b605d019923f82a4af194f9bab1c5ed5da6d8118d807aa98a303024212835b0145706fbe,
  0x243185be4ee4b28c550c7dc3d5ffb4e272be5d74f27b896f80deb1fe3b1696b19bdc06a725c71235,
  0xc19bf174cf692694e49b69c19ef14ad2efbe4786384f25e30fc19dc68b8cd5b5240ca1cc77ac9c65,
  0x2de92c6f592b02754a7484aa6ea6e4835cb0a9dcbd41fbd476f988da831153b5983e5152ee66dfab,
  0xa831c66d2db43210b00327c898fb213fbf597fc7beef0ee4c6e00bf33da88fc2d5a79147930aa725,
  0x06ca6351e003826f142929670a0e6e7027b70a8546d22ffc2e1b21385c26c9264d2c6dfc5ac42aed,
  0x53380d139d95b3df650a73548baf63de766a0abb3c77b2a881c2c92e47edaee692722c851482353b,
  0xa2bfe8a14cf10364a81a664bbc423001c24b8b70d0f89791c76c51a30654be30d192e819d6ef5218,
  0xd69906245565a910f40e35855771202a106aa07032bbd1b819a4c116b8d2d0c81e376c085141ab53,
  0x2748774cdf8eeb9934b0bcb5e19b48a8391c0cb3c5c95a634ed8aa4ae3418acb5b9cca4f7763e373,
  0x682e6ff3d6b2b8a3748f82ee5defb2fc78a5636f43172f6084c87814a1f0ab728cc702081a6439ec,
  0x90befffa23631e28a4506cebde82bde9bef9a3f7b2c67915c67178f2e372532bca273eceea26619c,
  0xd186b8c721c0c207eada7dd6cde0eb1ef57d4f7fee6ed17806f067aa72176fba0a637dc5a2c898a6,
  0x113f9804bef90dae1b710b35131c471b28db77f523047d8432caab7b40c724933c9ebe0a15c9bebc,
  0x431d67c49c100d4c4cc5d4becb3e42b6597f299cfc657e2a5fcb6fab3ad6faec6c44198c4a475817]
/-- The constants of the 80 rounds. -/
def shaK : List DWord := shaRoots.flatMap (dwords 5)
/-- The chaining value before the first block: the fractional parts of the square roots of the first eight primes to 64 bits. -/
def shaInit : List DWord := dwords 8
  0x6a09e667f3bcc908bb67ae8584caa73b3c6ef372fe94f82ba54ff53a5f1d36f1510e527fade682d19b05688c2b3e6c1f1f83d9abfb41bd6b5be0cd19137e2179

/-- A word rotated right by each of the amounts, the results added without carry. -/
def rotSum (x : DWord) (by_ : List Nat) : DWord := by_.foldl (fun a n => a ^^^ x.rotateRight n) 0
/-- One step of the message schedule: `w` holds the last 16 words, newest first. -/
def shaNextW (w : List DWord) : DWord :=
  let at_ (back : Nat) : DWord := w.getD (back - 1) 0
  at_ 16 + at_ 7 + (rotSum (at_ 15) [1, 8] ^^^ (at_ 15 >>> 7)) + (rotSum (at_ 2) [19, 61] ^^^ (at_ 2 >>> 6))

/-- The working variables of a compression in two halves, each newest first: after a round the old first word of a half is its
second. -/
structure ShaVars where
  hi : DWord × DWord × DWord × DWord
  lo : DWord × DWord × DWord × DWord
  deriving DecidableEq, Repr

/-- One round with what its constant and its schedule word add up to: the two halves move on by a word each. -/
def shaRound (v : ShaVars) (kw : DWord) : ShaVars :=
  let (a, b, c, d) := v.hi
  let (e, f, g, h) := v.lo
  let t := h + kw + (g ^^^ (e &&& (f ^^^ g))) + rotSum e [14, 18, 41]
  ⟨(t + rotSum a [28, 34, 39] + ((a &&& (b ||| c)) ||| (b &&& c)), a, b, c), (d + t, e, f, g)⟩

/-- The rounds over the constants `ks`: `w` is the window of the last 16 schedule words, newest first, and
the word used is the oldest of it. -/
def shaRounds : List DWord → List DWord → ShaVars → ShaVars
  | [], _, v => v
  | k :: ks, w, v => shaRounds ks (shaNextW w :: w.take 15) (shaRound v (k + w.getD 15 0))

/-- Eight words as working variables. -/
def shaVars (h : List DWord) : ShaVars :=
  let g (i : Nat) : DWord := h.getD i 0
  ⟨(g 0, g 1, g 2, g 3), (g 4, g 5, g 6, g 7)⟩
/-- Working variables as eight words. -/
def ShaVars.words (v : ShaVars) : List DWord :=
  [v.hi.1, v.hi.2.1, v.hi.2.2.1, v.hi.2.2.2, v.lo.1, v.lo.2.1, v.lo.2.2.1, v.lo.2.2.2]
/-- The chaining value after one 128-byte block. -/
def shaBlock (h : List DWord) (blk : Bytes) : List DWord :=
  let w := ((List.range 16).map fun i => BitVec.ofNat 64 (beNat ((blk.drop (8 * i)).take 8))).reverse
  (shaVars h).words.zipWith (· + ·) (shaRounds shaK w (shaVars h)).words

/-- `n` 128-byte blocks of `m` into the chaining value `h`. -/
def shaBlocks : Nat → List DWord → Bytes → List DWord
  | 0, h, _ => h
  | n + 1, h, m => shaBlocks n (shaBlock h (m.take 128)) (m.drop 128)

/-- The padding of a message of `len` bytes in all. -/
def shaPad (len : Nat) : Bytes :=
  0x80 :: zeros ((239 - len % 128) % 128) ++ beBytes 16 (8 * len)

/-- A chaining value as 64 bytes. -/
def shaOut (h : List DWord) : Bytes := h.flatMap fun w => beBytes 8 w.toNat

/-- The chaining value that 64 bytes spell. -/
def shaIn (bs : Bytes) : List DWord :=
  (List.range 8).map fun i => BitVec.ofNat 64 (beNat (sliceZ bs (8 * i) 8))

/-- The digest of the message whose first `done` bytes (a multiple of 128) are in the chaining value `h` and
whose rest is `m`. -/
def shaFinish (h : List DWord) (done : Nat) (m : Bytes) : Bytes :=
  let p := m ++ shaPad (done + m.length)
  shaOut (shaBlocks (p.length / 128) h p)

/-- SHA-512 of a byte string. -/
def sha512 (m : Bytes) : Bytes := shaFinish shaInit 0 m

/-- The key block of HMAC-SHA-512. -/
def hmacKey (k : Bytes) : Bytes :=
  let k' := if k.length > 128 then sha512 k else k
  k' ++ zeros (128 - k'.length)

/-- HMAC-SHA-512. -/
def hmac (k m : Bytes) : Bytes :=
  sha512 ((hmacKey k).map (· ^^^ 0x5C) ++ sha512 ((hmacKey k).map (· ^^^ 0x36) ++ m))

/-- CRC-32C (Castagnoli), reflected, initial and final value all-ones. -/
def crc32cByte (c : Word) (b : Byte) : Word :=
  (List.range 8).foldl (fun c _ => if c.getLsbD 0 then (c >>> 1) ^^^ 0x82F63B78 else c >>> 1)
    (c ^^^ BitVec.ofNat 32 b.toNat)

/-- CRC-32C of a byte string. -/
def crc32c (bs : Bytes) : Word := ~~~ (bs.foldl crc32cByte 0xFFFFFFFF)

/-- One byte of CRC-16/CCITT-FALSE. -/
def crc16Byte (c : BitVec 16) (b : Byte) : BitVec 16 :=
  (List.range 8).foldl (fun c _ => if c.getLsbD 15 then (c <<< 1) ^^^ 0x1021 else c <<< 1)
    (c ^^^ (BitVec.ofNat 16 b.toNat <<< 8))

/-- CRC-16/CCITT-FALSE of a byte string. -/
def crc16 (bs : Bytes) : BitVec 16 := bs.foldl crc16Byte 0xFFFF

end Sys2Proof
end

