-- ==== Sys2Proof/Machine/CryptoCurve.lean ====
section
/-! DEFINITION. Machine/CryptoCurve.lean: Ed25519 (RFC 8032) and X25519 (RFC 7748), the curve operations of
R198.  PRESUMED: the spec names the two standards and gives no text of them (assumption log 4). -/
namespace Sys2Proof

/-- The field prime 2^255 − 19. -/
def p25519 : Nat := 2 ^ 255 - 19
/-- The order of the base point. -/
def l25519 : Nat := 2 ^ 252 + 27742317777372353535851937790883648493

/-- `b ^ e mod m` by squaring; `n` bits of `e` are read. -/
def powMod (m : Nat) : Nat → Nat → Nat → Nat
  | 0, _, _ => 1 % m
  | n + 1, b, e =>
    let r := powMod m n (b * b % m) (e / 2)
    if e % 2 = 1 then r * b % m else r

/-- The inverse in the field. -/
def fInv (a : Nat) : Nat := powMod p25519 255 a (p25519 - 2)
/-- Difference in the field (`b` reduced). -/
def fSub (a b : Nat) : Nat := (a + p25519 - b % p25519) % p25519
/-- The Edwards curve constant d. -/
def edD : Nat := fSub 0 (121665 * fInv 121666 % p25519)

/-- A point of the Edwards curve in extended coordinates. -/
structure EdPoint where
  x : Nat
  y : Nat
  z : Nat
  t : Nat
  deriving DecidableEq, Repr

/-- The neutral point. -/
def edZero : EdPoint := ⟨0, 1, 1, 0⟩

/-- Point addition (RFC 8032 5.1.4). -/
def edAdd (p q : EdPoint) : EdPoint :=
  let a := fSub p.y p.x * fSub q.y q.x % p25519
  let b := (p.y + p.x) * (q.y + q.x) % p25519
  let c := 2 * p.t * edD % p25519 * q.t % p25519
  let d := 2 * p.z * q.z % p25519
  let e := fSub b a
  let f := fSub d c
  let g := (d + c) % p25519
  let h := (b + a) % p25519
  ⟨e * f % p25519, g * h % p25519, f * g % p25519, e * h % p25519⟩

/-- Scalar multiplication, `n` bits of the scalar read. -/
def edMul : Nat → Nat → EdPoint → EdPoint
  | 0, _, _ => edZero
  | n + 1, k, p =>
    let r := edMul n (k / 2) (edAdd p p)
    if k % 2 = 1 then edAdd r p else r

/-- The x coordinate for `y` and the sign bit, where a point has it (RFC 8032 5.1.3). -/
def edRecoverX (y sign : Nat) : Option Nat :=
  if y ≥ p25519 then none else
  let x2 := fSub (y * y) 1 * fInv (edD * y % p25519 * y + 1) % p25519
  if x2 = 0 then (if sign = 1 then none else some 0) else
  let x := powMod p25519 255 x2 ((p25519 + 3) / 8)
  let x := if x * x % p25519 = x2 then x else x * powMod p25519 255 2 ((p25519 - 1) / 4) % p25519
  if x * x % p25519 ≠ x2 then none
  else if x % 2 = sign then some x else some (p25519 - x)

/-- The base point. -/
def edBase : EdPoint :=
  let y := 4 * fInv 5 % p25519
  let x := (edRecoverX y 0).getD 0
  ⟨x, y, 1, x * y % p25519⟩

/-- The 32-byte encoding of a point. -/
def edEncode (p : EdPoint) : Bytes :=
  let zi := fInv p.z
  let x := p.x * zi % p25519
  let y := p.y * zi % p25519
  leBytes 32 (y + (x % 2) * 2 ^ 255)

/-- The point that 32 bytes encode; none where the encoding is not canonical or names no point. -/
def edDecode (bs : Bytes) : Option EdPoint :=
  let v := leNat bs
  let y := v % 2 ^ 255
  if bs.length ≠ 32 then none else
  (edRecoverX y (v / 2 ^ 255)).map fun x => ⟨x, y, 1, x * y % p25519⟩

/-- Whether two points are the same (the projective comparison). -/
def edSame (p q : EdPoint) : Bool :=
  decide ((p.x * q.z) % p25519 = (q.x * p.z) % p25519) &&
  decide ((p.y * q.z) % p25519 = (q.y * p.z) % p25519)

/-- The clamped secret scalar of a seed digest. -/
def edClamp (h : Bytes) : Nat := (leNat (h.take 32) % 2 ^ 254) / 8 * 8 + 2 ^ 254

/-- The public key of a 32-byte seed. -/
def ed25519Pub (seed : Bytes) : Bytes := edEncode (edMul 256 (edClamp (sha512 seed)) edBase)

/-- The Ed25519 signature of `m` under a 32-byte seed. -/
def ed25519Sign (seed m : Bytes) : Bytes :=
  let h := sha512 seed
  let a := edClamp h
  let pub := edEncode (edMul 256 a edBase)
  let r := leNat (sha512 (h.drop 32 ++ m)) % l25519
  let rEnc := edEncode (edMul 256 r edBase)
  let k := leNat (sha512 (rEnc ++ pub ++ m)) % l25519
  rEnc ++ leBytes 32 ((r + k * a) % l25519)

/-- Ed25519 verification (RFC 8032 5.1.7): canonical S, decodable R and key, and the group equation. -/
def ed25519Verify (pub m sig : Bytes) : Bool :=
  let s := leNat (sig.drop 32)
  if sig.length ≠ 64 ∨ s ≥ l25519 then false else
  match edDecode (sig.take 32), edDecode pub with
  | some r, some a =>
    let k := leNat (sha512 (sig.take 32 ++ pub ++ m)) % l25519
    edSame (edMul 4 8 (edMul 256 s edBase)) (edMul 4 8 (edAdd r (edMul 256 k a)))
  | _, _ => false

/-- One step of the Montgomery ladder: `k` holds the scalar bits still to read, highest last. -/
def x25519Step (u : Nat) (s : Nat × Nat × Nat × Nat) (bitSet : Bool) : Nat × Nat × Nat × Nat :=
  let (x2, z2, x3, z3) := if bitSet then (s.2.2.1, s.2.2.2, s.1, s.2.1) else s
  let a := (x2 + z2) % p25519
  let aa := a * a % p25519
  let b := fSub x2 z2
  let bb := b * b % p25519
  let e := fSub aa bb
  let da := fSub x3 z3 * a % p25519
  let cb := (x3 + z3) * b % p25519
  let x3' := (da + cb) * (da + cb) % p25519
  let d := fSub da cb
  let r := (aa * bb % p25519, e * (aa + 121665 * e) % p25519, x3', u * (d * d % p25519) % p25519)
  if bitSet then (r.2.2.1, r.2.2.2, r.1, r.2.1) else r

/-- X25519 (RFC 7748): the shared secret of a 32-byte private key and a peer's 32-byte public key. -/
def x25519 (k u : Bytes) : Bytes :=
  let s := (leNat k % 2 ^ 254) / 8 * 8 + 2 ^ 254
  let u := (leNat u % 2 ^ 255) % p25519
  let r := (List.range 255).foldl (fun st i => x25519Step u st (decide ((s / 2 ^ (254 - i)) % 2 = 1)))
    (1, 0, u, 1)
  leBytes 32 (r.1 * fInv r.2.1 % p25519)

/-- The X25519 public key of a private key. -/
def x25519Pub (k : Bytes) : Bytes := x25519 k (9 :: zeros 31)

end Sys2Proof
end

