-- ==== Sys2Proof/Machine/RegRows.lean ====
section
/-! DEFINITION. Machine/RegRows.lean: the register tables of the spec, row by row: for every register its place in its
page, which of its bits have which access code of R16, and its reset value.  Bits in no mask are reserved
(R15).  A status register whose reset value the spec gives as "computed", "sampled", "from fuses" or
"loaded" has 0 here: it is read from the state it shows (Machine/Views.lean). -/
namespace Sys2Proof

/-- One row of a register table: `count` registers (`stride` bytes apart, from page offset `base`), the bits of each
access code, and the reset value. -/
structure RegRow where
  name : String
  base : Nat
  stride : Nat
  count : Nat
  ro : Word := 0
  rw : Word := 0
  rwl : Word := 0
  rwo : Word := 0
  w1c : Word := 0
  w1s : Word := 0
  wo : Word := 0
  reset : Word := 0
  deriving DecidableEq, Repr

/-- Whether page offset `off` is a register of the row. -/
def RegRow.has (r : RegRow) (off : Nat) : Bool :=
  decide (r.base ≤ off) && decide (off < r.base + max (r.stride * r.count) 4) &&
  decide ((off - r.base) % max r.stride 4 = 0)

/-- The registers of the capability page (R77, R79). -/
def rowsCap : List RegRow := [
  { name := "BOOT_CAP_PART", base := 0x040, stride := 0, count := 1, ro := 0x00FFFFFF },
  { name := "BOOT_CAP_UNITS", base := 0x044, stride := 0, count := 1, ro := 0x7FF37F1F },
  { name := "BOOT_CAP_VST", base := 0x048, stride := 0, count := 1, ro := 0xFFFFFFFF },
  { name := "BOOT_CAP_FIXED0", base := 0x04C, stride := 0, count := 1, ro := 0x3FFFFFFF, reset := 0x20100400 },
  { name := "BOOT_CAP_FIXED1", base := 0x050, stride := 0, count := 1, ro := 0x3FFFFFFF, reset := 0x20410400 },
  { name := "BOOT_BERR_STATUS", base := 0x080, stride := 0, count := 1, ro := 0xFFFF0F1F },
  { name := "BOOT_BERR_CTRL", base := 0x084, stride := 0, count := 1, wo := 0x00000001 },
  { name := "BOOT_BERRe_ADDR", base := 0x100, stride := 16, count := 16, ro := 0x00FFFFFF },
  { name := "BOOT_BERRe_ATTR", base := 0x104, stride := 16, count := 16, ro := 0x0000FFFF },
  { name := "BOOT_BERRe_DATA", base := 0x108, stride := 16, count := 16, ro := 0xFFFFFFFF },
  { name := "BOOT_BERRe_TIME", base := 0x10C, stride := 16, count := 16, ro := 0xFFFFFFFF }]

/-- The registers of the ROM interface page (R273, R300), part 1. -/
def rowsRom0 : List RegRow := [
  { name := "BOOT_RST_CAUSE", base := 0x040, stride := 0, count := 1, ro := 0x00FFFF0F },
  { name := "BOOT_RST_REQ", base := 0x044, stride := 0, count := 1, wo := 0xFFFF0F0F },
  { name := "BOOT_ROM_STATUS", base := 0x048, stride := 0, count := 1, ro := 0xFFFF00FF, reset := 0x0000003C },
  { name := "BOOT_LC_STATE", base := 0x04C, stride := 0, count := 1, ro := 0x00001FFF },
  { name := "BOOT_STRAPS", base := 0x050, stride := 0, count := 1, ro := 0x00003FFF },
  { name := "BOOT_DBG_LOCK", base := 0x054, stride := 0, count := 1, rwo := 0x0000000F, ro := 0x80000000 },
  { name := "BOOT_CORE_RELEASE", base := 0x058, stride := 0, count := 1, w1s := 0x00000007, ro := 0xFFFF0700 },
  { name := "BOOT_LC_CMD", base := 0x05C, stride := 0, count := 1, wo := 0xFFFF0001 },
  { name := "BOOT_LC_STATUS", base := 0x060, stride := 0, count := 1, ro := 0x0073FFFF },
  { name := "BOOT_TOKEN_STATUS", base := 0x064, stride := 0, count := 1, ro := 0x003FFFFF },
  { name := "BOOT_DILLq_LEN", base := 0x068, stride := 4, count := 3, rw := 0x0003FFFF },
  { name := "BOOT_NONCEw", base := 0x080, stride := 4, count := 8, ro := 0xFFFFFFFF },
  { name := "BOOT_LCREQw", base := 0x400, stride := 4, count := 128, rw := 0xFFFFFFFF },
  { name := "BOOT_DILLqDIGw", base := 0x600, stride := 4, count := 48, rwo := 0xFFFFFFFF },
  { name := "BOOT_FW_STATUS", base := 0x100, stride := 0, count := 1, ro := 0x00FF0FFF },
  { name := "BOOT_FW_RESULT", base := 0x104, stride := 0, count := 1, ro := 0x0007FFFF },
  { name := "BOOT_FW_VER_LO", base := 0x108, stride := 0, count := 1, ro := 0xFFFFFFFF },
  { name := "BOOT_FW_VER_HI", base := 0x10C, stride := 0, count := 1, ro := 0xFFFFFFFF },
  { name := "BOOT_HWIF_VERSION", base := 0x110, stride := 0, count := 1, ro := 0xFFFFFFFF, reset := 0x00010000 },
  { name := "BOOT_HEALTH_CONFIRM", base := 0x114, stride := 0, count := 1, wo := 0xFFFF0001 },
  { name := "BOOT_PUSH_STATUS", base := 0x118, stride := 0, count := 1, ro := 0xFFFF001F },
  { name := "BOOT_PUSH_LEN", base := 0x11C, stride := 0, count := 1, ro := 0x007FFFFF },
  { name := "BOOT_BF_ADDR", base := 0x120, stride := 0, count := 1, rw := 0xFFFFFFFF },
  { name := "BOOT_BF_BUF", base := 0x124, stride := 0, count := 1, rw := 0xFFFFFFFC }]

/-- The registers of the ROM interface page (R273, R300), part 2. -/
def rowsRom1 : List RegRow := [
  { name := "BOOT_BF_CMD", base := 0x128, stride := 0, count := 1, wo := 0x1FFF000F },
  { name := "BOOT_BF_STATUS", base := 0x12C, stride := 0, count := 1, ro := 0xFFFF0001 },
  { name := "BOOT_BF_ID", base := 0x130, stride := 0, count := 1, ro := 0x01FFFFFF },
  { name := "BOOT_STG_STATUS", base := 0x134, stride := 0, count := 1, ro := 0xFFFF0FFF },
  { name := "BOOT_BUNDLE_IDw", base := 0x140, stride := 4, count := 4, ro := 0xFFFFFFFF }]

/-- The registers of the ROM interface page (R273, R300). -/
def rowsRom : List RegRow := rowsRom0 ++ rowsRom1

/-- The registers of the timebase page (R59). -/
def rowsTb : List RegRow := [
  { name := "TB_STATUS", base := 0x040, stride := 0, count := 1, ro := 0xFFFF0007, reset := 0x00000001 },
  { name := "TB_TIME_LO", base := 0x044, stride := 0, count := 1, ro := 0xFFFFFFFF },
  { name := "TB_TIME_HI", base := 0x048, stride := 0, count := 1, ro := 0xFFFFFFFF },
  { name := "TB_LAST_LOSS", base := 0x04C, stride := 0, count := 1, ro := 0xFFFFFFFF },
  { name := "TB_DLYMON_SEL", base := 0x050, stride := 0, count := 1, rw := 0x0000037F, wo := 0x80000000 },
  { name := "TB_DLYMON_RESULT", base := 0x054, stride := 0, count := 1, ro := 0xC00FFFFF }]

/-- The registers of the power page (R488). -/
def rowsPwr : List RegRow := [
  { name := "PWR_STATUS", base := 0x040, stride := 0, count := 1, ro := 0xFFFF0707 },
  { name := "PWR_DOMAIN_EN", base := 0x044, stride := 0, count := 1, rw := 0x3FFFFFFF, reset := 0x3FFFFFFF },
  { name := "PWR_DOMAIN_STATUS", base := 0x048, stride := 0, count := 1, ro := 0x3FFFFFFF },
  { name := "PWR_REST_CMD", base := 0x04C, stride := 0, count := 1, wo := 0xFFFF0003 },
  { name := "PWR_WAKE_TIMER", base := 0x050, stride := 0, count := 1, rw := 0xFFFFFFFF },
  { name := "PWR_REST_COUNT", base := 0x054, stride := 0, count := 1, ro := 0xFFFFFFFF },
  { name := "PWR_REST_TIME", base := 0x058, stride := 0, count := 1, ro := 0xFFFFFFFF },
  { name := "PWR_POR_INFO", base := 0x05C, stride := 0, count := 1, ro := 0x000001FF }]

/-- The registers of the hub page (R470). -/
def rowsEvh : List RegRow := [
  { name := "EVH_CFG", base := 0x040, stride := 0, count := 1, rwl := 0x0000FFFF, reset := 0x00000064 },
  { name := "EVH_STATUS", base := 0x044, stride := 0, count := 1, ro := 0xFFFF03FF },
  { name := "EVH_PREQ_STATUS", base := 0x048, stride := 0, count := 1, w1c := 0xFFFFFFFF },
  { name := "EVH_COREq_THRESH", base := 0x060, stride := 16, count := 4, rw := 0x00000007 },
  { name := "EVH_COREq_CLAIM", base := 0x064, stride := 16, count := 4, ro := 0x80001FFF },
  { name := "EVH_COREq_COUNT", base := 0x068, stride := 16, count := 4, ro := 0xFFFFFFFF },
  { name := "EVH_ACTIVEw", base := 0x0A0, stride := 4, count := 18, ro := 0xFFFFFFFF }]

/-- The registers of a routing page (R471). -/
def rowsEvhRoute : List RegRow := [
  { name := "EVH_ROUTEs", base := 0x100, stride := 4, count := 192, rwl := 0x0000FF7F }]

/-- The registers of the boot watchdog page (R345). -/
def rowsBwd : List RegRow := [
  { name := "BWD_STATUS", base := 0x040, stride := 0, count := 1, ro := 0x000001FF, reset := 0x0000000F },
  { name := "BWD_REMAIN", base := 0x044, stride := 0, count := 1, ro := 0xFFFFFFFF, reset := 0x000F4240 },
  { name := "BWD_KICK", base := 0x048, stride := 0, count := 1, wo := 0xFFFF0001 },
  { name := "BWD_PERIOD", base := 0x04C, stride := 0, count := 1, rw := 0x003FFFFF, reset := 0x00002710 },
  { name := "BWD_HANDOVER", base := 0x050, stride := 0, count := 1, wo := 0xFFFF0003 },
  { name := "BWD_LAST", base := 0x054, stride := 0, count := 1, ro := 0x8000FFFF }]

/-- The registers of the task watchdog page (R353). -/
def rowsTwd : List RegRow := [
  { name := "TWD_STATUS", base := 0x040, stride := 0, count := 1, ro := 0x000001FF, reset := 0x00000099 },
  { name := "TWD_CFG", base := 0x044, stride := 0, count := 1, rwl := 0xFFFF0001, reset := 0x000A0000 },
  { name := "TWD_PERIOD", base := 0x048, stride := 0, count := 1, rwl := 0x00FFFFFF, reset := 0x000F4240 },
  { name := "TWD_ARM", base := 0x04C, stride := 0, count := 1, w1s := 0xFFFFFFFF },
  { name := "TWD_CHECKIN", base := 0x050, stride := 0, count := 1, wo := 0xFFFF001F },
  { name := "TWD_SEEN", base := 0x054, stride := 0, count := 1, ro := 0xFFFFFFFF },
  { name := "TWD_DUP", base := 0x058, stride := 0, count := 1, w1c := 0xFFFFFFFF },
  { name := "TWD_MISSED", base := 0x05C, stride := 0, count := 1, ro := 0xFFFFFFFF },
  { name := "TWD_FOREIGN", base := 0x060, stride := 0, count := 1, ro := 0xFF01FF1F },
  { name := "TWD_PERIOD_COUNT", base := 0x064, stride := 0, count := 1, ro := 0xFFFFFFFF },
  { name := "TWD_LAST_BITE", base := 0x068, stride := 0, count := 1, ro := 0xFFFFFFFF },
  { name := "TWD_SLOTk_CFG", base := 0x080, stride := 4, count := 32, rwl := 0x000000FF }]

/-- The registers of the tamper monitor page (R340), part 1. -/
def rowsTem0 : List RegRow := [
  { name := "TEM_STATUS", base := 0x040, stride := 0, count := 1, ro := 0xFFFF0FFF },
  { name := "TEM_CFG", base := 0x044, stride := 0, count := 1, rwl := 0x00003F01, reset := 0x00000A00 },
  { name := "TEM_CASE_CFG", base := 0x048, stride := 0, count := 1, rwl := 0x000000FF },
  { name := "TEM_LOCK_INFO", base := 0x04C, stride := 0, count := 1, ro := 0x8003FFFF },
  { name := "TEM_ACK", base := 0x050, stride := 0, count := 1, ro := 0x000003FF },
  { name := "TEM_LAST_ALARM", base := 0x054, stride := 0, count := 1, ro := 0x8003FFFF },
  { name := "TEM_TOKEN_LOAD", base := 0x058, stride := 0, count := 1, wo := 0xFFFF0001 },
  { name := "TEM_CLASS0_NM", base := 0x060, stride := 0, count := 1, rwl := 0x00FFFFFF, reset := 0x000000A3 },
  { name := "TEM_CLASS1_NM", base := 0x064, stride := 0, count := 1, rwl := 0x00FFFFFF, reset := 0x00003E88 },
  { name := "TEM_CLASS2_NM", base := 0x068, stride := 0, count := 1, rwl := 0x00FFFFFF, reset := 0x00000642 },
  { name := "TEM_CLASS3_NM", base := 0x06C, stride := 0, count := 1, ro := 0x00FFFFFF, reset := 0x00000011 },
  { name := "TEM_CLASS4_NM", base := 0x070, stride := 0, count := 1, rwl := 0x00FFFFFF, reset := 0x00000011 },
  { name := "TEM_CLASS5_NM", base := 0x074, stride := 0, count := 1, ro := 0x00FFFFFF, reset := 0x00000011 },
  { name := "TEM_CLASS6_NM", base := 0x078, stride := 0, count := 1, ro := 0x00FFFFFF, reset := 0x00000011 },
  { name := "TEM_LIM0", base := 0x080, stride := 0, count := 1, rwl := 0x3FFF3FFF, reset := 0x0D200A50 },
  { name := "TEM_LIM1", base := 0x084, stride := 0, count := 1, rwl := 0x3FFF3FFF, reset := 0x0ED80BB8 },
  { name := "TEM_LIM2", base := 0x088, stride := 0, count := 1, rwl := 0x3FFF3FFF, reset := 0x0ED80BB8 },
  { name := "TEM_LIM3", base := 0x08C, stride := 0, count := 1, rwl := 0x3FFF3FFF, reset := 0x1EF01950 },
  { name := "TEM_LIM4", base := 0x090, stride := 0, count := 1, rwl := 0x3FFF3FFF, reset := 0x38B81950 },
  { name := "TEM_LIM5", base := 0x094, stride := 0, count := 1, rwl := 0x3FFF3FFF, reset := 0x1EF01950 },
  { name := "TEM_LIM6", base := 0x098, stride := 0, count := 1, rwl := 0x3FFF3FFF, reset := 0x1EF01950 },
  { name := "TEM_LIM7", base := 0x09C, stride := 0, count := 1, rwl := 0x3FFF3FFF, reset := 0x2E0004C0 },
  { name := "TEM_LIM8", base := 0x0A0, stride := 0, count := 1, rwl := 0x3FFF3FFF, reset := 0x2E0004C0 },
  { name := "TEM_LIM9", base := 0x0A4, stride := 0, count := 1, rwl := 0x3FFF3FFF, reset := 0x2E0004C0 }]

/-- The registers of the tamper monitor page (R340), part 2. -/
def rowsTem1 : List RegRow := [
  { name := "TEM_LIM10", base := 0x0A8, stride := 0, count := 1, rwl := 0x3FFF3FFF, reset := 0x2E0004C0 },
  { name := "TEM_LIM11", base := 0x0AC, stride := 0, count := 1, rwl := 0x3FFF3FFF, reset := 0x3FFF2260 },
  { name := "TEM_SAMPLEs", base := 0x0C0, stride := 4, count := 12, ro := 0x80003FFF }]

/-- The registers of the tamper monitor page (R340). -/
def rowsTem : List RegRow := rowsTem0 ++ rowsTem1

/-- The registers of the fuse page (R316). -/
def rowsFus : List RegRow := [
  { name := "FUS_STATUS", base := 0x040, stride := 0, count := 1, ro := 0x0000000F },
  { name := "FUS_CMD", base := 0x044, stride := 0, count := 1, wo := 0xFFFF7FFF },
  { name := "FUS_WDATA", base := 0x048, stride := 0, count := 1, rw := 0xFFFFFFFF },
  { name := "FUS_RESULT", base := 0x04C, stride := 0, count := 1, ro := 0x000FFFFF },
  { name := "FUS_RDATA", base := 0x050, stride := 0, count := 1, ro := 0xFFFFFFFF },
  { name := "FUS_RDATA_STRICT", base := 0x054, stride := 0, count := 1, ro := 0xFFFFFFFF },
  { name := "FUS_LOCKS", base := 0x058, stride := 0, count := 1, ro := 0xFFFFFFFF },
  { name := "FUS_BROKEN", base := 0x05C, stride := 0, count := 1, ro := 0xFFFFFFFF },
  { name := "FUS_MARGIN", base := 0x060, stride := 0, count := 1, ro := 0xFFFFFFFF },
  { name := "FUS_TAMPER", base := 0x064, stride := 0, count := 1, ro := 0x000003FF }]

/-- The registers of the counter store page (R325). -/
def rowsCst : List RegRow := [
  { name := "CST_STATUS", base := 0x040, stride := 0, count := 1, ro := 0x00FFFF01 },
  { name := "CST_COREq_CMD", base := 0x080, stride := 16, count := 4, wo := 0x0000FF03 },
  { name := "CST_COREq_ARG_LO", base := 0x084, stride := 16, count := 4, rw := 0xFFFFFFFF },
  { name := "CST_COREq_ARG_HI", base := 0x088, stride := 16, count := 4, rw := 0xFFFFFFFF },
  { name := "CST_COREq_RESULT", base := 0x08C, stride := 16, count := 4, ro := 0x0003FFFF },
  { name := "CST_OWNERc", base := 0x400, stride := 4, count := 256, rw := 0x00007F03, ro := 0xC0000000 },
  { name := "CST_VALc_LO", base := 0x800, stride := 8, count := 256, ro := 0xFFFFFFFF },
  { name := "CST_VALc_HI", base := 0x804, stride := 8, count := 256, ro := 0xFFFFFFFF }]

/-- The registers of the vault control page (R248). -/
def rowsKv : List RegRow := [
  { name := "KV_STATUS", base := 0x040, stride := 0, count := 1, ro := 0x000F03FF },
  { name := "KV_LIFE", base := 0x044, stride := 0, count := 1, ro := 0x0000003F },
  { name := "KV_SLOT_SEL", base := 0x048, stride := 0, count := 1, rw := 0x000001FF },
  { name := "KV_SLOT_LINK", base := 0x04C, stride := 0, count := 1, ro := 0x00003FFF },
  { name := "KV_SLOT_GEN", base := 0x050, stride := 0, count := 1, ro := 0xFFFFFFFF },
  { name := "KV_SLOT_PGEN", base := 0x054, stride := 0, count := 1, ro := 0xFFFFFFFF },
  { name := "KV_ORPHANS", base := 0x058, stride := 0, count := 1, ro := 0xFFFFFFFF },
  { name := "KV_SCRUB", base := 0x05C, stride := 0, count := 1, ro := 0xFFFFFFFF }]

/-- The registers of the slot-status page (R249). -/
def rowsKvSlot : List RegRow := [
  { name := "KV_SLOTs_INFO", base := 0x800, stride := 4, count := 512, ro := 0x003FFFFF }]

/-- The registers of the attestation page (R249). -/
def rowsAtu : List RegRow := [
  { name := "ATU_STATUS", base := 0x040, stride := 0, count := 1, ro := 0xFFFF000F },
  { name := "ATU_MSEL", base := 0x044, stride := 0, count := 1, rw := 0x000000FF },
  { name := "ATU_MCOUNT", base := 0x048, stride := 0, count := 1, ro := 0xFFFFFFFF },
  { name := "ATU_CERT_LEN", base := 0x04C, stride := 0, count := 1, ro := 0x07FF07FF },
  { name := "ATU_MVALUEw", base := 0x080, stride := 4, count := 16, ro := 0xFFFFFFFF },
  { name := "ATU_FW_DIGESTw", base := 0x0C0, stride := 4, count := 16, ro := 0xFFFFFFFF },
  { name := "ATU_POLICYw", base := 0x100, stride := 4, count := 16, ro := 0xFFFFFFFF },
  { name := "ATU_DEVID_PUBw", base := 0x140, stride := 4, count := 8, ro := 0xFFFFFFFF },
  { name := "ATU_ALIAS_PUBw", base := 0x160, stride := 4, count := 8, ro := 0xFFFFFFFF },
  { name := "ATU_DEVID_CERT", base := 0x400, stride := 4, count := 256, ro := 0xFFFFFFFF },
  { name := "ATU_ALIAS_CERT", base := 0x800, stride := 4, count := 256, ro := 0xFFFFFFFF }]

/-- The registers of the service port page (R374). -/
def rowsSvc : List RegRow := [
  { name := "SVC_STATUS", base := 0x040, stride := 0, count := 1, ro := 0x0000000F },
  { name := "SVC_CTRL", base := 0x044, stride := 0, count := 1, rw := 0x00000003 },
  { name := "SVC_BAUD", base := 0x048, stride := 0, count := 1, ro := 0x0000FFFF, reset := 0x00003641 },
  { name := "SVC_COUNTS", base := 0x04C, stride := 0, count := 1, ro := 0xFFFFFFFF },
  { name := "SVC_FW_RX_INFO", base := 0x050, stride := 0, count := 1, ro := 0xFFFF01FF },
  { name := "SVC_FW_TX_CTRL", base := 0x054, stride := 0, count := 1, wo := 0xFFFF01FF },
  { name := "SVC_FW_RXk", base := 0x100, stride := 4, count := 64, ro := 0xFFFFFFFF },
  { name := "SVC_FW_TXk", base := 0x200, stride := 4, count := 64, rw := 0xFFFFFFFF }]

/-- The registers of the I3C page (R367). -/
def rowsI3c : List RegRow := [
  { name := "I3C_CTRL", base := 0x040, stride := 0, count := 1, rw := 0x00000001 },
  { name := "I3C_STATUS", base := 0x044, stride := 0, count := 1, ro := 0x07FFFFFF, reset := 0x01148B00 },
  { name := "I3C_RX_STATUS", base := 0x048, stride := 0, count := 1, ro := 0xFFFF1FF7 },
  { name := "I3C_RX_POP", base := 0x04C, stride := 0, count := 1, wo := 0x00000001 },
  { name := "I3C_TX_CTRL", base := 0x050, stride := 0, count := 1, wo := 0x000301FF },
  { name := "I3C_TX_STATUS", base := 0x054, stride := 0, count := 1, ro := 0xFFFF0003 },
  { name := "I3C_CFG", base := 0x058, stride := 0, count := 1, rwl := 0x0000FFFF },
  { name := "I3C_ERRS", base := 0x05C, stride := 0, count := 1, ro := 0x0000FFFF },
  { name := "I3C_RXw", base := 0x100, stride := 4, count := 64, ro := 0xFFFFFFFF },
  { name := "I3C_TXw", base := 0x200, stride := 4, count := 64, rw := 0xFFFFFFFF }]

/-- The registers of the PCIe page (R364). -/
def rowsPci : List RegRow := [
  { name := "PCI_LINK", base := 0x040, stride := 0, count := 1, ro := 0xFFFF03FF },
  { name := "PCI_FUNC", base := 0x044, stride := 0, count := 1, ro := 0x00003FFF },
  { name := "PCI_VF_ATS_LO", base := 0x048, stride := 0, count := 1, ro := 0xFFFFFFFF },
  { name := "PCI_VF_ATS_HI", base := 0x04C, stride := 0, count := 1, ro := 0xFFFFFFFF },
  { name := "PCI_RESETS", base := 0x050, stride := 0, count := 1, ro := 0xFFFFFFFF },
  { name := "PCI_ERRS", base := 0x054, stride := 0, count := 1, ro := 0xFFFFFFFF },
  { name := "PCI_PUSH", base := 0x058, stride := 0, count := 1, ro := 0x0000FFFF },
  { name := "PCI_CFG", base := 0x05C, stride := 0, count := 1, rwl := 0x000000FF, reset := 0x00000080 }]

/-- The registers of the pairing page (R458), part 1. -/
def rowsPair0 : List RegRow := [
  { name := "PAIR_STATUS", base := 0x040, stride := 0, count := 1, ro := 0x003F3FFF, reset := 0x00000033 },
  { name := "PAIR_CFG", base := 0x044, stride := 0, count := 1, rwl := 0xFFFFFFFF, reset := 0x640A4000 },
  { name := "PAIR_CLAIM", base := 0x048, stride := 0, count := 1, ro := 0x00FFFFFF },
  { name := "PAIR_PEER", base := 0x04C, stride := 0, count := 1, ro := 0x00FFFFFF },
  { name := "PAIR_LEASE", base := 0x050, stride := 0, count := 1, ro := 0xFFFFFFFF },
  { name := "PAIR_HOLDOFF", base := 0x054, stride := 0, count := 1, ro := 0xFFFFFFFF },
  { name := "PAIR_REQ_CMD", base := 0x058, stride := 0, count := 1, wo := 0xFFFF0003 },
  { name := "PAIR_REQ_STATUS", base := 0x05C, stride := 0, count := 1, ro := 0x001FFFFF },
  { name := "PAIR_REQ_NONCEw", base := 0x060, stride := 4, count := 4, ro := 0xFFFFFFFF },
  { name := "PAIR_REQ_TIME_LO", base := 0x070, stride := 0, count := 1, ro := 0xFFFFFFFF },
  { name := "PAIR_REQ_TIME_HI", base := 0x074, stride := 0, count := 1, ro := 0xFFFFFFFF },
  { name := "PAIR_WARM", base := 0x078, stride := 0, count := 1, wo := 0xFFFFFFFF },
  { name := "PAIR_LINK", base := 0x07C, stride := 0, count := 1, ro := 0xFFFFFFFF },
  { name := "PAIR_ARB_KEYw", base := 0x080, stride := 4, count := 8, rwl := 0xFFFFFFFF },
  { name := "PAIR_GRANTw", base := 0x0A0, stride := 4, count := 36, rw := 0xFFFFFFFF },
  { name := "PAIR_GRANT_GO", base := 0x130, stride := 0, count := 1, wo := 0xFFFF0001 },
  { name := "PAIR_MTX_CTRL", base := 0x134, stride := 0, count := 1, wo := 0x8001FFFF },
  { name := "PAIR_MTX_STATUS", base := 0x138, stride := 0, count := 1, ro := 0xFFFF0001 },
  { name := "PAIR_MRX_STATUS", base := 0x13C, stride := 0, count := 1, ro := 0x01FFFF0F },
  { name := "PAIR_MRX_POP", base := 0x140, stride := 0, count := 1, wo := 0x00000001 },
  { name := "PAIR_HEALTH_CTRL", base := 0x144, stride := 0, count := 1, wo := 0x00000001 },
  { name := "PAIR_WIN_STATUS", base := 0x148, stride := 0, count := 1, ro := 0x01FF3F07 },
  { name := "PAIR_WIN_POP", base := 0x14C, stride := 0, count := 1, wo := 0x00000001 },
  { name := "PAIR_WOUT_CTRL", base := 0x150, stride := 0, count := 1, wo := 0x8000003F }]

/-- The registers of the pairing page (R458), part 2. -/
def rowsPair1 : List RegRow := [
  { name := "PAIR_WOUT_STATUS", base := 0x154, stride := 0, count := 1, ro := 0xFFFF0001 },
  { name := "PAIR_HEALTH_FWw", base := 0x180, stride := 4, count := 8, rw := 0xFFFFFFFF },
  { name := "PAIR_WBEATs", base := 0x1C0, stride := 4, count := 16, ro := 0xFFFFFF7F },
  { name := "PAIR_MTXw", base := 0x200, stride := 4, count := 64, rw := 0xFFFFFFFF },
  { name := "PAIR_MRXw", base := 0x300, stride := 4, count := 64, ro := 0xFFFFFFFF },
  { name := "PAIR_HEALTH_LASTw", base := 0x400, stride := 4, count := 64, ro := 0xFFFFFFFF },
  { name := "PAIR_WINw", base := 0x500, stride := 4, count := 66, ro := 0xFFFFFFFF },
  { name := "PAIR_WOUTw", base := 0x700, stride := 4, count := 36, rw := 0xFFFFFFFF }]

/-- The registers of the pairing page (R458). -/
def rowsPair : List RegRow := rowsPair0 ++ rowsPair1

/-- The registers of a Lomes page; offsets from 0x080 exist in page 0 only (R428, R429). -/
def rowsLms : List RegRow := [
  { name := "LMS_LINK_STATUS", base := 0x040, stride := 0, count := 1, ro := 0xFFFF07F7 },
  { name := "LMS_LINK_CFG", base := 0x044, stride := 0, count := 1, rwl := 0x00000007, reset := 0x00000001 },
  { name := "LMS_LINK_ERRS", base := 0x048, stride := 0, count := 1, ro := 0xFFFFFFFF },
  { name := "LMS_LINK_RX", base := 0x04C, stride := 0, count := 1, ro := 0xFFFFFFFF },
  { name := "LMS_LINK_LAST", base := 0x050, stride := 0, count := 1, ro := 0xFFFFFFFF },
  { name := "LMS_RING_STATUS", base := 0x080, stride := 0, count := 1, ro := 0xFFFF7F3F },
  { name := "LMS_RING_CFG", base := 0x084, stride := 0, count := 1, rwl := 0x003F3FFF, reset := 0x00003614 },
  { name := "LMS_INCARN", base := 0x088, stride := 0, count := 1, ro := 0x0000FFFF },
  { name := "LMS_RA_STATUS", base := 0x08C, stride := 0, count := 1, ro := 0xFFFF00FF },
  { name := "LMS_EVQ_STATUS", base := 0x090, stride := 0, count := 1, ro := 0xFFFF007F },
  { name := "LMS_EVQ_HEAD", base := 0x094, stride := 0, count := 1, ro := 0x0000FFFF },
  { name := "LMS_EVQ_DATA", base := 0x098, stride := 0, count := 1, ro := 0xFFFFFFFF },
  { name := "LMS_EVQ_POP", base := 0x09C, stride := 0, count := 1, wo := 0x00000001 },
  { name := "LMS_RAw_SEL", base := 0x0A0, stride := 4, count := 4, rw := 0x00000FBF },
  { name := "LMS_TOPO", base := 0x0B0, stride := 0, count := 1, ro := 0x0000FF7F },
  { name := "LMS_BULKc_HADDR_LO", base := 0x0C0, stride := 32, count := 4, rw := 0xFFFFFFC0 },
  { name := "LMS_BULKc_HADDR_HI", base := 0x0C4, stride := 32, count := 4, rw := 0xFFFFFFFF },
  { name := "LMS_BULKc_OFFSET", base := 0x0C8, stride := 32, count := 4, rw := 0x00FFFFFF },
  { name := "LMS_BULKc_LEN", base := 0x0CC, stride := 32, count := 4, rw := 0x007FFFFF },
  { name := "LMS_BULKc_CTRL", base := 0x0D0, stride := 32, count := 4, wo := 0xFFFF7F07 },
  { name := "LMS_BULKc_STATUS", base := 0x0D4, stride := 32, count := 4, ro := 0xFFFFFF03 },
  { name := "LMS_BULKc_DONE", base := 0x0D8, stride := 32, count := 4, ro := 0x007FFFFF },
  { name := "LMS_NODEn_INFO", base := 0x200, stride := 4, count := 64, ro := 0x7FFF7FFF },
  { name := "LMS_ORDERw", base := 0x300, stride := 4, count := 16, ro := 0xFFFFFFFF, reset := 0xFFFFFFFF }]

/-- The registers of the scheduler page (R217). -/
def rowsCje : List RegRow := [
  { name := "CJE_CFG", base := 0x040, stride := 0, count := 1, rwl := 0x00FFFFFF, reset := 0x00000040 },
  { name := "CJE_STATUS", base := 0x044, stride := 0, count := 1, ro := 0x007F07FF, reset := 0x00400000 },
  { name := "CJE_TAG_CFG", base := 0x048, stride := 0, count := 1, rwl := 0x07FF07FF, reset := 0x00800040 },
  { name := "CJE_ARB", base := 0x04C, stride := 0, count := 1, rwl := 0x0000000F, reset := 0x00000001 },
  { name := "CJE_KAT_PASS", base := 0x050, stride := 0, count := 1, ro := 0xFFFFFFFF },
  { name := "CJE_KAT_FAIL", base := 0x054, stride := 0, count := 1, ro := 0xFFFFFFFF },
  { name := "CJE_TAG_SEL", base := 0x058, stride := 0, count := 1, rw := 0x000003FF },
  { name := "CJE_TAG_INFO", base := 0x05C, stride := 0, count := 1, ro := 0x01FFFFFF },
  { name := "CJE_TAG_POS", base := 0x060, stride := 0, count := 1, ro := 0xFFFFFFFF },
  { name := "CJE_COREq_SQ_BASE", base := 0x080, stride := 32, count := 4, rw := 0xFFFFFFC0 },
  { name := "CJE_COREq_CQ_BASE", base := 0x084, stride := 32, count := 4, rw := 0xFFFFFFE0 },
  { name := "CJE_COREq_CTX_BASE", base := 0x088, stride := 32, count := 4, rw := 0xFFFFFF00 },
  { name := "CJE_COREq_CFG", base := 0x08C, stride := 32, count := 4, rw := 0x000001FF },
  { name := "CJE_COREq_SQ_TAIL", base := 0x090, stride := 32, count := 4, rw := 0x00000FFF },
  { name := "CJE_COREq_CQ_HEAD", base := 0x094, stride := 32, count := 4, rw := 0x00000FFF },
  { name := "CJE_COREq_SQ_HEAD", base := 0x098, stride := 32, count := 4, ro := 0x00000FFF },
  { name := "CJE_COREq_CQ_TAIL", base := 0x09C, stride := 32, count := 4, ro := 0x00000FFF }]

/-- The registers of the translation unit page (R402). -/
def rowsItu : List RegRow := [
  { name := "ITU_CFG", base := 0x040, stride := 0, count := 1, rwl := 0x01FF0003, reset := 0x01000003 },
  { name := "ITU_STATUS", base := 0x044, stride := 0, count := 1, ro := 0x000001FF },
  { name := "ITU_WALKS", base := 0x048, stride := 0, count := 1, ro := 0xFFFFFFFF },
  { name := "ITU_HITS", base := 0x04C, stride := 0, count := 1, ro := 0xFFFFFFFF },
  { name := "ITU_ERRS", base := 0x050, stride := 0, count := 1, ro := 0xFFFFFFFF }]

/-- The registers of the store control page (R163). -/
def rowsVst : List RegRow := [
  { name := "VST_CFG", base := 0x040, stride := 0, count := 1, rwl := 0x000FFFF1, reset := 0x00000641 },
  { name := "VST_STATUS", base := 0x044, stride := 0, count := 1, ro := 0xFFFFFFFF },
  { name := "VST_ECC_CORR", base := 0x048, stride := 0, count := 1, ro := 0xFFFFFFFF },
  { name := "VST_ECC_UNCORR", base := 0x04C, stride := 0, count := 1, ro := 0xFFFFFFFF },
  { name := "VST_ECC_LAST", base := 0x050, stride := 0, count := 1, ro := 0x87FFFFFF },
  { name := "VST_FRAME_SEL", base := 0x054, stride := 0, count := 1, rw := 0x00007FFF },
  { name := "VST_FRAME_INFO", base := 0x058, stride := 0, count := 1, ro := 0x3FFFFFFF },
  { name := "VST_DIAG_ADDR", base := 0x05C, stride := 0, count := 1, rw := 0x00000FFC },
  { name := "VST_DIAG_DATA", base := 0x060, stride := 0, count := 1, ro := 0xFFFFFFFF }]

/-- The registers of the digest unit page (R165). -/
def rowsDu : List RegRow := [
  { name := "DU_STATUS", base := 0x040, stride := 0, count := 1, ro := 0xFFFFFFFF },
  { name := "DU_ROOT_SEL", base := 0x044, stride := 0, count := 1, rw := 0x0000003F },
  { name := "DU_ROOTw", base := 0x080, stride := 4, count := 16, ro := 0xFFFFFFFF },
  { name := "DU_PORTn_CFG", base := 0x100, stride := 16, count := 16, rwl := 0xFFFF0003 },
  { name := "DU_PORTn_DRANGE", base := 0x104, stride := 16, count := 16, rwl := 0xFFFFFFFF },
  { name := "DU_PORTn_STATUS", base := 0x108, stride := 16, count := 16, ro := 0xFFFFFF0F },
  { name := "DU_PORTn_CACHE", base := 0x10C, stride := 16, count := 16, ro := 0xFFFFFFFF },
  { name := "DU_TREEnk_ADDR", base := 0x200, stride := 8, count := 64, ro := 0xFFFFFFFF },
  { name := "DU_TREEnk_INFO", base := 0x204, stride := 8, count := 64, ro := 0x801FFFFF }]

/-- The registers of a bank page (R164). -/
def rowsVstBank : List RegRow := [
  { name := "VST_BANKk_FRAMES", base := 0x040, stride := 0, count := 1, ro := 0xFFFFFFFF },
  { name := "VST_BANKk_ECC", base := 0x044, stride := 0, count := 1, ro := 0xFFFFFFFF },
  { name := "VST_BANKk_SCRUB", base := 0x048, stride := 0, count := 1, ro := 0xFFFFFFFF }]

/-- The registers of a lane, curve-unit or AES-GCM page (R219). -/
def rowsLane : List RegRow := [
  { name := "CJE_LANEm_STATUS", base := 0x044, stride := 0, count := 1, ro := 0xFFFFFFFF },
  { name := "CJE_LANEm_BLOCKS", base := 0x048, stride := 0, count := 1, ro := 0xFFFFFFFF }]

/-- The registers of a lane page, in addition (R219). -/
def rowsLaneOnly : List RegRow := [
  { name := "CJE_LANEm_CFG", base := 0x040, stride := 0, count := 1, rwl := 0x00000001 },
  { name := "CJE_LANEm_PREEMPT", base := 0x04C, stride := 0, count := 1, ro := 0xFFFFFFFF }]

/-- The registers of a port control page (R104, R130). -/
def rowsFgpCtl : List RegRow := [
  { name := "FGPn_PROTO_CFG", base := 0x040, stride := 0, count := 1, rwl := 0x1F7FFFFF, reset := 0x03321680 },
  { name := "FGPn_PROTO_DUMMY", base := 0x044, stride := 0, count := 1, rwl := 0x3FFFFFFF },
  { name := "FGPn_PROTO_DUMMY_EFF", base := 0x048, stride := 0, count := 1, ro := 0x3FFFFFFF },
  { name := "FGPn_FLASH_CFG", base := 0x04C, stride := 0, count := 1, rwl := 0x00FF4F3F, reset := 0x00004402 },
  { name := "FGPn_FLASH_RDOP", base := 0x050, stride := 0, count := 1, rwl := 0x03FFFFFF, reset := 0x01080B0B },
  { name := "FGPn_FSCK", base := 0x054, stride := 0, count := 1, rwl := 0x0000001F, reset := 0x00000004 },
  { name := "FGPn_ID0", base := 0x058, stride := 0, count := 1, rwl := 0xFFFFFFFF },
  { name := "FGPn_ID1", base := 0x05C, stride := 0, count := 1, rwl := 0x0007FFFF, reset := 0x00030000 },
  { name := "FGPn_SFDP_ERT", base := 0x060, stride := 0, count := 1, rwl := 0xFFFFFFFF },
  { name := "FGPn_SFDP_PGT", base := 0x064, stride := 0, count := 1, rwl := 0xFFFFFFFF, reset := 0x00000080 },
  { name := "FGPn_PIN_STATUS", base := 0x068, stride := 0, count := 1, ro := 0x0000001F },
  { name := "FGPn_PROTO_STATUS", base := 0x06C, stride := 0, count := 1, w1c := 0x000001FF, ro := 0x01FF0000 },
  { name := "FGPn_PROTO_LAST", base := 0x070, stride := 0, count := 1, ro := 0x0007FFFF },
  { name := "FGPn_STATE", base := 0x080, stride := 0, count := 1, ro := 0x0000FFFF, reset := 0x00003C3C },
  { name := "FGPn_CMD", base := 0x084, stride := 0, count := 1, wo := 0x0000000F },
  { name := "FGPn_CMD_STATUS", base := 0x088, stride := 0, count := 1, ro := 0x001FFFFF },
  { name := "FGPn_REL_CFG", base := 0x08C, stride := 0, count := 1, rwl := 0x0FFFFFF1 },
  { name := "FGPn_AB_MAP", base := 0x090, stride := 0, count := 1, rwl := 0xFFFFFFFF },
  { name := "FGPn_AB_CTRL", base := 0x094, stride := 0, count := 1, rwl := 0x0000011F },
  { name := "FGPn_AB_STATUS", base := 0x098, stride := 0, count := 1, ro := 0x0000FF03 },
  { name := "FGPn_FRAME_RANGE", base := 0x09C, stride := 0, count := 1, rwl := 0xFFFFFFFF },
  { name := "FGPn_STATUS", base := 0x0A0, stride := 0, count := 1, w1c := 0x00000007, ro := 0x00000038 },
  { name := "FGPn_QUAR_INFO", base := 0x0A4, stride := 0, count := 1, ro := 0x0000FFFF },
  { name := "FGPn_RECOV_PROGRESS", base := 0x0A8, stride := 0, count := 1, ro := 0xFFFFFFFF }]

/-- The registers of a port window page (R106, R131). -/
def rowsFgpWin : List RegRow := [
  { name := "FGPn_WIN_CHECK", base := 0x040, stride := 0, count := 1, ro := 0x03FFFFFF },
  { name := "FGPn_ARM", base := 0x044, stride := 0, count := 1, rw := 0xFFFFFFFF },
  { name := "FGPn_ARM_MASK", base := 0x048, stride := 0, count := 1, rwl := 0xFFFFFFFF },
  { name := "FGPn_WIN_LATCHED", base := 0x04C, stride := 0, count := 1, ro := 0xFFFFFFFF },
  { name := "FGPn_DENY_COUNT", base := 0x050, stride := 0, count := 1, ro := 0xFFFFFFFF },
  { name := "FGPn_DENY_LAST_ADDR", base := 0x054, stride := 0, count := 1, ro := 0xFFFFFFFF },
  { name := "FGPn_DENY_LAST_INFO", base := 0x058, stride := 0, count := 1, ro := 0x000FFFFF },
  { name := "FGPn_XWIN_COUNT", base := 0x05C, stride := 0, count := 1, ro := 0xFFFFFFFF },
  { name := "FGPn_WINw_BASE", base := 0x100, stride := 16, count := 32, rwl := 0xFFFFF000 },
  { name := "FGPn_WINw_LIMIT", base := 0x104, stride := 16, count := 32, rwl := 0xFFFFF000 },
  { name := "FGPn_WINw_POLICY", base := 0x108, stride := 16, count := 32, rwl := 0xFFFE03F7 },
  { name := "FGPn_WINw_MAP", base := 0x10C, stride := 16, count := 32, rwl := 0x000FFFFF }]

/-- The registers of a port mailbox page (R132). -/
def rowsFgpMb : List RegRow := [
  { name := "FGPn_MB_STATE", base := 0x040, stride := 0, count := 1, ro := 0x1FF3FFFF },
  { name := "FGPn_MB_INFO", base := 0x044, stride := 0, count := 1, ro := 0x00FFFFFF, reset := 0x00010000 },
  { name := "FGPn_MB_DOORBELL", base := 0x048, stride := 0, count := 1, ro := 0xFFFFFFFF },
  { name := "FGPn_MB_RSP_CTRL", base := 0x04C, stride := 0, count := 1, wo := 0x8001FFFF },
  { name := "FGPn_MB_RSP_STATUS", base := 0x050, stride := 0, count := 1, rw := 0x0000FFFF },
  { name := "FGPn_MB_ERRS", base := 0x054, stride := 0, count := 1, ro := 0x0000FFFF },
  { name := "FGPn_MB_REQk", base := 0x100, stride := 4, count := 64, ro := 0xFFFFFFFF },
  { name := "FGPn_MB_RSPk", base := 0x200, stride := 4, count := 64, rw := 0xFFFFFFFF },
  { name := "FGPn_SC_STATUS", base := 0x300, stride := 0, count := 1, ro := 0x0003FFFF },
  { name := "FGPn_SC_CHECKED", base := 0x304, stride := 0, count := 1, ro := 0xFFFFFFFF },
  { name := "FGPn_SC_MISMATCH_ADDR", base := 0x308, stride := 0, count := 1, ro := 0xFFFFFFFF },
  { name := "FGPn_SC_MISMATCH_INFO", base := 0x30C, stride := 0, count := 1, ro := 0x07FFFFFF },
  { name := "FGPn_SC_ECC_ADDR", base := 0x310, stride := 0, count := 1, ro := 0xFFFFFFFF }]

/-- The registers of an instance page; offsets from 0x400 exist in page 0 only (R218, R401), part 1. -/
def rowsInst0 : List RegRow := [
  { name := "CJE_INSTi_SQ_BASE_LO", base := 0x040, stride := 0, count := 1, rw := 0xFFFFFFC0 },
  { name := "CJE_INSTi_SQ_BASE_HI", base := 0x044, stride := 0, count := 1, rw := 0xFFFFFFFF },
  { name := "CJE_INSTi_CQ_BASE_LO", base := 0x048, stride := 0, count := 1, rw := 0xFFFFFFE0 },
  { name := "CJE_INSTi_CQ_BASE_HI", base := 0x04C, stride := 0, count := 1, rw := 0xFFFFFFFF },
  { name := "CJE_INSTi_CTX_BASE_LO", base := 0x050, stride := 0, count := 1, rw := 0xFFFFFF00 },
  { name := "CJE_INSTi_CTX_BASE_HI", base := 0x054, stride := 0, count := 1, rw := 0xFFFFFFFF },
  { name := "CJE_INSTi_RING_CFG", base := 0x058, stride := 0, count := 1, rw := 0x0003F1FF },
  { name := "CJE_INSTi_SQ_HEAD", base := 0x05C, stride := 0, count := 1, ro := 0x00000FFF },
  { name := "CJE_INSTi_CQ_TAIL", base := 0x060, stride := 0, count := 1, ro := 0x00000FFF },
  { name := "CJE_INSTi_JOB_STATUS", base := 0x064, stride := 0, count := 1, ro := 0x007FFFFF },
  { name := "INSTi_STATE", base := 0x080, stride := 0, count := 1, ro := 0x03FFFF07 },
  { name := "INSTi_CMD", base := 0x084, stride := 0, count := 1, wo := 0xFFFF001F },
  { name := "INSTi_CMD_STATUS", base := 0x088, stride := 0, count := 1, ro := 0x001FFFFF },
  { name := "INSTi_QUOTA", base := 0x08C, stride := 0, count := 1, rw := 0x0017F1FF },
  { name := "INSTi_KEYS", base := 0x090, stride := 0, count := 1, rw := 0x03FF01FF },
  { name := "INSTi_CTRS", base := 0x094, stride := 0, count := 1, rw := 0x00007FFF },
  { name := "INSTi_EXEC", base := 0x098, stride := 0, count := 1, rw := 0x0000013F },
  { name := "INSTi_PT_ROOT_LO", base := 0x0A0, stride := 0, count := 1, rw := 0xFFFFF000 },
  { name := "INSTi_PT_ROOT_HI", base := 0x0A4, stride := 0, count := 1, rw := 0xFFFFFFFF },
  { name := "INSTi_RESUME", base := 0x0A8, stride := 0, count := 1, wo := 0x00000007 },
  { name := "INSTi_ITU_STATUS", base := 0x0AC, stride := 0, count := 1, ro := 0x01FFFF01 },
  { name := "INSTi_CTR_CMD", base := 0x0B0, stride := 0, count := 1, wo := 0x00003F03 },
  { name := "INSTi_CTR_ARG_LO", base := 0x0B4, stride := 0, count := 1, rw := 0xFFFFFFFF },
  { name := "INSTi_CTR_ARG_HI", base := 0x0B8, stride := 0, count := 1, rw := 0xFFFFFFFF }]

/-- The registers of an instance page; offsets from 0x400 exist in page 0 only (R218, R401), part 2. -/
def rowsInst1 : List RegRow := [
  { name := "INSTi_CTR_RESULT", base := 0x0BC, stride := 0, count := 1, ro := 0x0003FFFF },
  { name := "INSTi_CTR_SEL", base := 0x0C0, stride := 0, count := 1, rw := 0x0000003F },
  { name := "INSTi_CTR_VAL_LO", base := 0x0C4, stride := 0, count := 1, ro := 0xFFFFFFFF },
  { name := "INSTi_CTR_VAL_HI", base := 0x0C8, stride := 0, count := 1, ro := 0xFFFFFFFF },
  { name := "INSTi_MIG_PUBw", base := 0x100, stride := 4, count := 8, ro := 0xFFFFFFFF },
  { name := "INSTi_CHALw", base := 0x120, stride := 4, count := 8, ro := 0xFFFFFFFF },
  { name := "INSTi_PEER_PUBw", base := 0x140, stride := 4, count := 8, rw := 0xFFFFFFFF },
  { name := "INSTi_PEER_CHALw", base := 0x160, stride := 4, count := 8, rw := 0xFFFFFFFF },
  { name := "INSTi_BLOB_LO", base := 0x180, stride := 0, count := 1, rw := 0xFFFFFFC0 },
  { name := "INSTi_BLOB_HI", base := 0x184, stride := 0, count := 1, rw := 0xFFFFFFFF },
  { name := "INSTi_BLOB_LEN", base := 0x188, stride := 0, count := 1, rw := 0x00FFFFFF },
  { name := "INSTi_PWMS_LO", base := 0x18C, stride := 0, count := 1, rw := 0xFFFFFFFF },
  { name := "INSTi_PWMS_HI", base := 0x190, stride := 0, count := 1, rw := 0xFFFFFFFF },
  { name := "INSTi_PWMS", base := 0x194, stride := 0, count := 1, rw := 0x01FF3FFF },
  { name := "INSTi_BLOB_OUT", base := 0x198, stride := 0, count := 1, ro := 0x00FFFFFF },
  { name := "MGR_FQ_BASE_LO", base := 0x400, stride := 0, count := 1, rw := 0xFFFFF000 },
  { name := "MGR_FQ_BASE_HI", base := 0x404, stride := 0, count := 1, rw := 0xFFFFFFFF },
  { name := "MGR_FQ_CFG", base := 0x408, stride := 0, count := 1, rw := 0x0000010F },
  { name := "MGR_FQ_TAIL", base := 0x40C, stride := 0, count := 1, ro := 0x00000FFF },
  { name := "MGR_FQ_HEAD", base := 0x410, stride := 0, count := 1, rw := 0x00000FFF },
  { name := "MGR_FQ_LOST", base := 0x414, stride := 0, count := 1, ro := 0xFFFFFFFF },
  { name := "MGR_DOORBELL", base := 0x420, stride := 0, count := 1, wo := 0xFF07FFFF },
  { name := "MGR_STATE", base := 0x424, stride := 0, count := 1, ro := 0x1FFFFFFF },
  { name := "MGR_RSP_CTRL", base := 0x428, stride := 0, count := 1, wo := 0x8007FFFF }]

/-- The registers of an instance page; offsets from 0x400 exist in page 0 only (R218, R401), part 3. -/
def rowsInst2 : List RegRow := [
  { name := "MGR_RSP_STATUS", base := 0x42C, stride := 0, count := 1, rw := 0x0000FFFF },
  { name := "MGR_INFO", base := 0x430, stride := 0, count := 1, ro := 0x0000FFFF },
  { name := "MGR_REQk", base := 0x800, stride := 4, count := 256, rw := 0xFFFFFFFF },
  { name := "MGR_RSPk", base := 0xC00, stride := 4, count := 256, rw := 0xFFFFFFFF }]

/-- The registers of an instance page; offsets from 0x400 exist in page 0 only (R218, R401). -/
def rowsInst : List RegRow := rowsInst0 ++ rowsInst1 ++ rowsInst2

/-- The registers of a doorbell page (R218). -/
def rowsDoorbell : List RegRow := [
  { name := "CJE_DBi_SQ_TAIL", base := 0x044, stride := 0, count := 1, rw := 0x00000FFF },
  { name := "CJE_DBi_CQ_HEAD", base := 0x048, stride := 0, count := 1, rw := 0x00000FFF }]

end Sys2Proof
end

