-- ==== Sys2Proof/Machine/State.lean ====
section
/-! DEFINITION. Machine/State.lean: everything the spec gives the machine, as plain data, and the machine right after reset.
Plain registers live in the register file `regs`, one word per register-space offset, where an unlisted
offset holds its register's reset value; what is not a register word (state machines, queues, frames, slots,
timers) has its own field. -/
namespace Sys2Proof.Machine

/-- Which reset is in force: none, POR between SUPPLY_FALL and POR_END, or DEVICE while DEV_RST_N is low (R251). -/
inductive RstPhase
  | none
  | por
  | device
  deriving DecidableEq, Repr

/-- The rank of the reset whose hardware phase still runs (R252, R253). -/
inductive ResetRank
  | control
  | device
  | por
  deriving DecidableEq, Repr

/-! ### Flash guard ports, verified store, digest unit (chapters 04 to 07) -/

/-- The port states of R130. -/
inductive PortSt
  | held
  | measuring
  | releasePending
  | running
  | updateStaged
  | recovering
  | quarantined
  deriving DecidableEq, Repr

/-- The protocol mode codes of R81. -/
inductive PMode
  | m1s
  | m4s
  | m4d
  | m8s
  | m8d
  deriving DecidableEq, Repr

/-- The frame states of R135. -/
inductive FrameSt
  | invalid
  | filling
  | valid
  | error
  deriving DecidableEq, Repr

/-- One verified-store frame (R135): state, owner, kind and content record. -/
structure Frame where
  st : FrameSt := .invalid
  owner : Option Nat := none
  digest : Bool := false
  image : Nat := 0
  leaf : Nat := 0
  win : Nat := 0
  data : Bytes := []
  deriving DecidableEq, Repr

/-- One window descriptor, as its four registers (R106). -/
structure WinDesc where
  base : Word
  limit : Word
  policy : Word
  map : Word
  deriving DecidableEq, Repr

/-- The latched set (R127). -/
structure Latched where
  wins : List WinDesc
  abMap : Word
  abCtrl : Word
  relCfg : Word
  frameRange : Word
  density : Nat
  deriving DecidableEq, Repr

/-- A tree context (R141): root, leaf count and DTT flash address; `loaded` once its tree is loaded, `first` its first
digest frame (R143). -/
structure TreeCtx where
  image : Nat
  root : Bytes
  leaves : Nat
  addr : Nat
  loaded : Bool := false
  first : Nat := 0
  deriving DecidableEq, Repr

/-- One image entry of a manifest (R172), its DTT address already mapped. -/
structure ManEntry where
  image : Nat
  leaves : Nat
  version : Nat
  floor : Nat
  dtt : Nat
  root : Bytes
  deriving DecidableEq, Repr, Inhabited

/-- An accepted manifest: its digest, the key that verified it and its entries (R181, R184). -/
structure Manifest where
  digest : Bytes
  key : Bytes
  entries : List ManEntry
  deriving DecidableEq, Repr, Inhabited

/-- The parameters of an accepted GOLDEN job (R173). -/
structure Golden where
  cs1Base : Nat
  dest : Nat
  length : Nat
  digest : Bytes
  deriving DecidableEq, Repr, Inhabited

/-- A platform command in progress, until CS# rises (R85, R92, R120): whether WEL clears and the error indication rises
then, and whether it is forwarded, as a read or as a program or erase. -/
structure LiveCmd where
  clearsWel : Bool := false
  denied : Bool := false
  forwards : Bool := false
  writes : Bool := false
  deriving DecidableEq, Repr

/-- A pending leaf fetch (R145), with the block it is for. -/
structure LeafReq where
  image : Nat
  leaf : Nat
  fa : Nat
  win : Nat
  deriving DecidableEq, Repr

/-- One verified pair of the node cache (R144). -/
structure CachePair where
  image : Nat
  pair : Nat
  l0 : Bytes
  l1 : Bytes
  deriving DecidableEq, Repr

/-- A block buffer held by an open block (R151). -/
structure OpenBlk where
  fa : Nat
  win : Nat
  image : Nat
  leaf : Nat
  vals : Tbl (Option Byte) := []
  ptr : Nat := 0
  /-- where the block completion resumes, once it has started (R29, R155) -/
  comp : Option Nat := none
  deriving DecidableEq, Repr

/-- What a port makes accesses of its own for, beside block completion (R28, R29, R452). -/
inductive Own
  | leaf
  | tree
  | fill
  | refill
  | warm
  | verify
  | copy
  deriving DecidableEq, Repr

/-- Where a port's own sequence stands (R167, R179, R186, R188). -/
inductive PortSeq
  /-- no sequence in progress -/
  | idle
  /-- waiting for a manifest check job of mode MEASURE or GOLDEN -/
  | waitJob
  /-- counter raises still to make: counter index and floor (R176) -/
  | raising (left : List (Nat × Nat))
  /-- tree load (R142) -/
  | treeLoad
  /-- residency fill at block `blk` of window `w`; `again` on the second attempt (R146) -/
  | fill (w blk : Nat) (again : Bool)
  /-- release sequence before the first output (R179 step 2) -/
  | relD1
  /-- release sequence before the second output (R179 step 4) -/
  | relD2
  /-- activation steps 1 to 3 (R186) -/
  | actQuiesce
  /-- golden verification (R188) -/
  | goldenVerify
  /-- recovery copy (R188) -/
  | copy
  deriving DecidableEq, Repr

/-- One flash guard port: the port state machine, the platform side's protocol state, the mailbox and the stream
checker.  Its plain registers are in the register file. -/
structure Port where
  st : PortSt := .held
  prev : PortSt := .held
  seq : PortSeq := .idle
  /-- the sequence in progress is an activation (R186) -/
  act : Bool := false
  /-- a HOLD has been accepted and waits for the sequence's next point (R168) -/
  hold : Bool := false
  /-- the state from which RECOVER was accepted (R167) -/
  origin : PortSt := .held
  sel : Bool := false
  flips : Nat := 0
  latched : Option Latched := none
  /-- the latched set is in force (FGPn_AB_STATUS.latched) -/
  inForce : Bool := false
  trees : List TreeCtx := []
  staged : Option Manifest := none
  /-- the staged result an activation carries out (R186) -/
  next : Option Manifest := none
  man : Option Manifest := none
  golden : Option Golden := none
  /-- cs1_base of the recovery's GOLDEN job, 0 before it (R181) -/
  recBase : Nat := 0
  /-- flash address and length of the manifest last read (R452) -/
  manAt : Nat × Nat := (0, 0)
  mode : PMode := .m1s
  addr4 : Bool := false
  wel : Bool := false
  /-- burst wrap: none when off, else the length code of R89 -/
  wrap : Option Nat := none
  /-- the command before this one was 0x66 (R87) -/
  rstEn : Bool := false
  live : Option LiveCmd := none
  cs0Busy : Bool := false
  errInd : Bool := false
  mbReq : Tbl Byte := []
  mbRsp : Bytes := []
  /-- 0 IDLE, 1 PENDING, 2 DONE (R123) -/
  mbState : Fin 3 := 0
  mbReqSeq : Nat := 0
  mbRspSeq : Nat := 0
  mbStatus : Nat := 0
  mbDoor : Word := 0
  /-- an accepted publish waiting for CS# high: seq and len (R125) -/
  pub : Option (Nat × Nat) := none
  blocks : List OpenBlk := []
  cache : List CachePair := []
  leafReqs : List LeafReq := []
  refills : List Nat := []
  refillAgain : Bool := false
  /-- how far the own accesses of each purpose have come: accesses received whole, and bytes of the next one (R29) -/
  own : List (Own × Nat × Nat) := []
  /-- a resident read's address has been recorded in FGPn_SC_ECC_ADDR (R148) -/
  eccAt : Bool := false
  /-- levels the port gives Pn_PRST_N and Pn_PHOLD_N where they are driven (R178) -/
  prst : Bool := false
  phold : Bool := false
  /-- the recovery copy is working on a unit: false while LOCKED has stopped it at a unit boundary (R169, R189) -/
  unitOn : Bool := false
  /-- filtered level of Pn_PREQ_N: 0 at reset (R104) -/
  preq : Bool := false
  /-- own accesses that PAIR_WARM asked for, as flash address and length (R452) -/
  warm : List (Nat × Nat) := []
  /-- bytes snooped for the port's pending own accesses, by chip select times 2^32 plus flash address (R451) -/
  snoop : Tbl (Option Byte) := []
  /-- blocks verified by the latest residency fill, and their fold (R454) -/
  fillCount : Nat := 0
  fillFold : Bytes := zeros 8
  deriving DecidableEq, Repr

/-! ### Counter store (chapter 12) -/

/-- Who asks the counter store for an operation (R324). -/
inductive CstReq
  | core (q : Nat)
  | inst (i : Nat)
  | port (n : Nat)
  | pairing
  deriving DecidableEq, Repr

/-- One requested counter operation: INCREMENT, or RAISE to `arg` (R318). -/
structure CstOp where
  req : CstReq
  raise : Bool
  ctr : Nat
  arg : Nat
  deriving DecidableEq, Repr
/-! ### Fuse array (chapter 12) -/

/-- One step of a fuse command (R309 to R312): bits of a word to program and whether their verify is at STRICT, the integrity word
of a bank, or the lock of a bank after its checks. -/
inductive FusStep
  | prog (word : Nat) (bits : Word) (strict : Bool)
  | integrity (bank : Nat)
  | lock (bank : Nat)
  deriving DecidableEq, Repr

/-- A fuse command in progress: the step whose pulse runs is the first, with the pulses it has had (R310). -/
structure FusRun where
  steps : List FusStep
  pulses : Nat := 0
  deriving DecidableEq, Repr

/-! ### Key vault, jobs and instances (chapters 08, 09, 16) -/

/-- The slot states of R226, in the order of their codes (R249). -/
inductive KeySt
  | empty
  | live
  | orphaned
  | retired
  deriving DecidableEq, Repr

/-- One key slot (R226): owner kinds 0 core, 1 instance, 2 port, 3 vault (R249). -/
structure KSlot where
  st : KeySt := .empty
  ktype : Nat := 0
  usage : Nat := 0
  ownerKind : Nat := 0
  owner : Nat := 0
  gen : Nat := 0
  parent : Option Nat := none
  pgen : Nat := 0
  depth : Nat := 0
  ownerKey : Bool := false
  key : Bytes := []
  deriving DecidableEq, Repr

/-- Who submitted a job (R193): a core queue, an instance, or ring node `node` for the instance, tag and generation its
JOB_REQ names (R421). -/
inductive Sub
  | core (q : Nat)
  | inst (i : Nat)
  | remote (node tag inst gen : Nat)
  deriving DecidableEq, Repr

/-- The job states of R208.  A squashed job is SQUASHING until its unit reaches its boundary, at the next TBCLK cycle that passes with no
command waiting (assumption log 15). -/
inductive JobSt
  | queued
  | running
  | preempted
  | faultFetch
  | faultSave
  | faultWrite
  | squashing
  deriving DecidableEq, Repr

/-- A finished job's verdict and the outputs still to be written, as address and bytes (R200, R208). -/
structure JobRes where
  status : Nat
  outLen : Nat := 0
  result : Nat := 0
  ran : Bool := true
  outs : List (Nat × Bytes) := []
  deriving DecidableEq, Repr

/-- One job (R202, R208).  Unit kinds are those of CJE_TAG_INFO: 0 hash lane, 1 curve unit, 2 AES-GCM unit, 3 key vault. -/
structure Job where
  sub : Sub := .core 0
  /-- order of fetch, for fences and rings (R196) -/
  ord : Nat := 0
  desc : Bytes := []
  st : JobSt := .queued
  /-- context slot (R202) -/
  slot : Nat := 0
  /-- instance generation at fetch (R200) -/
  gen : Nat := 0
  unit : Option (Nat × Nat) := none
  /-- the hash lane it holds beside its unit (R195) -/
  lane : Option Nat := none
  /-- a SELF_TEST whose lane was reserved when the test began (R209, R216) -/
  onRes : Bool := false
  last : Nat × Nat := (0, 0)
  pos : Nat := 0
  /-- hash midstate at `pos` and bits hashed (R204), as the unit or a save buffer holds it -/
  mid : Bytes := []
  /-- a save buffer is held (R203) -/
  buf : Bool := false
  /-- the context record has been written to the context slot -/
  recSaved : Bool := false
  approved : Bool := false
  faulted : Bool := false
  preempted : Bool := false
  /-- TBCLK cycles it has held a unit before, and TB_TIME at its last start (R211) -/
  used : Nat := 0
  since0 : Nat := 0
  /-- 128-byte blocks hashed since it last started (R205) -/
  since : Nat := 0
  /-- the key slots it took copies from, as they were at its chain check (R232) -/
  copies : List (Nat × KSlot) := []
  /-- the generations those slots had then, for the check at a resumption (R232) -/
  gens : List (Nat × Nat) := []
  /-- failing units a SELF_TEST of every unit has found so far (R216) -/
  fails : Nat := 0
  done : Option JobRes := none
  /-- a manifest check job that has been ended before its next step: the code it ends with (R171, R184) -/
  early : Nat := 0
  /-- executing node, while it is forwarded (R394) -/
  fwd : Option Nat := none
  /-- at an executing node: bytes received of src and of aux (R421) -/
  rsrc : Bytes := []
  raux : Bytes := []
  deriving DecidableEq, Repr

/-- A page request waiting for its response (R386): index, instance, and the tag that waits, none for a descriptor read. -/
structure Prg where
  idx : Nat
  inst : Nat
  tag : Option Nat
  deriving DecidableEq, Repr

/-- A cached leaf translation (R385): instance, page number of the IVA, 2 MiB or 4 KiB, and the leaf entry. -/
structure ItuEnt where
  inst : Nat
  page : Nat
  big : Bool
  entry : Nat
  deriving DecidableEq, Repr

/-- The instance states of R378. -/
inductive InstSt
  | none
  | active
  | resetting
  | freezing
  | frozen
  | awaitRestore
  | saved
  deriving DecidableEq, Repr

/-- How an instance reset in progress ends (R378, R390). -/
inductive InstReset
  | reset (drain : Bool)
  | destroy
  deriving DecidableEq, Repr

/-- One service instance, beside its registers. -/
structure Inst where
  st : InstSt := .none
  /-- generation (R392) -/
  gen : Nat := 0
  /-- migration private key, in the key vault's per-instance store (R381) -/
  mig : Bytes := []
  /-- INSTi_PEER_PUB and INSTi_PEER_CHAL of the save that entered SAVED (R397) -/
  savedTo : Option Bytes := Option.none
  /-- the state a reset in progress returns to, and its kind -/
  rst : Option (InstReset × InstSt) := Option.none
  /-- the generation of the reset in progress has been incremented (R393) -/
  bumped : Bool := false
  /-- the INSTi_CMD op that began the reset in progress, 0 for none -/
  cmd : Nat := 0
  deriving DecidableEq, Repr

/-! ### The Lomes ring (chapter 17) -/

/-- The states of a side (R428). -/
inductive SideSt
  | down
  | training
  | up
  | silent
  deriving DecidableEq, Repr

/-- One side, W (0) or E (1). -/
structure Side where
  st : SideSt := .down
  wrapped : Bool := false
  /-- block lock (R406) -/
  lock : Bool := false
  neighbour : Option Nat := none
  /-- heartbeat count (R406) -/
  beats : Nat := 0
  deriving DecidableEq, Repr

/-- Reliable delivery with one node (R411, R412). -/
structure Peer where
  /-- its incarnation as this node knows it, 0 if unknown -/
  inc : Nat := 0
  txSeq : Nat := 0
  /-- unacknowledged frames with their retransmissions, oldest first -/
  unacked : List (Frame17 × Nat) := []
  /-- frames waiting for room in the window of 8 -/
  queue : List Frame17 := []
  rxNext : Nat := 0
  /-- frames held out of order, with what their arrival brought -/
  held : List (Frame17 × LmsIn) := []
  /-- stored answers: the request's seq and the answer's -/
  replies : List (Nat × Nat) := []
  deriving DecidableEq, Repr

/-- A register access waiting for its REG_RSP (R418, R424): the node, and either the window, direction, master and offset of a remote
aperture access, or the bulk channel, its generation and the words asked for. -/
structure RaReq where
  node : Nat
  window : Nat := 0
  write : Bool := false
  master : Byte := 0
  off : Nat := 0
  bulk : Option (Nat × Nat) := none
  words : Nat := 1
  deriving DecidableEq, Repr

/-- A busy bulk channel (R424): kind 1 PUSH, 2 FETCH. -/
structure Bulk where
  kind : Nat
  node : Nat
  finish : Bool
  haddr : Nat
  off : Nat
  len : Nat
  /-- instance-0 generation at its start -/
  gen : Nat := 0
  deriving DecidableEq, Repr

/-- An accepted TOPOLOGY (R413): entries of node and incarnation in ring order, and the break position. -/
structure Topo where
  seq : Nat
  brk : Option Nat
  entries : List (Nat × Nat)
  deriving DecidableEq, Repr

/-! ### Active/standby pairs (chapter 18) -/

/-- The pairing unit, beside its registers. -/
structure PairSt where
  /-- own claim number, 0 while no claim is valid (R434) -/
  claim : Nat := 0
  /-- the claim's hold-off has elapsed or its handshake has completed (R435) -/
  mayDrive : Bool := false
  /-- the outputs were enabled when the output rule was last evaluated -/
  drove : Bool := false
  /-- L of the grant in force, in µs -/
  lease : Nat := 0
  /-- the last fresh claim-link frame: claim number and flags byte (R440); stale when not `fresh` -/
  fresh : Bool := false
  peerClaim : Nat := 0
  peerFlags : Nat := 0
  /-- peer node from beats (R458) -/
  peerNode : Nat := 0
  /-- no beat has come from the peer for beat_to (R450) -/
  beatsLost : Bool := false
  /-- sequence of the next mirror record, and of the one whose sending firmware waits for -/
  mtxSeq : Nat := 0
  mtxBusy : Option Nat := none
  woutBusy : Option Nat := none
  /-- mirror records queued for firmware: kind and data, and the witness inbox: source node and payload -/
  mrx : List (Nat × Bytes) := []
  win : List (Nat × Bytes) := []
  /-- beats a witness tracks: source node and TB_TIME of its last beat -/
  wbeats : List (Nat × Nat) := []
  /-- a grant waits for a reconcile to end (R321), with the origin of its report -/
  grantWaits : Option Nat := none
  /-- the highest peer claim that arrived while a reconcile ran, for counter 133 (R321, R441) -/
  claimSeen : Nat := 0
  /-- mirrored counter raises still to succeed (R453): counter and value -/
  applies : List (Nat × Nat) := []
  deriving DecidableEq, Repr

/-! ### Tamper and environment monitor (chapter 13) -/

/-- The VBAT backup domain (R333) and the TEM's sources. -/
structure TemSt where
  /-- 64 bits and their complement -/
  canary : Bytes := zeros 8 ++ ones 8
  /-- acknowledged count in bits [9:0], its complement in [19:10] -/
  ack : Word := 0x000FFC00
  latch : Bool := false
  /-- copy of TEM_LOCK_INFO -/
  info : Word := 0
  /-- TEM state OBSERVE (R339) -/
  observe : Bool := true
  /-- counted excursions of each source, as TB_TIME, newest first (R328) -/
  excs : Tbl (List Nat) := []
  /-- sources that have met their condition -/
  met : List Nat := []
  /-- the battery window is open; VBAT has fallen below its low limit in it (R336) -/
  window : Bool := false
  dipped : Bool := false
  deriving DecidableEq, Repr

/-! ### Device start and own firmware (chapters 10, 11) -/

/-- Where Sage stands: at the ROM entry point (after a CONTROL reset or not), in the ROM's copy of a bundle with the next unit to copy,
waiting in the push window (in RECOVERY or not), in firmware, or stopped by the ROM (R255, R256, R291, R295). -/
inductive SageSt
  | rom (control : Bool)
  | copying (unit : Nat)
  | window (recovery : Bool)
  | run
  | stop
  deriving DecidableEq, Repr

/-- A boot flash command in progress (R277, R300): its op, flash address, core SRAM address and length, whether the chip has been
polled ready, and whether the command has gone out to the chip, which it does not during timebase loss (R55). -/
structure BfRun where
  op : Nat
  addr : Nat
  buf : Nat
  len : Nat
  ready : Bool := false
  sent : Bool := true
  deriving DecidableEq, Repr

/-! ### Service port and I3C target (chapter 15) -/

/-- A service-port request (R369): type, seq, payload with its CRC, and for DATA what the block reads back as (R289), none where a
busy limit was exceeded. -/
structure SvcReq where
  type : Nat
  seq : Nat
  payload : Bytes
  readBack : Option Bytes := none
  deriving DecidableEq, Repr

/-- The service port, beside its registers (R369 to R373). -/
structure SvcSt where
  /-- requests not yet answered, oldest first: the first is the firmware request that waits -/
  queue : List SvcReq := []
  /-- the two requests answered last, newest first: type, seq and response payload -/
  answered : List (Nat × Nat × Bytes) := []
  session : Bool := false
  /-- 64 KiB units of Staging erased in the session (R289) -/
  erased : List Nat := []
  /-- the divisor a BAUD response has announced, and the one before the last switch -/
  newDiv : Option Nat := none
  oldDiv : Option Nat := none
  /-- answers that wait for TBCLK, oldest first, and whether waiting requests are due their turn with it (R55) -/
  held : List (Nat × Nat × Bytes) := []
  stalled : Bool := false
  deriving DecidableEq, Repr

/-- The I3C target, beside its registers (R366): the receive queue, and the length of the pending transmit packet. -/
structure I3cSt where
  rx : List Bytes := []
  tx : Option Nat := none
  deriving DecidableEq, Repr

/-! ### PCIe (chapter 15) -/

/-- One MSI-X table entry with its pending bit (R357, R359). -/
structure MsixEnt where
  addr : Nat := 0
  data : Nat := 0
  masked : Bool := true
  pend : Bool := false
  deriving DecidableEq, Repr


/-- The power controller, beside its registers (R477, R482 to R487): the switches of the write in progress (domain, on), the first one
running; the domains that were off before Rest; TB_TIME at REST entry; the sources active when ARMED was last checked; the cause of the
wake in progress; and PWR_POR_INFO as the backup domain holds it. -/
structure PwrSt where
  sw : List (Nat × Bool) := []
  off : Word := 0
  since : Nat := 0
  seen : List Nat := []
  cause : Nat := 0
  porInfo : Word := 0
  deriving DecidableEq, Repr

/-- A delay-monitor measurement in progress (R60): island, kind, and whether its result will be invalid. -/
structure DlyRun where
  island : Nat
  kind : Nat
  spoiled : Bool
  deriving DecidableEq, Repr

/-- Every TBCLK-counted duration of the spec that ends in an event (R52), keyed by what it counts for. -/
inductive Timer
  | dlymon
  | fusPulse
  | battWin
  | battOk
  | tokenReset
  | lease
  | holdoff
  | clStale
  | pairReq
  | svcBaud
  | svcRevert
  | svcSession
  | i3cTx
  | wake
  | wakeDone
  | beatSend
  | beatPeer
  | claimAgain
  | health
  | bwdHalf
  | bwd
  | twd
  | twdGrace
  | bfPoll
  | bfMax
  | relD1 (n : Nat)
  | relD2 (n : Nat)
  | rstPulse (n : Nat)
  | rstQuiet (n : Nat)
  | busyPoll (n : Nat)
  | busyMax (n : Nat)
  | defer (n fa : Nat)
  | scrub (k : Nat)
  | job (tag : Nat)
  | selfTest (tag : Nat)
  | remJob (tag : Nat)
  | drain (i : Nat)
  | genDelay (i : Nat)
  | prg (idx : Nat)
  | resend (v : Nat)
  | retx (node seq : Nat)
  | ackDelay (node : Nat)
  | silent (side : Nat)
  | heartbeat (side : Nat)
  | discover
  | topoRepeat
  | isolated
  | status
  | nodeAge (n : Nat)
  | bulk (c : Nat)
  | pcieRead (tag : Nat)
  deriving DecidableEq, Repr

/-- What the block drives outward.  The model appends it to `State.out`, newest first; nothing reads it back. -/
inductive Out
  /-- data returned to a master's read -/
  | bus (master : Byte) (off : Nat) (data : Word)
  /-- the data phase of a platform read or register read -/
  | platform (n : Nat) (data : Bytes)
  /-- a command on port `n`'s flash side: chip select, the opcode's extension byte in octal modes, opcode, address, length read,
  data written -/
  | flash (n cs : Nat) (ext : Option Nat) (op addr len : Nat) (data : Bytes)
  /-- a write by function `fn` (0 the PF, i VF i) to host memory -/
  | host (fn addr : Nat) (data : Bytes)
  /-- a page request: index, function and IVA page (R386) -/
  | pageReq (idx fn iva : Nat)
  /-- a configuration-space, message or other PCIe packet this model names by what it is: an MSI-X message of vector `v` of
  function `fn` with its address and data -/
  | msix (fn v addr data : Nat)
  /-- a frame or an ordered set handed to the transmit lane of a side (0 W, 1 E) -/
  | lomes (side : Nat) (f : Frame17)
  | heartbeat (side node inc count : Nat)
  /-- a boot flash command: opcode, address, length read, data written (R277) -/
  | bootFlash (op addr len : Nat) (data : Bytes)
  /-- what the TAP shifts out of its instruction register, of a data register and of a 1-bit data register (R265) -/
  | tapIr (bits : Nat)
  | tap (data : Bytes)
  | tapBit (b : Bool)
  /-- what the boundary-scan cells drive on the outputs while EXTEST is selected (R265) -/
  | cells (data : Bytes)
  /-- a service-port response: type, seq, payload (R369) -/
  | svc (type seq : Nat) (payload : Bytes)
  /-- what the I3C target returns to a read or CCC -/
  | i3c (data : Bytes)
  /-- an in-band interrupt with its mandatory data byte (R366) -/
  | ibi (mdb : Byte)
  deriving DecidableEq, Repr

/-- The machine. -/
structure State where
  /-- commands waiting, first in, first out (the model's own field) -/
  pending : List Instr := []
  /-- how many free bytes have been drawn (the model's own field: the argument of `Config.freeByte`) -/
  fresh : Nat := 0
  /-- what the block has driven outward, newest first (the model's own field) -/
  out : List Out := []
  /-- which part this is (R5) -/
  part : Part := .wdx6416
  rst : RstPhase := .none
  /-- the hardware phase in progress (R253): its rank and the TBCLK cycles left of its bound at SS -/
  hw : Option (ResetRank × Nat) := none
  /-- running TBCLK-counted durations, in cycles left -/
  timers : List (Timer × Nat) := []
  regs : Tbl Word := []
  /-- RWO registers written since the reset that covers them (R16) -/
  rwoUsed : Tbl Bool := []
  /-- TB_TIME (R59) -/
  tbTime : Nat := 0
  /-- timebase loss in progress (R54) -/
  tbLoss : Bool := false
  tbLocked : Bool := true
  xinCmos : Bool := false
  /-- core SRAM (R522), by offset from 0x2000_0000 -/
  sram : Tbl Byte := []
  ports : Tbl Port := []
  frames : Tbl Frame := []
  /-- the port whose chunk the flash-path front end served last, and the lanes on which flash-path work has started since the
  last TBCLK cycle (R154, R219) -/
  hashTurn : Nat := 15
  flashLanes : List Nat := []
  /-- queued ECC write-backs: frame and word (R148) -/
  writeBacks : List (Nat × Nat) := []
  /-- switched power domains that are off, one bit each (R476) -/
  domOff : Word := 0
  pwr : PwrSt := {}
  dly : Option DlyRun := none
  /-- instances whose pages are held in INSTANCE reset (R390) -/
  instRst : List Nat := []
  /-- the TEM holds the device LOCKED (R332) -/
  locked : Bool := false
  /-- the 144 measurement slots: value and extend count (R239) -/
  meas : Tbl (Bytes × Nat) := []
  /-- counter-store operations waiting for their grant or in progress, oldest first (R324) -/
  cstOps : List CstOp := []
  /-- the counters of the counter store: the value both copies hold (R317) -/
  ctr : Tbl Nat := []
  /-- counters whose two copies differ: counter, copy A, copy B, none where its check fails (R321) -/
  torn : List (Nat × Option Nat × Option Nat) := []
  /-- failed counters (R323) -/
  ctrFailed : List Nat := []
  /-- CST_STATUS.reconciling (R321) -/
  reconciling : Bool := false
  /-- the fuse array at READ and at STRICT (R303) -/
  fuseR : Tbl Word := []
  fuseS : Tbl Word := []
  /-- bits that have been pulsed and have passed no verify, by word (R304) -/
  fuseU : Tbl Word := []
  /-- the READ values the last fuse sense loaded into the shadows (R305) -/
  fuseSh : Tbl Word := []
  /-- the fuse command in progress -/
  fus : Option FusRun := none
  pair : PairSt := {}
  tem : TemSt := {}
  sage : SageSt := .rom false
  /-- the image memories of Dill 0 to 2: byte `o` of Dill q at q × 0x40000 + o (R270) -/
  dillMem : Tbl Byte := []
  /-- boot SRAM (R282), its write lock (R296), and PUSH_LEN as written (R301) -/
  bootSram : Tbl Byte := []
  bootLock : Bool := false
  pushLen : Word := 0
  /-- the boot flash command in progress -/
  bf : Option BfRun := none
  svc : SvcSt := {}
  i3c : I3cSt := {}
  /-- cores halted by the debug module, one bit each (R351) -/
  halted : Word := 0
  /-- the task watchdog is stopped under R351: cycles left of its period and of its grace time -/
  twdHeld : Option (Nat × Option Nat) := none
  /-- writes to the task watchdog page that arrived during timebase loss, oldest first (R351): access, offset, data -/
  twdLate : List (Acc × Nat × Word) := []
  /-- slots armed in the current period, which check in from the next one on (R347) -/
  twdNew : Word := 0
  /-- the instruction in the TAP's instruction register (R265) and the boundary-scan register's contents -/
  tapIr : Nat := 0x02
  boundary : Bytes := []
  /-- the 176-byte token buffer (R266) and whether it holds a complete token -/
  token : Bytes := []
  /-- tamper events whose thermometer bit is still to be programmed (R308) -/
  tamperDue : Nat := 0
  /-- the 512 key slots (R226) -/
  kslots : Tbl KSlot := []
  /-- fixed slots 0, 1, 3 and 4 derived (KV_STATUS.ladder_ready) -/
  ladder : Bool := false
  /-- the life cycle or the epoch in force has changed at a CONTROL reset, and no start has reached HANDOVER since (R228, R233) -/
  lifeNew : Bool := false
  /-- a slot has ended or become ORPHANED since the scrubber's last pass ended (R231) -/
  scrubDirty : Bool := false
  /-- the own-firmware record given to FW_RECORD since the last reset covering Sage (R235) -/
  fwRec : Option Bytes := none
  jobs : Tbl Job := []
  /-- jobs fetched so far (the model's own field) -/
  jobOrd : Nat := 0
  /-- completion phase of each ring: core queue q at q, instance i at 4 + i (R194) -/
  phases : Tbl Bool := []
  /-- the context key of R204 -/
  ctxKey : Bytes := []
  /-- jobs started in this round, by instance, remote jobs at 128 (R205) -/
  wrr : Tbl Nat := []
  insts : Tbl Inst := []
  itu : List ItuEnt := []
  prgs : List Prg := []
  /-- page request indices whose answer is still owed although nobody waits for it (R386, R390) -/
  prgStale : List Nat := []
  /-- phase of the manager's fault queue (R388) -/
  fqPhase : Bool := true
  /-- remote items: instance, generation, TB_TIME at issue, and home tag or 65536 + bulk channel, newest first (R393) -/
  issued : List (Nat × Nat × Nat × Nat) := []
  /-- this device's incarnation (R392) -/
  incarnation : Nat := 0
  /-- page requests waiting for a free index: instance and tag (R386) -/
  prgWait : List (Nat × Option Nat) := []
  /-- bytes each AES-GCM unit has processed (CJE_AESm_BYTES counts KiB) -/
  aesBytes : Tbl Nat := []
  sides : Tbl Side := []
  peers : Tbl Peer := []
  topo : Option Topo := none
  /-- remote accesses waiting, oldest first -/
  raReqs : List RaReq := []
  bulks : Tbl (Option Bulk) := []
  /-- the received-event queue: source, origin node, status word (R421) -/
  evq : List (Nat × Nat × Word) := []
  /-- node 0: sides DISCOVER went out on -/
  discOut : List Nat := []
  /-- DISCOVER copies: at node 0 those that have come back, entries and the side each came in on; elsewhere the latest of each copy that has
  passed (R413, R414) -/
  disc : List (List (Nat × Nat) × Nat) := []
  /-- no TOPOLOGY has been accepted for 30 ms (R413) -/
  isolated : Bool := false
  /-- node numbers that stand twice on the ring (R414) -/
  dups : List Nat := []
  /-- functions' configuration space: the PF at 0, VF i at i -/
  pci : Tbl PciFn := []
  vfEnable : Bool := false
  /-- NumVFs as written -/
  numVfs : Nat := 0
  ariCap : Bool := false
  /-- MSI-X entries: function times 64 plus vector -/
  msix : Tbl MsixEnt := []
  /-- vectors whose OR of lines is 1, as function times 64 plus vector (R465) -/
  vecs : List Nat := []
  /-- active sources routed to the ring (R466) -/
  ringed : List Nat := []
  /-- cores whose external interrupt line is asserted (R464) -/
  coreLines : List Nat := []
  deriving DecidableEq, Repr

/-- The meanings of this model end in no fault: where the spec gives a command no effect in a state, the next state is the
same state. -/
inductive Fault
  deriving DecidableEq, Repr

/-- Why a command has no answer. -/
inductive Refusal
  /-- The command has no meaning yet; raised by an arm of `exec` only.  Safe: nothing can be proved of what it would do. -/
  | notModelled (mnemonic : String)
  deriving DecidableEq, Repr

/-- The machine right after reset: what POR leaves (R52 to R54, R253, R254, R271) once its hardware phase has ended, with Sage at the ROM
entry point.  Register words are those the spec gives: RST_CAUSE says POR, the life cycle is BLANK, and every register the table
does not list holds its reset value.  The rest the spec gives no value for and the model chooses (assumption log 7): the part; a new
device's fuse array, bank 2 sealed (word 191 its integrity word, bit 2 of word 196 its lock); straps read as node 0, unpaired,
GOLDEN_N high; the backup domain's canary; BOOT_NONCE and the context key zero and the incarnation 1, which
the DRBG draws; port 0 is next in R154's turn.  Running: the boot watchdog, the ports' flash reset pulses, heartbeats, STATUS, and the scrub interval of each
bank. -/
def State.reset : State := {
  reconciling := true
  incarnation := 1
  ctxKey := zeros 64
  regs := [(0x1040, 1), (0x104C, 0x0F), (0x1050, 8)]
  fuseR := [(191, 0xF81F07E0), (196, 4)]
  fuseS := [(191, 0xF81F07E0), (196, 4)]
  fuseSh := [(191, 0xF81F07E0), (196, 4)]
  pair := { drove := true }
  sides := [(0, { st := .training }), (1, { st := .training })]
  timers := [
    (.scrub 3, 10000), (.scrub 2, 10000), (.scrub 1, 10000), (.scrub 0, 10000), (.status, 100000), (.heartbeat 1, 100),
    (.heartbeat 0, 100), (.bwd, 100000000), (.rstPulse 15, 1000), (.rstPulse 14, 1000), (.rstPulse 13, 1000),
    (.rstPulse 12, 1000), (.rstPulse 11, 1000), (.rstPulse 10, 1000), (.rstPulse 9, 1000), (.rstPulse 8, 1000),
    (.rstPulse 7, 1000), (.rstPulse 6, 1000), (.rstPulse 5, 1000), (.rstPulse 4, 1000), (.rstPulse 3, 1000),
    (.rstPulse 2, 1000), (.rstPulse 1, 1000), (.rstPulse 0, 1000)] }

end Sys2Proof.Machine
end

