-- ==== Sys2Proof/Machine/Pages.lean ====
section
/-! DEFINITION. Machine/Pages.lean: the address map (R68), the identity of each page (R65), its interrupt bits, which
registers it holds, and the reset value of every register-space offset. -/
namespace Sys2Proof.Machine

/-- The kinds of page of R68. -/
inductive PageKind
  | cap
  | rom
  | tb
  | pwr
  | evh
  | evhRoute
  | bwd
  | twd
  | tem
  | fus
  | cst
  | kv
  | kvSlot
  | atu
  | svc
  | i3c
  | pci
  | pair
  | lms
  | cje
  | itu
  | vst
  | du
  | vstBank
  | lane
  | curve
  | aes
  | fgpCtl
  | fgpWin
  | fgpMb
  | inst
  | doorbell
  deriving DecidableEq, Repr

/-- What lies at a register-space offset: copy `idx` of a kind of page, a reserved page, or the remote aperture. -/
inductive PageAt
  | page (k : PageKind) (idx : Nat)
  | reserved
  | aperture
  deriving DecidableEq, Repr

/-- The page at a page number (offset divided by 4,096): the address map of R68. -/
def pageNo (p : Nat) : PageAt :=
  if p ≥ 0xC00 then .aperture
  else if p ≥ 0x141 then .reserved
  else if p ≥ 0x100 then .page .doorbell (p - 0x100)
  else if p ≥ 0xC1 then .reserved
  else if p ≥ 0x80 then .page .inst (p - 0x80)
  else if p ≥ 0x40 then
    (match (p - 0x40) % 4 with
     | 0 => .page .fgpCtl ((p - 0x40) / 4)
     | 1 => .page .fgpWin ((p - 0x40) / 4)
     | 2 => .page .fgpMb ((p - 0x40) / 4)
     | _ => .reserved)
  else if p ≥ 0x36 then .reserved
  else if p ≥ 0x34 then .page .aes (p - 0x34)
  else if p ≥ 0x30 then .page .curve (p - 0x30)
  else if p ≥ 0x28 then .page .lane (p - 0x28)
  else if p ≥ 0x24 then .page .vstBank (p - 0x24)
  else match p with
    | 0x00 => .page .cap 0
    | 0x01 => .page .rom 0
    | 0x02 => .page .tb 0
    | 0x03 => .page .pwr 0
    | 0x04 => .page .evh 0
    | 0x05 => .page .evhRoute 0
    | 0x06 => .page .evhRoute 1
    | 0x07 => .page .evhRoute 2
    | 0x08 => .page .bwd 0
    | 0x09 => .page .twd 0
    | 0x0A => .page .tem 0
    | 0x0B => .page .fus 0
    | 0x0C => .page .cst 0
    | 0x0D => .page .kv 0
    | 0x0E => .page .kvSlot 0
    | 0x0F => .page .atu 0
    | 0x10 => .page .svc 0
    | 0x11 => .page .i3c 0
    | 0x12 => .page .pci 0
    | 0x13 => .page .pair 0
    | 0x14 => .page .lms 0
    | 0x15 => .page .lms 1
    | 0x20 => .page .cje 0
    | 0x21 => .page .itu 0
    | 0x22 => .page .vst 0
    | 0x23 => .page .du 0
    | _ => .reserved

/-- The page that holds a register-space offset. -/
def pageOf (off : Nat) : PageAt := pageNo (off / 4096)

/-- The offset of copy `i` of a page (R68). -/
def pageBase : PageKind → Nat → Nat
  | .cap, _ => 0x000000
  | .rom, _ => 0x001000
  | .tb, _ => 0x002000
  | .pwr, _ => 0x003000
  | .evh, _ => 0x004000
  | .evhRoute, i => 0x005000 + 0x1000 * i
  | .bwd, _ => 0x008000
  | .twd, _ => 0x009000
  | .tem, _ => 0x00A000
  | .fus, _ => 0x00B000
  | .cst, _ => 0x00C000
  | .kv, _ => 0x00D000
  | .kvSlot, _ => 0x00E000
  | .atu, _ => 0x00F000
  | .svc, _ => 0x010000
  | .i3c, _ => 0x011000
  | .pci, _ => 0x012000
  | .pair, _ => 0x013000
  | .lms, i => 0x014000 + 0x1000 * i
  | .cje, _ => 0x020000
  | .itu, _ => 0x021000
  | .vst, _ => 0x022000
  | .du, _ => 0x023000
  | .vstBank, i => 0x024000 + 0x1000 * i
  | .lane, i => 0x028000 + 0x1000 * i
  | .curve, i => 0x030000 + 0x1000 * i
  | .aes, i => 0x034000 + 0x1000 * i
  | .fgpCtl, i => 0x040000 + 0x4000 * i
  | .fgpWin, i => 0x041000 + 0x4000 * i
  | .fgpMb, i => 0x042000 + 0x4000 * i
  | .inst, i => 0x080000 + 0x1000 * i
  | .doorbell, i => 0x100000 + 0x1000 * i

/-- The register at page offset `off` of copy `i` of a page. -/
def reg (k : PageKind) (i off : Nat) : Nat := pageBase k i + off

/-- The number of the block a page belongs to (R67). -/
def blockNo : PageKind → Nat
  | .cap => 0x01 | .rom => 0x01 | .tb => 0x02 | .pwr => 0x03 | .evh => 0x04 | .evhRoute => 0x04
  | .bwd => 0x05 | .twd => 0x06 | .tem => 0x07 | .fus => 0x08 | .cst => 0x09 | .kv => 0x0A | .kvSlot => 0x0A
  | .atu => 0x0B | .cje => 0x0C | .lane => 0x0C | .curve => 0x0C | .aes => 0x0C | .inst => 0x0C
  | .doorbell => 0x0C | .itu => 0x0D | .fgpCtl => 0x0E | .fgpWin => 0x0E | .fgpMb => 0x0E | .vst => 0x0F
  | .vstBank => 0x0F | .du => 0x10 | .pci => 0x11 | .i3c => 0x12 | .svc => 0x13 | .lms => 0x14 | .pair => 0x15

/-- The page kind within the block (R68). -/
def kindNo : PageKind → Nat
  | .rom => 1 | .evhRoute => 1 | .kvSlot => 1 | .vstBank => 1 | .lane => 1 | .curve => 2 | .aes => 3
  | .fgpWin => 1 | .fgpMb => 2 | .inst => 4 | .doorbell => 5 | _ => 0

/-- PAGE_ID of copy `i` of a page (R65). -/
def pageId (k : PageKind) (i : Nat) : Word :=
  BitVec.ofNat 32 (kindNo k * 2 ^ 24 + blockNo k * 2 ^ 16 + i % 256 * 2 ^ 8 + 1)

/-- Whether copy `i` of a page exists on a part (R68, presence columns). -/
def pagePresent (p : Part) : PageKind → Nat → Bool
  | .vstBank, i => decide (i < p.banks)
  | .lane, i => decide (i < p.lanes)
  | .curve, i => decide (i < p.curves)
  | .aes, i => decide (i < p.aes)
  | .fgpCtl, i => decide (i < p.ports)
  | .fgpWin, i => decide (i < p.ports)
  | .fgpMb, i => decide (i < p.ports)
  | .inst, i => decide (i ≤ p.vfs)
  | .doorbell, i => decide (i ≤ p.vfs)
  | .pair, _ => p.hasPair
  | _, _ => true

/-- The bits PAGE_IRQ_STATUS of a page defines (R66); bit 31 is defined in every page. -/
def irqMask : PageKind → Nat → Word
  | .cap, _ => 0x80000003
  | .rom, _ => 0x8000001F
  | .tb, _ => 0x80000007
  | .pwr, _ => 0x80000007
  | .evh, _ => 0x80000001
  | .bwd, _ => 0x80000003
  | .twd, _ => 0x80000007
  | .tem, _ => 0x8000000F
  | .fus, _ => 0x80000007
  | .cst, _ => 0x8000003F
  | .kv, _ => 0x80000007
  | .atu, _ => 0x80000003
  | .svc, _ => 0x8000000F
  | .i3c, _ => 0x8000000F
  | .pci, _ => 0x8000003F
  | .pair, _ => 0x80000FFF
  | .lms, i => if i = 0 then 0x800003FF else 0x80000003
  | .cje, _ => 0x8000003F
  | .itu, _ => 0x80000003
  | .vst, _ => 0x80000003
  | .du, _ => 0x8001FFFF
  | .vstBank, _ => 0x80000001
  | .lane, _ => 0x80000001
  | .curve, _ => 0x80000001
  | .aes, _ => 0x80000001
  | .fgpCtl, _ => 0x8000013F
  | .fgpMb, _ => 0x80000307
  | .inst, i => if i = 0 then 0x8000070F else 0x8000000F
  | _, _ => 0x80000000

/-- The registers of copy `i` of a page, beyond the header. -/
def pageRows : PageKind → Nat → List RegRow
  | .cap, _ => rowsCap
  | .rom, _ => rowsRom
  | .tb, _ => rowsTb
  | .pwr, _ => rowsPwr
  | .evh, _ => rowsEvh
  | .evhRoute, _ => rowsEvhRoute
  | .bwd, _ => rowsBwd
  | .twd, _ => rowsTwd
  | .tem, _ => rowsTem
  | .fus, _ => rowsFus
  | .cst, _ => rowsCst
  | .kv, _ => rowsKv
  | .kvSlot, _ => rowsKvSlot
  | .atu, _ => rowsAtu
  | .svc, _ => rowsSvc
  | .i3c, _ => rowsI3c
  | .pci, _ => rowsPci
  | .pair, _ => rowsPair
  | .lms, i => if i = 0 then rowsLms else rowsLms.filter fun r => decide (r.base < 0x080)
  | .cje, _ => rowsCje
  | .itu, _ => rowsItu
  | .vst, _ => rowsVst
  | .du, _ => rowsDu
  | .vstBank, _ => rowsVstBank
  | .lane, _ => rowsLaneOnly ++ rowsLane
  | .curve, _ => rowsLane
  | .aes, _ => rowsLane
  | .fgpCtl, _ => rowsFgpCtl
  | .fgpWin, _ => rowsFgpWin
  | .fgpMb, _ => rowsFgpMb
  | .inst, i => if i = 0 then rowsInst else rowsInst.filter fun r => decide (r.base < 0x400)
  | .doorbell, _ => rowsDoorbell

/-- The row of page offset `off`, none where the offset is reserved. -/
def rowAt (k : PageKind) (i off : Nat) : Option RegRow := (pageRows k i).find? fun r => r.has off

/-- The reset value of a routing entry: sources 316 to 319 start routed to PF vectors 0 to 3 (R471). -/
def routeReset (s : Nat) : Word :=
  if 316 ≤ s ∧ s ≤ 319 then BitVec.ofNat 32 (0x100 + 0x200 * (s - 316)) else 0

/-- The reset value of CST_OWNERc (R325). -/
def ownerReset (c : Nat) : Word :=
  if c ≤ 3 then 1
  else if c ≤ 67 then BitVec.ofNat 32 (3 + 0x100 * ((c - 4) / 4))
  else if 132 ≤ c ∧ c ≤ 139 then 0x4003
  else 0

/-- The value a register-space offset holds after the reset that covers it: what an unlisted offset of the register
file reads as. -/
def resetValue (off : Nat) : Word :=
  match pageOf off with
  | .page .cst _ =>
    if 0x400 ≤ off % 4096 ∧ off % 4096 < 0x800 then ownerReset ((off % 4096 - 0x400) / 4) else 0
  | .page .evhRoute i =>
    if 0x100 ≤ off % 4096 ∧ off % 4096 < 0x400 then routeReset (192 * i + (off % 4096 - 0x100) / 4) else 0
  | .page k i =>
    match rowAt k i (off % 4096) with
    | some r => r.reset
    | none => 0
  | _ => 0

end Sys2Proof.Machine
end

