-- ==== Sys2Proof/Machine/Ops.lean ====
section
/-! DEFINITION. Machine/Ops.lean: the named operations every meaning goes through: registers, ports, frames, timers, free bytes,
measurement slots, and which pages answer. -/
namespace Sys2Proof.Machine

/-! ### The register file -/

/-- The word at a register-space offset of the register file. -/
def rget (s : State) (off : Nat) : Word := Tbl.get resetValue s.regs off
/-- The register file with a word stored. -/
def rset (s : State) (off : Nat) (v : Word) : State := { s with regs := Tbl.set resetValue s.regs off v }
/-- A field of a register. -/
def rfld (s : State) (off hi lo : Nat) : Nat := fld (rget s off) hi lo
/-- A bit of a register. -/
def rbit (s : State) (off i : Nat) : Bool := bit (rget s off) i
/-- A register with a field replaced. -/
def rsetf (s : State) (off hi lo v : Nat) : State := rset s off (setFld (rget s off) hi lo v)
/-- A register with bit `i` set to `b`. -/
def rsetb (s : State) (off i : Nat) (b : Bool) : State := rsetf s off i i (b2n b)
/-- A counter field raised by `n`, saturating at its width. -/
def rcount (s : State) (off hi lo n : Nat) : State :=
  rsetf s off hi lo (satAdd (rfld s off hi lo) n (2 ^ (hi + 1 - lo) - 1))
/-- Every register from `lo` up to but not including `hi` back at its reset value. -/
def rclear (s : State) (lo hi : Nat) : State :=
  { s with regs := s.regs.clearRange lo hi, rwoUsed := s.rwoUsed.clearRange lo hi }
/-- The registers of copy `i` of a page back at their reset values. -/
def pageClear (s : State) (k : PageKind) (i : Nat) : State := rclear s (pageBase k i) (pageBase k i + 4096)
/-- The bytes of `n` consecutive registers from `off`, least significant byte first. -/
def rbytes (s : State) (off n : Nat) : Bytes :=
  (List.range n).flatMap fun i => leBytes 4 (rget s (off + 4 * i)).toNat
/-- Consecutive registers from `off` loaded with words. -/
def rsetWords (s : State) (off : Nat) : List Word → State
  | [] => s
  | w :: t => rsetWords (rset s off w) (off + 4) t
/-- `n` consecutive registers from `off` loaded with bytes, zero beyond their end. -/
def rsetBytes (s : State) (off n : Nat) (bs : Bytes) : State :=
  rsetWords s off ((List.range n).map fun i => wordAtLe bs i)

/-! ### Free values, outputs -/

/-- `n` drawn bytes (the next free bytes) and the state after the draw. -/
def draw (s : State) (n : Nat) : Bytes × State :=
  ((List.range n).map fun i => Config.freeByte (s.fresh + i), { s with fresh := s.fresh + n })

/-- Something driven outward. -/
def emit (s : State) (o : Out) : State := { s with out := o :: s.out }

/-! ### Time (R52) -/

/-- The cycles left of a running duration. -/
def tget (s : State) (t : Timer) : Option Nat := (s.timers.find? fun e => e.1 == t).map (·.2)
/-- A duration stopped. -/
def tstop (s : State) (t : Timer) : State := { s with timers := s.timers.filter fun e => !(e.1 == t) }
/-- A duration started (again) with `n` cycles to go. -/
def tset (s : State) (t : Timer) (n : Nat) : State :=
  { s with timers := (t, n) :: s.timers.filter fun e => !(e.1 == t) }
/-- The limit of a running duration changes from `old` to `new` cycles: what has passed counts against the new one. -/
def tlimit (s : State) (t : Timer) (old new : Nat) : State :=
  match tget s t with
  | some k => if old = new then s else tset s t (new - (old - k))
  | none => s
/-- The cycles of `n` microseconds (R13). -/
def us (n : Nat) : Nat := 100 * n
/-- The cycles of `n` milliseconds. -/
def ms (n : Nat) : Nat := 100000 * n
/-- `n` counted TBCLK cycles pass: TB_TIME advances and every running duration comes nearer; nothing counts during
timebase loss (R55).  The hardware phase of a reset has ended once its bound at SS has passed (R253). -/
def elapse (s : State) (n : Nat) : State :=
  if s.tbLoss then s
  else { s with tbTime := (s.tbTime + n) % 2 ^ 64, timers := s.timers.map fun e => (e.1, e.2 - n),
                flashLanes := if n = 0 then s.flashLanes else [],
                hw := s.hw.bind fun h => if h.2 ≤ n then none else some (h.1, h.2 - n) }
/-- One TBCLK cycle passes with nothing commanded (assumption log 6); TBCLK is not valid before POR ends (R51). -/
def tick (s : State) : State := if s.rst = .por then s else elapse s 1
/-- The event at the end of a running duration: the cycles left pass, then `k` happens.  Nothing where the duration does
not run or the timebase is lost (R55). -/
def fire (s : State) (t : Timer) (k : State → State) : State :=
  match tget s t with
  | none => s
  | some n => if s.tbLoss then s else k (tstop (elapse s n) t)

/-! ### Presence, power, reset (R25, R70) -/

/-- Power domain `b` of R476 is on. -/
def domOn (s : State) (b : Nat) : Bool := !bit s.domOff b

/-- The switched domain of a page, none in the always-on control domain (R25, R476). -/
def domainOf : PageKind → Nat → Option Nat
  | .fgpCtl, i => some i
  | .fgpWin, i => some i
  | .fgpMb, i => some i
  | .vstBank, i => some (16 + i)
  | .lane, _ => some 20
  | .curve, _ => some 21
  | .aes, _ => some 22
  | .cst, _ => some 29
  | .pci, _ => some 25
  | .lms, i => some (26 + i)
  | .i3c, _ => some 28
  | .svc, _ => some 28
  | _, _ => none

/-- Whether CONTROL covers a page (R67). -/
def controlCovers : PageKind → Bool
  | .rom => true
  | .evh => true
  | .evhRoute => true
  | .bwd => true
  | .twd => true
  | .fus => true
  | .cst => true
  | .kv => true
  | .kvSlot => true
  | .cje => true
  | .curve => true
  | .aes => true
  | .inst => true
  | .doorbell => true
  | .itu => true
  | .pci => true
  | .i3c => true
  | .svc => true
  | _ => false
/-- Whether the hardware phase in progress covers a page (R67, R70, R253). -/
def phaseCovers (k : PageKind) : Option (ResetRank × Nat) → Bool
  | none => false
  | some (.control, _) => controlCovers k
  | some (.device, _) => k ≠ .tb
  | some (.por, _) => true
/-- The hardware phase of a POR or DEVICE reset is in progress. -/
def higherPhase (s : State) : Bool := match s.hw with | some (.device, _) => true | some (.por, _) => true | _ => false
/-- Cycles of the hardware phase at its bound of 209.2 µs at SS (R253). -/
def phaseCycles : Nat := 20920
/-- CONTROL holds the scheduler in reset: up to the end of step 3 of R253, 1.05 µs from its trigger at SS (R40). -/
def schedulerHeld (s : State) : Bool :=
  match s.hw with
  | some (.control, n) => decide (phaseCycles < n + 105)
  | _ => false
/-- Sage and the Dills are halted by a reset (R253 step 1). -/
def coresHalted (s : State) : Bool := decide (s.rst ≠ .none) || s.hw.isSome

/-- Whether POR or DEVICE, while it is held, covers a page (R67); PORT and INSTANCE resets act on their own pages. -/
def coveredBy : PageKind → RstPhase → Bool
  | _, .por => true
  | .tb, .device => false
  | _, .device => true
  | _, .none => false

/-- The page's unit is powered and works: no reset holds its block. -/
def unitUp (s : State) (k : PageKind) (i : Nat) : Bool :=
  !coveredBy k s.rst && (match domainOf k i with | some b => domOn s b | none => true) &&
  !(match k with | .inst => s.instRst.contains i | .doorbell => s.instRst.contains i | _ => false)
/-- The page's unit is powered and its block is out of reset, the hardware phase of one included (R70). -/
def pageUp (s : State) (k : PageKind) (i : Nat) : Bool := unitUp s k i && !phaseCovers k s.hw

/-- The page's unit is present, powered and works. -/
def pageOn (s : State) (k : PageKind) (i : Nat) : Bool := pagePresent s.part k i && unitUp s k i

/-- PAGE_LOCK.lock as the page behaves: its own, or every page's while LOCKED (R75). -/
def pageLocked (s : State) (k : PageKind) (i : Nat) : Bool := s.locked || rbit s (reg k i 0x01C) 0

/-! ### Ports and frames -/

/-- Port `n`. -/
def port (s : State) (n : Nat) : Port := Tbl.get (fun _ => {}) s.ports n
/-- Port `n` replaced. -/
def setPort (s : State) (n : Nat) (p : Port) : State :=
  { s with ports := Tbl.set (fun _ => ({} : Port)) s.ports n p }
/-- Port `n` changed. -/
def modPort (s : State) (n : Nat) (f : Port → Port) : State := setPort s n (f (port s n))
/-- Port `n` is present, powered and out of reset. -/
def portOn (s : State) (n : Nat) : Bool := pageOn s .fgpCtl n
/-- Frame `f`. -/
def frame (s : State) (f : Nat) : Frame := Tbl.get (fun _ => {}) s.frames f
/-- Frame `f` replaced. -/
def setFrame (s : State) (f : Nat) (x : Frame) : State :=
  { s with frames := Tbl.set (fun _ => ({} : Frame)) s.frames f x }
/-- Every frame `g` holds for changed by `h`. -/
def mapFrames (s : State) (g : Nat → Frame → Bool) (h : Frame → Frame) : State :=
  (s.frames.filter fun e => g e.1 e.2).foldl (fun s e => setFrame s e.1 (h e.2)) s

/-! ### Hash lanes (R32, R33, R206, R209, R216) -/

/-- The job is a SELF_TEST. -/
def Job.tests (j : Job) : Bool := decide (fieldLe j.desc 0 1 = 0x30)
/-- The job holds hash lane `m`, as its unit or beside it. -/
def Job.holdsLane (j : Job) (m : Nat) : Bool := decide (j.unit = some (0, m)) || decide (j.lane = some m)
/-- A hash lane counts as reserved; a reservation set during a SELF_TEST counts from the test's end (R206, R209). -/
def laneReserved (s : State) (m : Nat) : Bool :=
  rbit s (reg .lane m 0x040) 0 && !rbit s (reg .cje 0 0x054) m &&
  !s.jobs.any fun e => e.2.tests && e.2.holdsLane m && !e.2.onRes
/-- The number of hash lanes reserved for the flash path (R33, R206, R216). -/
def lanesReserved (s : State) : Nat := countTrue ((List.range s.part.lanes).map (laneReserved s))
/-- Hash lane `m` can take flash-path work: powered, enabled and without a job, a test of a reserved lane giving way to a
port's chunk (R216). -/
def laneIdle (s : State) (m : Nat) : Bool :=
  pageOn s .lane m && !rbit s (reg .cje 0 0x054) m &&
  s.jobs.all fun e => !e.2.holdsLane m || (e.2.tests && e.2.onRes)
/-- An idle lane that is reserved for the flash path. -/
def laneOwn (s : State) (m : Nat) : Bool := laneIdle s m && laneReserved s m
/-- New flash-path work starts on lane `m`: an idle reserved lane if one exists, else any idle one, unless the scheduler is in
reset (R32, R40). -/
def laneTakes (s : State) (m : Nat) : Bool :=
  laneOwn s m || (laneIdle s m && !schedulerHeld s && !(List.range s.part.lanes).any (laneOwn s))
/-- The lane new flash-path work starts on, none where it waits. -/
def flashLane (s : State) : Option Nat := (List.range s.part.lanes).find? (laneTakes s)
/-- Flash-path work of `k` 128-byte blocks on lane `m` (R219). -/
def flashOn (s : State) (m k : Nat) : State :=
  { rcount s (reg .lane m 0x048) 31 0 k with flashLanes := m :: s.flashLanes.filter (· != m) }
/-- Flash-path work of `k` blocks on the lane it starts on. -/
def flashHash (s : State) (k : Nat) : State :=
  match flashLane s with
  | some m => if k = 0 then s else flashOn s m k
  | none => s

/-- The value of counter `c` of the counter store. -/
def counter (s : State) (c : Nat) : Nat := Tbl.get (fun _ => 0) s.ctr c

/-! ### Measurement slots (R239) -/

/-- The value of measurement slot `i`. -/
def mval (s : State) (i : Nat) : Bytes := (Tbl.get (fun _ => (zeros 64, 0)) s.meas i).1
/-- The extend count of measurement slot `i`. -/
def mcount (s : State) (i : Nat) : Nat := (Tbl.get (fun _ => (zeros 64, 0)) s.meas i).2
/-- Measurement slot `i` extended with record `r` (R239). -/
def extend (s : State) (i : Nat) (r : Bytes) : State :=
  let v := (sha512 (mval s i ++ sha512 r), satAdd (mcount s i) 1 0xFFFFFFFF)
  { s with meas := Tbl.set (fun _ => (zeros 64, 0)) s.meas i v }
/-- Measurement slot `i` back at its initial value. -/
def mclear (s : State) (i : Nat) : State := { s with meas := s.meas.erase i }
/-- The slot id of port `n`'s slot `k` (R239). -/
def pslot (n k : Nat) : Nat := 16 + 8 * n + k

end Sys2Proof.Machine
end

