-- ==== Sys2Proof/Machine/Flags.lean ====
section
/-! DEFINITION. Machine/Flags.lean: the status flags every page has: its interrupt bits and its error record (R65, R66). -/
namespace Sys2Proof.Machine

/-- PAGE_IRQ_STATUS bit `b` of copy `i` of a page set. -/
def irq (s : State) (k : PageKind) (i b : Nat) : State := rsetb s (reg k i 0x010) b true

/-- A hardware extend of D5, D6 or a port's slot 7: the ATU page's bit 1 is set with it. -/
def hwExtend (s : State) (i : Nat) (r : Bytes) : State := irq (extend s i r) .atu 0 1

/-- An error reported in PAGE_ERR_INFO: the first is recorded with its page offset and origin and sets bit 31 of
PAGE_IRQ_STATUS; a further one sets overflow only. -/
def report (s : State) (k : PageKind) (i code off origin : Nat) : State :=
  let a := reg k i 0x020
  if rbit s a 31 then rsetb s a 30 true
  else irq (rset s a (setFld (setFld (setFld (mk 15 0 code) 27 16 off) 29 28 origin) 31 31 1)) k i 31

end Sys2Proof.Machine
end

