-- ==== Sys2Proof/Machine/Operands.lean ====
section
/-! DEFINITION. Machine/Operands.lean: the operands of a register write as its block sees them (R16, R65). -/
namespace Sys2Proof.Machine

/-- A write as its block sees it: the access, the register-space offset, the data presented, the value the register showed, the
value it takes by its access codes (R16), and whether its page is locked. -/
structure WCtx where
  acc : Acc
  off : Nat
  data : Word
  old : Word
  new : Word
  locked : Bool
  deriving DecidableEq, Repr

/-- The error of a refused register write, at its page offset with origin 1 (R65). -/
def refuseW (s : State) (k : PageKind) (i code : Nat) (c : WCtx) : State := report s k i code (c.off % 4096) 1
/-- The register takes the value its access codes give. -/
def storeW (s : State) (c : WCtx) : State := rset s c.off c.new

end Sys2Proof.Machine
end

