-- ==== Sys2Proof/Machine/BusLog.lean ====
section
/-! DEFINITION. Machine/BusLog.lean: the bus error log (R79, R80). -/
namespace Sys2Proof.Machine

/-- The causes of R79. -/
inductive Cause
  | absent
  | off
  | reserved
  | size
  | readOnly
  | rights
  | busy
  deriving DecidableEq, Repr

/-- The code of a cause. -/
def Cause.code : Cause → Nat
  | .absent => 1 | .off => 2 | .reserved => 3 | .size => 4 | .readOnly => 5 | .rights => 6 | .busy => 7

/-- An access recorded in the bus error log (R79, R80): `size` in bytes, the data of a write as presented.  A log that a reset holds
takes no record (assumption log 111). -/
def busLog (s : State) (acc : Acc) (write : Bool) (off size : Nat) (data : Word) (c : Cause) : State :=
  if !pageUp s .cap 0 then s else
  let st := reg .cap 0 0x080
  let e := rfld s st 11 8
  let n := rfld s st 4 0
  let a := reg .cap 0 (0x100 + 16 * e)
  let sz := if size = 1 then 0 else if size = 2 then 1 else if size = 4 then 2 else 3
  let s := rset s a (BitVec.ofNat 32 (off % 2 ^ 24))
  let s := rset s (a + 4) (mk 7 0 acc.master.toNat ||| mk 8 8 (b2n write) ||| mk 9 9 (b2n acc.priv) ||| mk 11 10 sz |||
    mk 15 12 c.code)
  let s := rset s (a + 8) (if write then data else 0)
  let s := rset s (a + 12) (BitVec.ofNat 32 s.tbTime)
  let s := rsetf (rsetf s st 4 0 (min (n + 1) 16)) st 11 8 ((e + 1) % 16)
  let s := irq (rcount s st 31 16 1) .cap 0 0
  if n = 16 then irq s .cap 0 1 else s

/-- A command write refused because its block is busy (cause 7). -/
def busyW (s : State) (c : WCtx) : State := busLog s c.acc true c.off 4 c.data .busy

end Sys2Proof.Machine
end

