-- ==== Sys2Proof/Machine/PwrBase.lean ====
section
/-! DEFINITION. Machine/PwrBase.lean: what wakes the device (R485, R487). -/
namespace Sys2Proof.Machine

/-- A register of the PWR page. -/
def pwrReg (off : Nat) : Nat := reg .pwr 0 off
/-- PWR_STATUS.state: 0 RUN, 1 ARMED, 2 ENTERING, 3 REST, 4 WAKING. -/
def pwrState (s : State) : Nat := rfld s (pwrReg 0x040) 2 0
/-- The state changed. -/
def setPwrState (s : State) (st : Nat) : State := rsetf s (pwrReg 0x040) 2 0 st
/-- A refused or abandoned entry (R488, R489). -/
def restCode (s : State) (code off : Nat) : State :=
  irq (report (rsetf s (pwrReg 0x040) 31 16 code) .pwr 0 code off (if off = 0 then 0 else 1)) .pwr 0 1
/-- An accepted entry abandoned by a wake source (R487). -/
def abandonRest (s : State) : State := restCode (rcount s (pwrReg 0x054) 31 16 1) 0x0307 0
/-- The cycles of steps 2 to 5 of a wake (R486). -/
def wakeCycles : Nat := 6000
/-- The wake of R486 begins; `cause` is recorded when it completes. -/
def startWake (s : State) (cause : Nat) : State :=
  tset (tstop { setPwrState s 4 with pwr := { s.pwr with cause := cause } } .wake) .wakeDone wakeCycles
/-- A wake source (R485, R487). -/
def wakeSource (s : State) (cause : Nat) : State :=
  match pwrState s with
  | 1 => abandonRest (rsetf (setPwrState s 0) (pwrReg 0x040) 10 8 cause)
  | 2 => abandonRest (startWake s cause)
  | 3 => startWake (rset s (pwrReg 0x058) (BitVec.ofNat 32 (min ((s.tbTime - s.pwr.since) / 100) 0xFFFFFFFF))) cause
  | _ => s

/-- The switched domain of an island of R58, none in the always-on control domain. -/
def islandDomain (k : Nat) : Option Nat :=
  if k < 16 then some k
  else if k < 32 then some (k - 16)
  else if k < 40 then some 20
  else if k < 44 then some 21
  else if k < 46 then some 22
  else if k = 46 then some 23
  else if k < 50 then some 24
  else if k < 54 then some (16 + (k - 50))
  else if k = 58 then some 29
  else if k = 61 ∨ k = 62 then some (26 + (k - 61))
  else if k = 63 then some 25
  else none
/-- Domains marked off; a measurement in one of them will have no valid result (R60). -/
def domsOff (s : State) (doms : Word) : State :=
  { s with domOff := s.domOff ||| doms,
           dly := s.dly.map fun r => { r with spoiled := r.spoiled || (match islandDomain r.island with | some b => bit doms b | none => false) } }

end Sys2Proof.Machine
end

