-- ==== Sys2Proof/Machine/LmsBase.lean ====
section
/-! DEFINITION. Machine/LmsBase.lean: sending on the Lomes ring: sides, routes and reliable delivery (R407 to R412). -/
namespace Sys2Proof.Machine

/-- Side `x`: 0 W, 1 E. -/
def side (s : State) (x : Nat) : Side := Tbl.get (fun _ => {}) s.sides x
/-- Side `x` replaced. -/
def setSide (s : State) (x : Nat) (v : Side) : State := { s with sides := Tbl.set (fun _ => ({} : Side)) s.sides x v }
/-- Reliable delivery with node `n`. -/
def peer (s : State) (n : Nat) : Peer := Tbl.get (fun _ => {}) s.peers n
/-- Reliable delivery with node `n` replaced. -/
def setPeer (s : State) (n : Nat) (p : Peer) : State := { s with peers := Tbl.set (fun _ => ({} : Peer)) s.peers n p }

/-- This node's number (R271). -/
def myNode (s : State) : Nat := rfld s (reg .rom 0 0x050) 9 4
/-- A register of LMS page 0. -/
def lms (off : Nat) : Nat := reg .lms 0 off
/-- The types of R408 that are reliable. -/
def reliable (t : Nat) : Bool :=
  t ∈ [0x10, 0x11, 0x12, 0x30, 0x31, 0x32, 0x33, 0x34, 0x35, 0x36, 0x40, 0x41, 0x42, 0x50]
/-- A side is UP. -/
def sideUp (s : State) (x : Nat) : Bool := decide ((side s x).st = .up)

/-- Position of a node in the ring order. -/
def position (t : Topo) (n : Nat) : Option Nat := (List.range t.entries.length).find? fun k =>
  (t.entries[k]?).any fun e => decide (e.1 = n)
/-- The node stands in the TOPOLOGY in force. -/
def reachable (s : State) (n : Nat) : Bool :=
  match s.topo with | some t => (position t n).isSome | none => false

/-- Hops to a node going E, and going W (R410). -/
def hopsTo (s : State) (n : Nat) : Option (Nat × Nat) :=
  match s.topo with
  | none => none
  | some t =>
    match position t (myNode s), position t n with
    | some a, some b =>
      let k := t.entries.length
      some ((b + k - a) % k, (a + k - b) % k)
    | _, _ => none
/-- Going E from this node to `n` crosses the break, which lies after position `brk`. -/
def crossesBreak (t : Topo) (a hops brk : Nat) : Bool :=
  (List.range hops).any fun i => decide ((a + i) % t.entries.length = brk)
/-- The side a unicast frame to `n` is routed to (R410): the fewer hops, E on a tie; in WRAPPED the side whose path does not cross
the break.  A node that stands in no TOPOLOGY is sent to on E. -/
def routeSide (s : State) (n : Nat) : Nat :=
  match s.topo, hopsTo s n with
  | some t, some (e, w) =>
    (match t.brk, position t (myNode s) with
     | some b, some a => if crossesBreak t a e b then 0 else 1
     | _, _ => if w < e then 0 else 1)
  | _, _ => 1
/-- The lane a frame routed to side `x` leaves on, and whether it is turned there: a wrapped side's frames leave on the other
(R410). -/
def laneFor (s : State) (x : Nat) : Nat × Bool := if (side s x).wrapped then (1 - x, true) else (x, false)

/-- A frame is put on a side's transmit lane, unless the node does not transmit there (R51, R55, R427). -/
def transmit (s : State) (x : Nat) (f : Frame17) : State :=
  let (l, turned) := laneFor s x
  if s.tbLoss ∨ (side s l).st = .down ∨ !domOn s (26 + l) then s
  else emit s (.lomes l { f with flags := if turned ∧ !f.flags.testBit 2 then f.flags + 4 else f.flags })

/-- The header of a frame from this node to `n` (R407): every frame carries the acknowledgement. -/
def frameTo (s : State) (n type : Nat) (payload : Bytes) : Frame17 :=
  { type := type, flags := b2n (reliable type) + 2, dst := n, src := myNode s, ack := (peer s n).rxNext,
    srcInc := s.incarnation, dstInc := (peer s n).inc, payload := payload }
/-- The cycles of the retransmission timeout (R411, R429). -/
def retxCycles (s : State) : Nat := us (rfld s (lms 0x084) 7 0) + 1

/-- Frames to node `n` are refused at this source: it is a duplicate number, or the last TOPOLOGY omits it; an ISOLATED node that has
accepted none reaches no other (R411, R413, R414). -/
def barred (s : State) (n : Nat) : Bool := s.dups.contains n || ((s.topo.isSome || s.isolated) && !reachable s n)
/-- Waiting reliable frames enter the window of 8 and are transmitted (R411); to a node that is barred
they are not. -/
def pump (s : State) (n : Nat) : Nat → State
  | 0 => s
  | k + 1 =>
    let p := peer s n
    match p.queue with
    | [] => s
    | f :: rest =>
      if p.unacked.length ≥ 8 then s
      else
        let f := { f with seq := p.txSeq, ack := p.rxNext, srcInc := s.incarnation, dstInc := p.inc }
        let s := setPeer s n { p with queue := rest, txSeq := (p.txSeq + 1) % 65536, unacked := p.unacked ++ [(f, 0)] }
        let s := if barred s n then s else transmit (tstop s (.ackDelay n)) (routeSide s n) f
        pump (tset s (.retx n f.seq) (retxCycles s)) n k

/-- A frame to node `n`: a datagram at once, a reliable frame in its turn (R408, R411).  A reliable frame to a barred
node is given up at once (R411, R413, R414), by the retransmit row; a datagram to a duplicate number is not sent. -/
def sendFrame (s : State) (n type : Nat) (payload : Bytes) : State :=
  let f := frameTo s n type payload
  if reliable type then
    let p := peer s n
    let s := pump (setPeer s n { p with queue := p.queue ++ [f] }) n 8
    match (peer s n).unacked with
    | (u, _) :: _ => if barred s n then tset s (.retx n u.seq) 1 else s
    | [] => s
  else if s.dups.contains n then s
  else transmit (tstop s (.ackDelay n)) (routeSide s n) f

/-- A datagram sent out of a side whatever its destination. -/
def sendOn (s : State) (x n type : Nat) (payload : Bytes) : State := transmit s x (frameTo s n type payload)

end Sys2Proof.Machine
end

