-- ==== Sys2Proof/Machine/Evh.lean ====
section
/-! DEFINITION. Machine/Evh.lean: the event hub (R460 to R467): sources, their lines, and delivery to cores, MSI-X vectors and the
ring.  `settle` delivers what a command changed; every meaning ends with it. -/
namespace Sys2Proof.Machine

/-! ### PCIe functions as the hub and the ITU see them -/

/-- The endpoint is powered and out of reset: CONTROL keeps link and configuration space, the hardware phase of POR and DEVICE holds the
LTSSM in Detect (R376). -/
def pciUp (s : State) : Bool := pageOn s .pci 0 && !higherPhase s
/-- Configuration space of function `fn`. -/
def pciFn (s : State) (fn : Nat) : PciFn := Tbl.get (fun _ => {}) s.pci fn
/-- Configuration space of function `fn` replaced. -/
def setPciFn (s : State) (fn : Nat) (x : PciFn) : State := { s with pci := Tbl.set (fun _ => ({} : PciFn)) s.pci fn x }
/-- MSI-X entry `v` of function `fn`. -/
def msixEnt (s : State) (fn v : Nat) : MsixEnt := Tbl.get (fun _ => {}) s.msix (64 * fn + v)
/-- MSI-X entry replaced. -/
def setMsix (s : State) (fn v : Nat) (x : MsixEnt) : State :=
  { s with msix := Tbl.set (fun _ => ({} : MsixEnt)) s.msix (64 * fn + v) x }
/-- ATS Enable of function `i` (R360). -/
def atsOn (s : State) (i : Nat) : Bool := (pciFn s i).ats
/-- PRI Enable: the PF's, for the PF and every VF (R360). -/
def priOn (s : State) (_i : Nat) : Bool := (pciFn s 0).pri

/-- A message of vector `v` of function `fn` is sent, or stays pending while its function or entry is masked, Bus Master Enable is 0
or the PF is in D3hot (R359). -/
def sendMsix (s : State) (fn v : Nat) : State :=
  let f := pciFn s fn
  let e := msixEnt s fn v
  if !f.msixEn then s
  else if f.fmask ∨ e.masked ∨ !f.bme ∨ (pciFn s 0).d3 then setMsix s fn v { e with pend := true }
  else emit (setMsix s fn v { e with pend := false }) (.msix fn v e.addr e.data)

/-- The OR of vector `v` of function `fn` falls to 0 while the vector is masked: its pending message is withdrawn (R359). -/
def dropPending (s : State) (fn v : Nat) : State :=
  let e := msixEnt s fn v
  if e.pend ∧ (e.masked ∨ (pciFn s fn).fmask) then setMsix s fn v { e with pend := false } else s

/-! ### Sources (R460 to R462) -/

/-- The source of a page whose source is the whole page. -/
def pageSource : PageKind → Nat → Option Nat
  | .cap, _ => some 0 | .rom, _ => some 1 | .tb, _ => some 2 | .pwr, _ => some 3 | .evh, _ => some 4
  | .bwd, _ => some 5 | .twd, _ => some 6 | .tem, _ => some 7 | .fus, _ => some 8 | .cst, _ => some 9
  | .kv, _ => some 10 | .kvSlot, _ => some 11 | .atu, _ => some 12 | .svc, _ => some 13 | .i3c, _ => some 14
  | .pci, _ => some 15 | .pair, _ => some 16 | .lms, i => some (17 + i) | .cje, _ => some 19 | .itu, _ => some 20
  | .vst, _ => some 21 | .du, _ => some 22 | .evhRoute, t => some (23 + t) | .vstBank, i => some (26 + i)
  | .lane, i => some (30 + i) | .curve, i => some (38 + i) | .aes, i => some (42 + i) | _, _ => none

/-- The port bits that are sources of their own: bit and number j (R461). -/
def portBits : PageKind → List (Nat × Nat)
  | .fgpCtl => [(0, 0), (1, 1), (2, 2), (3, 3), (4, 4), (5, 5), (8, 6), (31, 7)]
  | .fgpWin => [(31, 8)]
  | .fgpMb => [(0, 9), (1, 10), (2, 11), (8, 12), (9, 13), (31, 14)]
  | _ => []

/-- The sources a page's set and enabled bits `w` make active. -/
def sourcesOf (s : State) (k : PageKind) (i : Nat) (w : Word) : List Nat :=
  if w = 0 then [] else
  match pageSource k i with
  | some n => [n]
  | none =>
    match k with
    | .inst =>
      (if bit w 0 then [316 + 4 * i + rfld s (reg .inst i 0x058) 17 16] else []) ++
      (if w &&& 0xFFFFFFFE = 0 then [] else [316 + 4 * i])
    | .doorbell => if bit w 31 then [316 + 4 * i] else []
    | _ => ((portBits k).filter fun b => bit w b.1).map fun b => 44 + 17 * i + b.2

/-- The active sources (R460), read from the pages; a page that does not answer has no active line. -/
def activeSources (s : State) : List Nat :=
  if !pageUp s .evh 0 then [] else
  let pages := s.regs.flatMap fun e =>
    if e.1 % 4096 = 0x010 then
      (match pageOf e.1 with
       | .page k i => if pagePresent s.part k i && pageUp s k i then sourcesOf s k i (e.2 &&& rget s (e.1 + 4)) else []
       | _ => [])
    else []
  let w := rget s (reg .evh 0 0x048)
  let preq := if w = 0 then [] else (List.range s.part.ports).flatMap fun n =>
    (if bit w n then [44 + 17 * n + 15] else []) ++ (if bit w (16 + n) then [44 + 17 * n + 16] else [])
  (pages ++ preq).eraseDups

/-- The route entry of a source (R471). -/
def route (s : State) (src : Nat) : Word := rget s (reg .evhRoute (src / 192) (0x100 + 4 * (src % 192)))
/-- The source is a VF's vector. -/
def vfSource (src : Nat) : Bool := decide (320 ≤ src)
/-- The MSI-X vectors a source reaches, as function times 64 plus vector (R463). -/
def vectorsOf (s : State) (src : Nat) : List Nat :=
  if vfSource src then [64 * ((src - 316) / 4) + (src - 316) % 4]
  else if bit (route s src) 8 then [fld (route s src) 14 9] else []
/-- The core's view: its highest-priority active source, lowest number among equals, with its priority (R464). -/
def coreTop (s : State) (act : List Nat) (q : Nat) : Option (Nat × Nat) :=
  act.foldl (fun best src =>
    let r := route s src
    let p := fld r 6 4
    if !bit r q ∨ p = 0 then best
    else match best with
      | none => some (src, p)
      | some (b, bp) => if bp < p ∨ (bp = p ∧ src < b) then some (src, p) else best) none
/-- Core `q`'s line is asserted. -/
def coreLine (s : State) (act : List Nat) (q : Nat) : Bool :=
  match coreTop s act q with
  | some (_, p) => decide (rfld s (reg .evh 0 (0x060 + 16 * q)) 2 0 < p)
  | none => false

/-- The status word an EVENT frame carries for a source (R466). -/
def sourceStatus (s : State) (src : Nat) : Word :=
  let enabled (k : PageKind) (i : Nat) : Word := rget s (reg k i 0x010) &&& rget s (reg k i 0x014)
  if 316 ≤ src then enabled .inst ((src - 316) / 4)
  else if 44 ≤ src then
    (let n := (src - 44) / 17
     let j := (src - 44) % 17
     if 15 ≤ j then rget s (reg .evh 0 0x048)
     else enabled (if j < 8 then .fgpCtl else if j = 8 then .fgpWin else .fgpMb) n)
  else
    ([PageKind.cap, .rom, .tb, .pwr, .evh, .bwd, .twd, .tem, .fus, .cst, .kv, .kvSlot, .atu, .svc, .i3c, .pci, .pair, .lms,
      .lms, .cje, .itu, .vst, .du][src]?).elim
      (if src < 26 then enabled .evhRoute (src - 23) else if src < 30 then enabled .vstBank (src - 26)
       else if src < 38 then enabled .lane (src - 30) else if src < 42 then enabled .curve (src - 38)
       else enabled .aes (src - 42))
      (fun k => enabled k (if src = 18 then 1 else 0))

/-- An EVENT is queued at the node that receives it (R421). -/
def queueEvent (s : State) (src origin : Nat) (w : Word) : State :=
  if s.evq.length ≥ 64 then irq (rcount s (lms 0x090) 31 16 1) .lms 0 6
  else irq { s with evq := s.evq ++ [(src, origin, w)] } .lms 0 5

/-- An EVENT frame leaves for event_node (R466); one for this node itself is queued here. -/
def sendEvent (s : State) (src : Nat) : State :=
  let n := rfld s (lms 0x084) 21 16
  let w := sourceStatus s src
  let s := rcount s (reg .evh 0 0x044) 31 16 1
  if n = myNode s then queueEvent s src n w
  else sendFrame s n 0x20 (leBytes 2 src ++ zeros 2 ++ leBytes 4 w.toNat ++ leBytes 4 s.tbTime)

/-- The source is routed to a core (R463). -/
def routedToCore (s : State) (src : Nat) : Bool := decide (fld (route s src) 3 0 ≠ 0) && decide (fld (route s src) 6 4 ≠ 0)
/-- A line routed to a core or to a vector that becomes active is a wake source (R485); lines that are no longer active are
forgotten. -/
def wakeOnLines (s : State) (act : List Nat) : State :=
  if pwrState s = 0 then s else
  let wakes := act.any fun src => !s.pwr.seen.contains src && (routedToCore s src || !(vectorsOf s src).isEmpty)
  let s := { s with pwr := { s.pwr with seen := act } }
  if wakes then wakeSource s 1 else s

/-- What the hub delivers of the lines as they stand: messages of vectors whose OR has become 1, EVENT frames of routed lines that have
become active, and the cores' lines (R464 to R466). -/
def deliverLines (s : State) : State :=
  let s := wakeOnLines s (activeSources s)
  let act := activeSources s
  if act = [] ∧ s.vecs = [] ∧ s.ringed = [] ∧ s.coreLines = [] then s else
  let vecs := (act.flatMap (vectorsOf s)).eraseDups
  let ringed := act.filter fun src => bit (route s src) 15
  let cores := (List.range 4).filter fun q => coreLine s act q
  let newV := vecs.filter fun v => !s.vecs.contains v
  let newR := ringed.filter fun r => !s.ringed.contains r
  let newC := cores.filter fun q => !s.coreLines.contains q
  let gone := s.vecs.filter fun v => !vecs.contains v
  let s := { s with vecs := vecs, ringed := ringed, coreLines := cores }
  let s := gone.foldl (fun s v => dropPending (tstop s (.resend v)) (v / 64) (v % 64)) s
  let again := rfld s (reg .evh 0 0x040) 15 0
  let s := newV.foldl (fun s v =>
    let s := sendMsix s (v / 64) (v % 64)
    if again = 0 then s else tset s (.resend v) (us again + 1)) s
  let s := newC.foldl (fun s q => rcount s (reg .evh 0 (0x068 + 16 * q)) 31 0 1) s
  newR.foldl sendEvent s
/-- What the hub delivers after a command; an EVENT queued at this node itself changes a line of LMS page 0, which is delivered
too. -/
def settle (s : State) : State :=
  let t := deliverLines s
  if rget t (lms 0x010) = rget s (lms 0x010) then t else deliverLines t

/-- The outcome of a meaning: the state it leaves, its events delivered. -/
def done (s : State) : Host.Outcome State Fault Refusal := .next (settle s)

/-- MSIX_RESEND (R465). -/
def execMsixResend (fn v : Nat) (s : State) : Host.Outcome State Fault Refusal :=
  done (fire s (.resend (64 * fn + v)) fun s =>
    let again := rfld s (reg .evh 0 0x040) 15 0
    if s.vecs.contains (64 * fn + v) ∧ again ≠ 0 then
      tset (sendMsix s fn v) (.resend (64 * fn + v)) (us again + 1)
    else s)

/-- PREQ_CHANGE (R100, R462): the filtered level changes and sets its fall or rise bit; a bit already set is an overrun.  Nothing
where the level does not change, and the filter keeps its level during timebase loss (R55). -/
def execPreqChange (n : Nat) (level : Bool) (s : State) : Host.Outcome State Fault Refusal :=
  done (
    if !pagePresent s.part .fgpCtl n ∨ (port s n).preq = level ∨ s.tbLoss ∨ s.rst = .por then s else
    let s := modPort s n fun p => { p with preq := level }
    if !pageUp s .evh 0 then s else
    let b := if level then 16 + n else n
    let a := reg .evh 0 0x048
    if rbit s a b then irq s .evh 0 0 else rsetb s a b true)

end Sys2Proof.Machine
end

