-- ==== Sys2Proof/Machine/FuseBase.lean ====
section
/-! DEFINITION. Machine/FuseBase.lean: what the fuse array says: words at READ and STRICT, the fuse sense, life cycle, owner digests,
overrides, debug policy and tamper count (R303 to R308, R258, R259). -/
namespace Sys2Proof.Machine

/-- A word at READ. -/
def fuseRead (s : State) (w : Nat) : Word := Tbl.get (fun _ => 0) s.fuseR w
/-- A word at STRICT. -/
def fuseStrict (s : State) (w : Nat) : Word := Tbl.get (fun _ => 0) s.fuseS w
/-- A word as the last fuse sense loaded it (R305). -/
def shadow (s : State) (w : Nat) : Word := Tbl.get (fun _ => 0) s.fuseSh w
/-- A word after a pulse: bits that read 1 at READ and at STRICT (R303: a bit that reads 1 at STRICT reads 1 at READ). -/
def setFuse (s : State) (w : Nat) (r t : Word) : State :=
  { s with fuseR := Tbl.set (fun _ => (0 : Word)) s.fuseR w (r ||| t), fuseS := Tbl.set (fun _ => (0 : Word)) s.fuseS w t }
/-- A word is marginal (R305). -/
def fuseWeak (s : State) (w : Nat) : Bool := decide (fuseRead s w &&& ~~~ fuseStrict s w ≠ 0)
/-- A bank holds a marginal word; only words with a bit at READ can be marginal. -/
def bankWeak (s : State) (b : Nat) : Bool := s.fuseR.any fun e => decide (e.1 / 64 = b) && fuseWeak s e.1

/-- The number of 0 bits of a word. -/
def zeroBits (w : Word) : Nat := 32 - countTrue ((List.range 32).map fun i => bit w i)
/-- Z of R311: the 0 bits of a bank's 63 words other than its integrity word, at READ. -/
def bankZeros (s : State) (b : Nat) : Nat :=
  ((List.range 63).map fun i => zeroBits (fuseRead s (64 * b + i))).foldl (· + ·) 0
/-- The integrity word of a bank (R311). -/
def integrityWord (s : State) (b : Nat) : Word :=
  BitVec.ofNat 32 (bankZeros s b + 0x10000 * (0xFFFF - bankZeros s b % 0x10000))
/-- Banks that can be locked (R306). -/
def lockable (b : Nat) : Bool := decide (b ≤ 2) || (decide (8 ≤ b) && decide (b ≤ 13))
/-- Bank `b` is locked (R307). -/
def bankLocked (s : State) (b : Nat) : Bool := bit (fuseRead s 196) b
/-- A locked bank's integrity word no longer verifies (R311). -/
def bankBroken (s : State) (b : Nat) : Bool :=
  bankLocked s b && lockable b && decide (fuseRead s (64 * b + 63) ≠ integrityWord s b)

/-- FUS_STATUS.root_ok as a fuse sense finds it (R306). -/
def rootOk (s : State) : Bool :=
  bankLocked s 0 && bankLocked s 1 && !bankBroken s 0 && !bankBroken s 1 &&
  (List.range 16).all fun i => decide (fuseRead s i ^^^ fuseRead s (64 + i) = 0xFFFFFFFF)
/-- The root secret (R306). -/
def rootSecret (s : State) : Bytes := (List.range 16).flatMap fun i => leBytes 4 (fuseRead s i).toNat

/-! ### State words (R307, R308, R258, R259) -/

/-- A marker of bits `hi` to `lo` counts as set (R259). -/
def marker (w : Word) (hi lo : Nat) : Bool := decide (fld w hi lo ≠ 0)
/-- The epoch of an epoch word: the highest marker set (R259). -/
def epochOf (w : Word) : Nat :=
  (((List.range 15).map (· + 1)).filter fun e => marker w (2 * e - 1) (2 * e - 2)).foldl max 0
/-- The life cycle, 0 BLANK, 1 ROOTED, 2 OWNED, 3 DECOMMISSIONED, and the epoch (R259). -/
def lifeCycle (s : State) : Nat × Nat :=
  let w := shadow s 192
  let ep := epochOf (shadow s 193)
  if marker w 23 16 then (3, ep) else if marker w 15 8 then (2, ep) else if marker w 7 0 then (1, 0) else (0, 0)
/-- The code of BOOT_LC_STATE (R259). -/
def lcCode (s : State) : Nat :=
  match (lifeCycle s).1 with | 0 => 0x0F | 1 => 0x33 | 2 => 0x55 | _ => 0x66
/-- The owner key digest of epoch `e` (R306). -/
def ownerDigest (s : State) (e : Nat) : Bytes :=
  (List.range 16).flatMap fun i => leBytes 4 (shadow s (256 + 16 * e + i)).toNat
/-- The certificate record (R245, R306). -/
def certRecord (s : State) : Bytes := (List.range 24).flatMap fun i => leBytes 4 (shadow s (160 + i)).toNat
/-- The bits of a torn marker that still read 0, in the life-cycle word and in the epoch word (R259). -/
def tornBits (r e : Word) : Word × Word :=
  let life := ([(7, 0), (15, 8), (23, 16)].map fun m =>
    if marker r m.1 m.2 then maskOf m.1 m.2 &&& ~~~ r else 0).foldl (· ||| ·) 0
  let ep := (((List.range 15).map (· + 1)).map fun k =>
    if marker e (2 * k - 1) (2 * k - 2) then maskOf (2 * k - 1) (2 * k - 2) &&& ~~~ e else 0).foldl (· ||| ·) 0
  (life, ep)

/-- The strap-override word is in force (R307). -/
def overrideOk (s : State) : Bool :=
  let w := shadow s 194
  decide (w ≠ 0) && decide (fld w 31 27 = 17 - countTrue ((List.range 17).map fun i => bit w i))
/-- A field of the strap-override word, where its enable bit is set and an override is in force. -/
def override (s : State) (en hi lo : Nat) : Option Nat :=
  if overrideOk s ∧ bit (shadow s 194) en then some (fld (shadow s 194) hi lo) else none

/-- The tamper count (R308). -/
def tamperCount (s : State) : Nat :=
  ((List.range 16).map fun i =>
    let w := fuseRead s (208 + i)
    ((List.range 32).filter fun k => bit w k).foldl (fun _ k => 32 * i + k + 1) 0).foldl max 0
/-- The bits of thermometer word `i` below the highest one that reads 1 (R309, R315). -/
def thermFill (s : State) (i : Nat) : Word :=
  let n := tamperCount s
  if n ≥ 32 * (i + 1) then 0xFFFFFFFF else if n ≤ 32 * i then 0 else BitVec.ofNat 32 (2 ^ (n - 32 * i) - 1)

/-! ### The fuse sense (R253 step 5, R305) -/

/-- A register bit per bank. -/
def perBank (f : Nat → Bool) : Word := (List.range 16).foldl (fun w b => w ||| mk b b (b2n (f b))) 0
/-- The bits of a word that have passed no verify: what they read at a sense is free (R304, assumption log 111). -/
def fuseUnsure (s : State) (w : Nat) : Word := Tbl.get (fun _ => 0) s.fuseU w
/-- What a word reads at READ when it is sensed. -/
def senseWord (s : State) (w : Nat) : State × Word :=
  let u := fuseUnsure s w
  if u = 0 then (s, fuseRead s w)
  else
    let (b, s) := draw s 4
    (s, (fuseRead s w &&& ~~~ u) ||| (wordAtLe b 0 &&& u))
/-- A sensed word is marginal (R305). -/
def senseWeak (a : State × Bool) (w : Nat) : State × Bool :=
  let (s, r) := senseWord a.1 w
  (s, a.2 || decide (r &&& ~~~ fuseStrict s w ≠ 0))
/-- A bank is found to hold a marginal word when its words are sensed (R305, R309). -/
def senseBank (s : State) (b : Nat) : State × Bool :=
  (((s.fuseU.map (·.1)).filter fun w => decide (w / 64 = b)).foldl senseWeak
    (s, s.fuseR.any fun e => decide (e.1 / 64 = b) && decide (fuseUnsure s e.1 = 0) && fuseWeak s e.1))
/-- Words with a bit that has passed no verify are sensed into their shadows. -/
def senseUnsure (s : State) : State :=
  s.fuseU.foldl (fun s e =>
    let (s, r) := senseWord s e.1
    { s with fuseSh := Tbl.set (fun _ => (0 : Word)) s.fuseSh e.1 r }) s
/-- A bank whose shadows hold a marginal word. -/
def shadowWeak (s : State) (b : Nat) : Bool :=
  s.fuseSh.any fun e => decide (e.1 / 64 = b) && decide (e.2 &&& ~~~ fuseStrict s e.1 ≠ 0)
/-- The fuse sense: shadows, FUS_MARGIN, FUS_BROKEN, FUS_STATUS and the life cycle in force. -/
def fuseSense (s : State) : State :=
  let s := senseUnsure { s with fuseSh := s.fuseR }
  let weak := perBank (shadowWeak s)
  let s := rset (rset s (reg .fus 0 0x060) weak) (reg .fus 0 0x05C) (perBank (bankBroken s))
  let s := rsetb (rsetb s (reg .fus 0 0x040) 1 (rootOk s)) (reg .fus 0 0x040) 2
    (decide (shadow s 194 ≠ 0) && !overrideOk s)
  let s := rsetf (rsetf s (reg .rom 0 0x04C) 7 0 (lcCode s)) (reg .rom 0 0x04C) 11 8 (lifeCycle s).2
  if weak = 0 then s else irq s .fus 0 1

/-- BOOT_DBG_LOCK.written: HANDOVER of R309 has passed. -/
def handover (s : State) : Bool := rbit s (reg .rom 0 0x054) 31

end Sys2Proof.Machine
end

