-- ==== Sys2Proof/Machine/TemBase.lean ====
section
/-! DEFINITION. Machine/TemBase.lean: what the tamper monitor says to other blocks: programming conditions, the backup domain and the
LOCKED condition (R313, R333 to R335). -/
namespace Sys2Proof.Machine

/-- A register of the TEM page. -/
def temReg (off : Nat) : Nat := reg .tem 0 off
/-- The latest code of sensor `k` (R340). -/
def sampleCode (s : State) (k : Nat) : Nat := rfld s (temReg (0x0C0 + 4 * k)) 13 0
/-- The TEM reads every junction sensor between 0 and 100 °C and VDDA between 1.71 and 1.89 V (R313, R327, R505). -/
def fuseConditions (s : State) : Bool :=
  ([7, 8, 9, 10].all fun k => decide (4096 ≤ sampleCode s k) && decide (sampleCode s k ≤ 10496)) &&
  decide (6840 ≤ sampleCode s 3) && decide (sampleCode s 3 ≤ 7560)

/-- The canary holds its complement pattern (R333). -/
def canaryOk (s : State) : Bool :=
  decide (s.tem.canary.length = 16) && (List.range 8).all fun i => s.tem.canary.getD i 0 == ~~~ s.tem.canary.getD (8 + i) 0
/-- The acknowledged count, none where its complement does not match (R333). -/
def ackCount (s : State) : Option Nat :=
  if fld s.tem.ack 19 10 = 1023 - fld s.tem.ack 9 0 then some (fld s.tem.ack 9 0) else none
/-- An acknowledged count with its complement. -/
def ackWord (n : Nat) : Word := mk 9 0 n ||| mk 19 10 (1023 - n % 1024)
/-- The tamper count with the advances that alarms have made and the array has still to take (R308, R329). -/
def tamperNow (s : State) : Nat := min 512 (tamperCount s + s.tamperDue)
/-- The condition of R334. -/
def lockCondition (s : State) : Bool := s.tem.latch || decide (ackCount s ≠ some (tamperNow s))
/-- A fresh canary (R333, R336). -/
def freshCanary (s : State) : State :=
  let (b, s) := draw s 8
  { s with tem := { s.tem with canary := b ++ b.map (~~~ ·) } }
/-- The ROM's write of the backup domain (R335): canary, acknowledged count, latch clear. -/
def freshBackup (s : State) : State :=
  let s := freshCanary s
  { s with tem := { s.tem with ack := ackWord (tamperNow s), latch := false } }

/-- The ROOTED marker has been programmed in the first start: the life cycle in force is ROOTED and the TEM is armed (R255, R335,
R339). -/
def nowRooted (s : State) : State :=
  if s.tem.observe ∧ (lifeCycle s).1 = 0 ∧ marker (fuseRead s 192) 7 0 then
    let s := { s with fuseSh := Tbl.set (fun _ => (0 : Word)) s.fuseSh 192 (fuseRead s 192) }
    let s := freshBackup (rsetf s (reg .rom 0 0x04C) 7 0 (lcCode s))
    { s with tem := { s.tem with observe := false } }
  else s

/-! ### Debug access as the lock leaves it (R264, R268, R269) -/

/-- Part `b` of debug access is open: 0 pins, 1 Sage, 2 Dill, 3 system bus. -/
def debugOpen (s : State) (b : Nat) : Bool := handover s && rbit s (reg .rom 0 0x054) b && !s.locked && decide (s.rst = .none)
/-- EXTEST is selected and drives the outputs (R265). -/
def extestOn (s : State) : Bool := decide (s.tapIr = 0) && debugOpen s 0

end Sys2Proof.Machine
end

