-- ==== Sys2Proof/Machine/PairBase.lean ====
section
/-! DEFINITION. Machine/PairBase.lean: whether this unit drives (R435), and what other blocks send to its peer (R453). -/
namespace Sys2Proof.Machine

/-- A register of the PAIR page. -/
def pairReg (off : Nat) : Nat := reg .pair 0 off
/-- PAIR_SIDE as sampled: 0 not paired, 1 side A, 2 side B (R271). -/
def pairSide (s : State) : Nat := let v := rfld s (reg .rom 0 0x050) 2 1; if v = 3 then 0 else v
/-- The device is strapped for a pair. -/
def paired (s : State) : Bool := decide (pairSide s ≠ 0)
/-- PAIR_CFG.peer_node and arb_node (R458). -/
def peerNode (s : State) : Nat := rfld s (pairReg 0x044) 5 0
/-- PAIR_CFG.arb_node. -/
def arbNode (s : State) : Nat := rfld s (pairReg 0x044) 13 8
/-- PAIR_CFG.arb_mode: a witness, not the host, is the arbiter. -/
def witnessMode (s : State) : Bool := rbit s (pairReg 0x044) 7
/-- The peer claim (R435). -/
def peerClaim (s : State) : Nat := if s.pair.fresh then s.pair.peerClaim else 0
/-- A fresh peer frame of the same parity (R437). -/
def sameSideTie (s : State) : Bool :=
  s.pair.fresh && decide (s.pair.peerClaim ≠ 0) && decide (s.pair.claim ≠ 0) &&
  decide (s.pair.peerClaim % 2 = s.pair.claim % 2)
/-- The output rule (R435): an unpaired device holds a valid claim from the end of POR (R433). -/
def pairDrives (s : State) : Bool :=
  !paired s || (decide (s.pair.claim ≠ 0) && decide (peerClaim s < s.pair.claim) && s.pair.mayDrive)
/-- The claim-gated outputs are enabled, as far as the claim and the reset in force decide. -/
def driving (s : State) : Bool := decide (s.rst = .none) && pairDrives s
/-- What the port drives reaches its pins: no boundary scan in the way (R265). -/
def pinsLive (s : State) : Bool := driving s && !extestOn s
/-- The state code of PAIR_STATUS (R458). -/
def pairState (s : State) : Nat :=
  if !paired s then 0x0F else if s.pair.claim = 0 then 0x33 else if driving s then 0x66 else 0x55
/-- swap_hold (R448). -/
def swapHold (s : State) : Bool := decide (counter s 136 < counter s 134)
/-- The claim-link flags byte (R440). -/
def linkFlags (s : State) : Nat :=
  b2n (paired s && driving s) + 2 * b2n (pairSide s == 2) + 4 * b2n (swapHold s) + 8 * b2n s.locked

/-- A PAIR frame to a node (R408). -/
def sendPair (s : State) (node : Nat) (payload : Bytes) : State := sendFrame s node 0x50 payload
/-- A mirror record leaves for the peer (R453). -/
def sendMirror (s : State) (kind : Nat) (data : Bytes) : State :=
  let q := s.pair.mtxSeq
  sendPair { s with pair := { s.pair with mtxSeq := (q + 1) % 2 ^ 32 } } (peerNode s)
    (leBytes 1 4 ++ leBytes 1 kind ++ leBytes 2 data.length ++ leBytes 4 q ++ data)
/-- A failed check of port `n` with its record is mirrored by the unit that drives (R453). -/
def mirrorQuarantine (s : State) (n : Nat) (rec : Bytes) : State :=
  if paired s ∧ driving s then sendMirror s 2 (leBytes 1 n ++ zeros 3 ++ rec) else s
/-- A raise of a counter of a port is mirrored by the unit that drives (R453). -/
def mirrorRaise (s : State) (c v : Nat) : State :=
  if paired s ∧ driving s ∧ 4 ≤ c ∧ c ≤ 67 then sendMirror s 1 (leBytes 1 c ++ zeros 7 ++ leBytes 8 v) else s

end Sys2Proof.Machine
end

