-- ==== Sys2Proof/Machine/Fuse.lean ====
section
/-! DEFINITION. Machine/Fuse.lean: fuse commands and their pulses (R308 to R317). -/
namespace Sys2Proof.Machine

/-- The pulse length in cycles (R310). -/
def pulseCycles : Nat := 1000

/-- The current fuse command ends with a code (R316); `w` is the word its last pulse or check was on. -/
def fusEnd (s : State) (code pulses w : Nat) : State :=
  let s := { tstop s .fusPulse with fus := none }
  let s := rset s (reg .fus 0 0x04C) (mk 15 0 code ||| mk 18 16 pulses ||| mk 19 19 (b2n (fuseWeak s w)))
  irq (if code = 0 then s else report s .fus 0 code 0x044 1) .fus 0 0

/-- FUS_MARGIN of a bank brought up to date by a STRICT_CHECK (R309). -/
def strictCheck (s : State) (b : Nat) : State :=
  let (s, weak) := senseBank s b
  rsetb s (reg .fus 0 0x060) b weak

/-- What a step programs: word, bits and whether at STRICT; or the code with which its check fails (R311, R312). -/
def resolveStep (s : State) : FusStep → Except Nat (Nat × Word × Bool)
  | .prog w bits strict => .ok (w, bits, strict)
  | .integrity b => .ok (64 * b + 63, integrityWord s b, true)
  | .lock b =>
    if bankWeak s b then .error 0x0807
    else if fuseRead s (64 * b + 63) ≠ integrityWord s b ∨ fuseStrict s (64 * b + 63) ≠ integrityWord s b then .error 0x0806
    else .ok (196, mk b b 1, true)

/-- The steps of a command from its current one: the first with something to program starts its pulse.  `w` is the word last worked
on. -/
def fusRun (s : State) (pulses w : Nat) : List FusStep → State
  | [] => fusEnd s 0 pulses w
  | st :: rest =>
    let s := match st with | .lock b => strictCheck s b | _ => s
    match resolveStep s st with
    | .error code => fusEnd s code pulses w
    | .ok (w, bits, strict) =>
      if bits = 0 then fusRun s pulses w rest
      else
        let s := { s with fus := some { steps := .prog w bits strict :: rest } }
        if s.tamperDue > 0 then s else tset s .fusPulse pulseCycles

/-! ### Refusals (R309, R312, R313) -/

/-- Words never programmed (R306, R307). -/
def neverProgrammed (w : Nat) : Bool :=
  decide (w ≥ 896) || (decide (184 ≤ w) && decide (w ≤ 190)) || (decide (197 ≤ w) && decide (w ≤ 207)) ||
  (decide (224 ≤ w) && decide (w ≤ 255)) || (decide (16 ≤ w) && decide (w ≤ 62)) || (decide (80 ≤ w) && decide (w ≤ 126))
/-- Bits that PROGRAM may set in a LOCKED start before HANDOVER: those that complete torn markers and fill the thermometer. -/
def fuseCompleting (s : State) (w : Nat) : Word :=
  let t := tornBits (fuseRead s 192) (fuseRead s 193)
  if w = 192 then t.1 else if w = 193 then t.2
  else if 208 ≤ w ∧ w ≤ 223 then thermFill s (w - 208) else 0
/-- The words that PROGRAM may address in such a start (R309). -/
def completable (w : Nat) : Bool := decide (w = 192) || decide (w = 193) || (decide (208 ≤ w) && decide (w ≤ 223))
/-- The refusal of PROGRAM of bits `d` of word `w`, in the order of R309. -/
def programBad (s : State) (w : Nat) (d : Word) : Option Nat :=
  if bankLocked s (w / 64) then some 0x0801
  else if w / 64 ≤ 1 then some 0x0802
  else if neverProgrammed w then some 0x0803
  else if (w = 192 ∨ w = 193 ∨ (256 ≤ w ∧ w ≤ 511)) ∧ handover s then some 0x0808
  else if w = 196 then some 0x0808
  else if 208 ≤ w ∧ w ≤ 223 ∧ (handover s ∨ d &&& ~~~ thermFill s (w - 208) ≠ 0) then some 0x0808
  else none
/-- ROOT_GEN is not permitted (R312). -/
def rootGenBad (s : State) : Bool :=
  handover s || decide ((lifeCycle s).1 ≠ 0) || (List.range 128).any fun w => decide (fuseRead s w ≠ 0)
/-- The code with which a fuse command is refused, if any. -/
def fusBad (s : State) (c : Word) : Option Nat :=
  let op := fld c 3 0
  let w := fld c 14 5
  let d := rget s (reg .fus 0 0x048)
  if op = 0 ∨ op > 6 ∨ fld c 31 16 ≠ 0xA5C3 then some 0x080B
  else if s.locked ∧ op ≠ 1 ∧ op ≠ 6 ∧ !(!handover s && (op == 3 || (op == 2 && completable w &&
      decide (d &&& ~~~ fuseCompleting s w = 0)))) then
    some 0x0809
  else
    let own : Option Nat :=
      match op with
      | 1 => if w / 64 ≤ 1 then some 0x0802 else none
      | 2 => programBad s w d
      | 3 => if w / 64 ≤ 1 ∧ handover s then some 0x0802 else none
      | 4 => if lockable (w / 64) then none else some 0x0805
      | 5 => if rootGenBad s then some 0x080C else none
      | _ => none
    match own with
    | some code => some code
    | none => if (2 ≤ op ∧ op ≤ 5) ∧ !fuseConditions s then some 0x080A else none

/-! ### Commands (R309) -/

/-- The steps of ROOT_GEN for a root secret (R312). -/
def rootGenSteps (rs : Bytes) : List FusStep :=
  ((List.range 16).map fun i => .prog i (wordAtLe rs i) true) ++
  ((List.range 16).map fun i => .prog (64 + i) (~~~ wordAtLe rs i) true) ++
  [.integrity 0, .integrity 1, .lock 0, .lock 1, .prog 192 0xFF true]

/-- A write of FUS_CMD (R309). -/
def fusCmdWrite (s : State) (c : WCtx) : State :=
  if s.fus.isSome then busyW s c else
  match fusBad s c.data with
  | some code => fusEnd s code 0 (fld c.data 14 5)
  | none =>
    let w := fld c.data 14 5
    match fld c.data 3 0 with
    | 1 =>
      let (s, r) := senseWord s w
      fusEnd (rset (rset s (reg .fus 0 0x050) (r ||| fuseStrict s w)) (reg .fus 0 0x054) (fuseStrict s w)) 0 0 w
    | 2 => fusRun s 0 w [.prog w (rget s (reg .fus 0 0x048)) (bit c.data 4)]
    | 3 => fusRun s 0 w [.prog w (fuseRead s w &&& ~~~ fuseStrict s w) true]
    | 4 => fusRun s 0 w [.lock (w / 64)]
    | 5 => let (rs, s) := draw s 64; fusRun s 0 w (rootGenSteps rs)
    | _ => fusEnd (strictCheck s (w / 64)) 0 0 w

/-- Writes to the fuse page (R316). -/
def fusWrite (s : State) (c : WCtx) : State :=
  if c.off = reg .fus 0 0x044 then fusCmdWrite s c else storeW s c

/-- The current pulse's word after it: `r` and `t` are what the word reads at READ and STRICT; only selected bits change, and no bit is
lost (R303, R305).  Bits that `ok` does not show to have passed their verify, now or before, may read differently later (R304). -/
def pulsed (s : State) (w : Nat) (bits r t ok : Word) : State :=
  let u := fuseUnsure s w
  let sure := fuseRead s w &&& ~~~ u
  let s := setFuse s w (fuseRead s w ||| (r &&& bits)) (fuseStrict s w ||| (t &&& bits))
  { s with fuseU := Tbl.set (fun _ => (0 : Word)) s.fuseU w ((u ||| bits) &&& ~~~ (ok &&& bits) &&& ~~~ sure) }

/-- FUSE_PULSE_END (R310): the selected bits are verified; those that fail have four retries. -/
def execFusePulseEnd (r n t : Word) (s : State) : Host.Outcome State Fault Refusal :=
  done (nowRooted (fire s .fusPulse fun s =>
    match s.fus with
    | some { steps := .prog w bits strict :: rest, pulses := k } =>
      let s := pulsed s w bits (r ||| n ||| t) t (if strict then t else n ||| t)
      let failing := bits &&& ~~~ (if strict then fuseStrict s w else fuseStrict s w ||| (n &&& bits))
      if failing = 0 then fusRun s (k + 1) w rest
      else if k ≥ 4 then fusEnd s 0x0804 (k + 1) w
      else
        let s := { s with fus := some { steps := .prog w failing strict :: rest, pulses := k + 1 } }
        if s.tamperDue > 0 then s else tset s .fusPulse pulseCycles
    | _ => s))

/-- TAMPER_COUNT_ADVANCE (R308): the next thermometer bit is programmed after the pulse in progress; `r` and `t` are what it then
reads at READ and at STRICT.  A bit that does not read 1 stays due. -/
def execTamperCountAdvance (r t : Bool) (s : State) : Host.Outcome State Fault Refusal :=
  done (
    let k := tamperCount s
    if s.rst ≠ .none ∨ s.tamperDue = 0 ∨ (tget s .fusPulse).isSome then s
    else if k ≥ 512 then { s with tamperDue := 0 }
    else
      let m := mk (k % 32) (k % 32) 1
      let s := pulsed s (208 + k / 32) m (if r then m else 0) (if t then m else 0) (if t then m else 0)
      let s := if r ∨ t then irq { s with tamperDue := s.tamperDue - 1 } .fus 0 2 else s
      if s.tamperDue = 0 ∧ s.fus.isSome then tset s .fusPulse pulseCycles else s)

/-- A reset other than POR meets a fuse command: the pulse in progress ends at its count, `r` and `t` being what the word then reads,
and the rest is abandoned, the verify included (R314); POR cuts it (the same senses). -/
def fusAbandon (s : State) (r t : Word) : State :=
  match s.fus with
  | some { steps := .prog w bits _ :: _, .. } =>
    let s := if (tget s .fusPulse).isSome then pulsed s w bits (r ||| t) t 0 else s
    { tstop s .fusPulse with fus := none }
  | _ => { tstop s .fusPulse with fus := none }

end Sys2Proof.Machine
end

