-- ==== Sys2Proof/Machine/Cst.lean ====
section
/-! DEFINITION. Machine/Cst.lean: the counter store (R318 to R326). -/
namespace Sys2Proof.Machine

/-- CST_OWNERc (R325). -/
def ownerReg (c : Nat) : Nat := reg .cst 0 (0x400 + 4 * c)
/-- A requester may change counter `c` as it asks (R319). -/
def mayChange (s : State) (o : CstOp) : Bool :=
  let w := rget s (ownerReg o.ctr)
  match o.req with
  | .core q => (decide (o.ctr ≤ 3) && decide (q = 0)) ||
      (decide (140 ≤ o.ctr) && decide (fld w 1 0 = 1) && decide (fld w 14 8 = q))
  | .inst i => decide (68 ≤ o.ctr) && decide (o.ctr ≤ 131) && decide (fld w 1 0 = 2) && decide (fld w 14 8 = i)
  | .port n => decide (4 + 4 * n ≤ o.ctr) && decide (o.ctr < 8 + 4 * n) && o.raise
  | .pairing => decide (132 ≤ o.ctr) && decide (o.ctr ≤ 139)

/-- The value after an operation (R318). -/
def cstResult (s : State) (o : CstOp) : Nat :=
  if o.raise then max (counter s o.ctr) (o.arg % 2 ^ 64) else counter s o.ctr + 1
/-- The code with which a granted operation is refused, if any, in the order of R324. -/
def cstBad (s : State) (o : CstOp) : Option Nat :=
  if o.ctr ≥ 256 then some 0x0901
  else if !domOn s 29 then some 0x0905
  else if s.locked then some 0x0906
  else if !mayChange s o then some 0x0902
  else if s.ctrFailed.contains o.ctr then some 0x0903
  else if !o.raise ∧ counter s o.ctr ≥ 2 ^ 64 - 1 then some 0x0904
  else none

/-- Counter `c` takes a value and its two copies: equal, and the counter not failed, or as `x` gives them, and the counter failed
(R320, R323). -/
def setCopies (s : State) (c v : Nat) (x : Option (Option Nat × Option Nat)) : State :=
  { s with
    ctr := Tbl.set (fun _ => 0) s.ctr c v,
    torn := s.torn.filter (fun t => t.1 != c) ++ x.toList.map fun p => (c, p.1, p.2),
    ctrFailed := if x.isNone then s.ctrFailed.filter (· != c) else if s.ctrFailed.contains c then s.ctrFailed
      else s.ctrFailed ++ [c] }
/-- A counter becomes failed (R323), its copies left as `a` and `b`. -/
def ctrFail (s : State) (c v : Nat) (a b : Option Nat) : State := irq (setCopies s c v (some (a, b))) .cst 0 4

/-- A granted operation runs: the code and whether the value changed.  `aFails` and `bFails` say that copy's verify failed twice
(R320). -/
def cstApply (s : State) (o : CstOp) (aFails bFails : Bool) : State × Nat × Bool :=
  match cstBad s o with
  | some code => (s, code, false)
  | none =>
    let old := counter s o.ctr
    let v := cstResult s o
    if v = old then (s, 0, false)
    else if aFails then (ctrFail s o.ctr old none (some old), 0x0903, false)
    else if bFails then (ctrFail s o.ctr v (some v) none, 0x0903, true)
    else (setCopies s o.ctr v none, 0, true)

/-! ### Requests by core queues (R318, R325) -/

/-- CST_COREq_RESULT. -/
def coreResult (q : Nat) : Nat := reg .cst 0 (0x08C + 16 * q)
/-- Core queue `q`'s operation ends. -/
def coreCstEnds (s : State) (q code : Nat) (changed : Bool) : State :=
  let s := rset s (coreResult q) (mk 15 0 code ||| mk 17 17 (b2n changed))
  irq (if code = 0 then s else report s .cst 0 code (0x080 + 16 * q) 1) .cst 0 q

/-- A write of CST_COREq_CMD (R325). -/
def cstCmdWrite (s : State) (q : Nat) (c : WCtx) : State :=
  if rbit s (coreResult q) 16 then busyW s c else
  let op := fld c.data 1 0
  let arg := (rget s (reg .cst 0 (0x084 + 16 * q))).toNat + 2 ^ 32 * (rget s (reg .cst 0 (0x088 + 16 * q))).toNat
  if op = 0 ∨ op = 3 then coreCstEnds s q 0x0901 false
  else
    let s := rset s (coreResult q) (mk 16 16 1)
    { s with cstOps := s.cstOps ++ [⟨.core q, op == 2, fld c.data 15 8, arg⟩] }

/-- An owner value that Sage may write to counter `c` (R319). -/
def ownerValueOk (c : Nat) (w : Word) : Bool :=
  let id := fld w 14 8
  (decide (68 ≤ c) && decide (c ≤ 131) && (decide (fld w 1 0 = 0) || (decide (fld w 1 0 = 2) && decide (id ≤ 64)))) ||
  (decide (140 ≤ c) && decide (c ≤ 255) && (decide (fld w 1 0 = 0) || (decide (fld w 1 0 = 1) && decide (id ≤ 3))))

/-- Writes to the counter store page (R319, R325). -/
def cstWrite (s : State) (c : WCtx) : State :=
  let o := c.off % 4096
  if 0x400 ≤ o ∧ o < 0x800 then
    if c.acc.master = 0 ∧ ownerValueOk ((o - 0x400) / 4) c.data then storeW s c else refuseW s .cst 0 0x0901 c
  else if 0x080 ≤ o ∧ o < 0x0C0 ∧ o % 16 = 0 then cstCmdWrite s ((o - 0x080) / 16) c
  else storeW s c

/-! ### Reconcile (R321) -/

/-- The copies of a counter that was to go from `old` to `v` and was interrupted at point `t` (R320): 0 not begun, 1 copy A's check
fails, 2 A new and B old, 3 A new and B's check failing, else both new. -/
def cutCopies (t old v : Nat) : Option (Option Nat × Option Nat) :=
  match t with
  | 0 => none
  | 1 => some (none, some old)
  | 2 => some (some v, some old)
  | 3 => some (some v, none)
  | _ => some (some v, some v)
/-- POR interrupts the operation in progress, the oldest one, at point `t` (R320, R321).  The others vanish with their requesters. -/
def cstCut (s : State) (t : Nat) : State :=
  let s := match s.cstOps with
    | o :: _ =>
      let old := counter s o.ctr
      let v := cstResult s o
      if s.reconciling ∨ (cstBad s o).isSome ∨ v = old then s
      else match cutCopies t old v with
        | none => s
        | some p => { s with torn := s.torn.filter (fun (x : Nat × Option Nat × Option Nat) => x.1 != o.ctr) ++ [(o.ctr, p.1, p.2)] }
    | [] => s
  { s with cstOps := [] }

/-- The operations of requesters that CONTROL does not cover wait on. -/
def CstReq.keptByControl : CstReq → Bool | .port _ => true | .pairing => true | _ => false
/-- A DEVICE or CONTROL reset does not interrupt the operation in progress, the oldest one: both copies are completed, and nobody is
told (R321).  `keep` says which requesters the reset leaves running. -/
def cstFinish (s : State) (keep : CstReq → Bool) : State :=
  let s := match s.cstOps with
    | o :: _ => if s.reconciling ∨ keep o.req then s else (cstApply s o false false).1
    | [] => s
  { s with cstOps := s.cstOps.filter fun o => keep o.req }

/-- The value a reconcile takes from two copies (R321). -/
def reconciled : Option Nat → Option Nat → Option Nat
  | some a, some b => some (max a b)
  | some a, none => some a
  | none, some b => some b
  | none, none => none

/-- One counter whose copies differ is reconciled; `bad` when the rewrite's verify fails twice. -/
def reconcileOne (bad : List Nat) (s : State) (t : Nat × Option Nat × Option Nat) : State :=
  match reconciled t.2.1 t.2.2 with
  | none => ctrFail s t.1 0 none none
  | some v =>
    if t.2.1 = t.2.2 then setCopies s t.1 v none
    else
      let s := irq (rcount s (reg .cst 0 0x040) 15 8 1) .cst 0 5
      let s := rsetb s (ownerReg t.1) 30 true
      if bad.contains t.1 then
        ctrFail s t.1 v (if t.2.1 = some v then some v else none) (if t.2.2 = some v then some v else none)
      else setCopies s t.1 v none

/-- A reconcile starts (R321). -/
def startReconcile (s : State) : State := rsetf { s with reconciling := true } (reg .cst 0 0x040) 15 8 0

/-- The reconcile ends: every counter whose copies differ is settled; `bad` are those whose rewrite fails its verify twice. -/
def reconcileEnds (s : State) (bad : List Nat) : State := s.torn.foldl (reconcileOne bad) { s with reconciling := false }

end Sys2Proof.Machine
end

