-- ==== Sys2Proof/Machine/Cert.lean ====
section
/-! DEFINITION. Machine/Cert.lean: the DER of the DevID and Alias certificates (R245, R246).  The rules name the parts; their
encoding is X.509 v3 and TCG DICE TcbInfo (PRESUMED, assumption log 5). -/
namespace Sys2Proof.Machine

/-- A DER length. -/
def derLen (n : Nat) : Bytes :=
  if n < 128 then [BitVec.ofNat 8 n] else if n < 256 then [0x81, BitVec.ofNat 8 n]
  else [0x82, BitVec.ofNat 8 (n / 256), BitVec.ofNat 8 n]
/-- A DER value of a tag. -/
def der (tag : Byte) (v : Bytes) : Bytes := tag :: derLen v.length ++ v
/-- A SEQUENCE. -/
def derSeq (parts : List Bytes) : Bytes := der 0x30 parts.flatten
/-- Leading zero bytes dropped, one byte kept. -/
def derTrim : Bytes → Bytes
  | [] => [0]
  | [b] => [b]
  | b :: t => if b = 0 then derTrim t else b :: t
/-- A non-negative INTEGER from its big-endian bytes. -/
def derInt (be : Bytes) : Bytes :=
  let t := derTrim be
  der 0x02 (if (t.headD 0).getLsbD 7 then 0 :: t else t)
/-- An OBJECT IDENTIFIER from its encoded bytes. -/
def derOid (b : Bytes) : Bytes := der 0x06 b
/-- The OID 1.3.101.112 (Ed25519) as an AlgorithmIdentifier. -/
def algEd25519 : Bytes := derSeq [derOid [0x2B, 0x65, 0x70]]
/-- A BIT STRING of whole bytes. -/
def derBits (b : Bytes) : Bytes := der 0x03 (0 :: b)
/-- A Name with one common name. -/
def derCn (cn : Bytes) : Bytes :=
  derSeq [der 0x31 (derSeq [derOid [0x55, 0x04, 0x03], der 0x0C cn])]

/-- The last `k` decimal digits of `n`. -/
def digits (k n : Nat) : Bytes := (List.range k).map fun i => BitVec.ofNat 8 (48 + n / 10 ^ (k - 1 - i) % 10)
/-- The upper-case hexadecimal digits of bytes. -/
def hexOf (b : Bytes) : Bytes :=
  let d (v : Nat) : Byte := BitVec.ofNat 8 (if v < 10 then 48 + v else 55 + v)
  b.flatMap fun x => [d (x.toNat / 16), d (x.toNat % 16)]

/-- Year, month and day of a count of days since 1970-01-01 (proleptic Gregorian calendar). -/
def civil (days : Nat) : Nat × Nat × Nat :=
  let z := days + 719468
  let era := z / 146097
  let doe := z % 146097
  let yoe := (doe - doe / 1460 + doe / 36524 - doe / 146096) / 365
  let doy := doe - (365 * yoe + yoe / 4 - yoe / 100)
  let mp := (5 * doy + 2) / 153
  let m := if mp < 10 then mp + 3 else mp - 9
  (yoe + era * 400 + (if m ≤ 2 then 1 else 0), m, doy - (153 * mp + 2) / 5 + 1)
/-- A point in time as X.509 encodes it: UTCTime to 2049, then GeneralizedTime. -/
def derTime (secs : Nat) : Bytes :=
  let (y, m, d) := civil (secs / 86400)
  let t := digits 2 m ++ digits 2 d ++ digits 2 (secs % 86400 / 3600) ++ digits 2 (secs % 3600 / 60) ++
    digits 2 (secs % 60) ++ [0x5A]
  if y < 2050 then der 0x17 (digits 2 y ++ t) else der 0x18 (digits 4 y ++ t)

/-- An extension: its OID, whether it is critical, and its value. -/
def derExt (oid : Bytes) (critical : Bool) (v : Bytes) : Bytes :=
  derSeq [derOid oid, if critical then [0x01, 0x01, 0xFF] else [], der 0x04 v]
/-- A TBSCertificate. -/
def derTbs (serial issuer notBefore subject pub : Bytes) (exts : List Bytes) : Bytes :=
  derSeq [der 0xA0 (derInt [2]), derInt serial, algEd25519, issuer,
    derSeq [notBefore, der 0x18 (ascii "99991231235959Z")], subject, derSeq [algEd25519, derBits pub],
    der 0xA3 (derSeq exts)]
/-- A certificate. -/
def derCert (tbs sig : Bytes) : Bytes := derSeq [tbs, algEd25519, derBits sig]

/-- The subject of the DevID certificate. -/
def devidName (serial : Bytes) : Bytes := derCn (ascii "Weadenyx DevID " ++ hexOf serial)

/-- The TBSCertificate of DevID from a certificate record (R245); `keyId` is the subject key identifier. -/
def devidTbs (serial : Bytes) (notBefore issuer : Nat) (pub keyId : Bytes) : Bytes :=
  derTbs serial (Config.issuerName issuer) (derTime notBefore) (devidName serial) pub
    [derExt [0x55, 0x1D, 0x13] true (derSeq [[0x01, 0x01, 0xFF], derInt [0]]),
     derExt [0x55, 0x1D, 0x0F] true [0x03, 0x02, 0x02, 0x04],
     derExt [0x55, 0x1D, 0x0E] false (der 0x04 keyId)]

/-- The TcbInfo extension of R246. -/
def tcbInfo (svn : Nat) (fwid vendorInfo : Bytes) : Bytes :=
  derExt [0x67, 0x81, 0x05, 0x05, 0x04, 0x01] true
    (derSeq [der 0x80 (ascii "Idsitia"), der 0x81 (ascii "WDX-6400"),
      (match derInt (beBytes 8 svn) with | _ :: t => 0x83 :: t | [] => []),
      der 0xA6 (derSeq [derOid [0x60, 0x86, 0x48, 0x01, 0x65, 0x03, 0x04, 0x02, 0x03], der 0x04 fwid]),
      der 0x88 vendorInfo])

/-- The TBSCertificate of Alias (R246). -/
def aliasTbs (serial : Bytes) (notBefore : Nat) (issuer pub keyId authId : Bytes) (svn : Nat) (fwid vendorInfo : Bytes) :
    Bytes :=
  derTbs serial issuer (derTime notBefore) (derCn (ascii "Weadenyx Alias " ++ hexOf serial)) pub
    [derExt [0x55, 0x1D, 0x13] true (derSeq []),
     derExt [0x55, 0x1D, 0x0F] true [0x03, 0x02, 0x07, 0x80],
     derExt [0x55, 0x1D, 0x0E] false (der 0x04 keyId),
     derExt [0x55, 0x1D, 0x23] false (derSeq [der 0x80 authId]),
     tcbInfo svn fwid vendorInfo]

end Sys2Proof.Machine
end

