-- ==== Sys2Proof/Machine/Kv.lean ====
section
/-! DEFINITION. Machine/Kv.lean: the key vault: slots, rights, chains, fills and ends (R225 to R231), the ladder (R224), and
the attestation unit (R239 to R246). -/
namespace Sys2Proof.Machine

/-! ### Slots -/

/-- Key slot `k`. -/
def kslot (s : State) (k : Nat) : KSlot := Tbl.get (fun _ => {}) s.kslots k
/-- Key slot `k` replaced. -/
def setKslot (s : State) (k : Nat) (x : KSlot) : State :=
  { s with kslots := Tbl.set (fun _ => ({} : KSlot)) s.kslots k x }
/-- Usage bit `b` of a slot: 0 sign, 1 verify, 2 derive, 3 wrap, 4 seal, 5 migrate (R226). -/
def KSlot.may (x : KSlot) (b : Nat) : Bool := x.usage.testBit b
/-- The code of a slot state (R249). -/
def KeySt.code : KeySt → Nat | .empty => 0 | .live => 1 | .orphaned => 2 | .retired => 3

/-- A slot ends (R230). -/
def endSlot (s : State) (k : Nat) : State :=
  let x := kslot s k
  let y : KSlot := if x.gen ≥ 0xFFFFFFFF then { st := .retired, gen := x.gen } else { gen := x.gen + 1 }
  { setKslot s k y with scrubDirty := true }

/-- A slot becomes ORPHANED (R229, R248). -/
def orphan (s : State) (k : Nat) : State :=
  if (kslot s k).st = .live then
    let s := setKslot s k { kslot s k with st := .orphaned }
    { irq (rcount s (reg .kv 0 0x058) 31 0 1) .kv 0 0 with scrubDirty := true }
  else s

/-- The link from a slot to its parent holds (R229); a slot without a parent has none to fail. -/
def linkHolds (s : State) (k : Nat) : Bool :=
  match (kslot s k).parent with
  | none => true
  | some p => decide ((kslot s p).st = .live) && decide ((kslot s p).gen = (kslot s k).pgen)

/-- The slots on the chain of `k` that its first failing link orphans; none where the chain holds.  A chain has at most 8
links (R226). -/
def chainBroken (s : State) : Nat → Nat → List Nat → List Nat
  | 0, _, _ => []
  | f + 1, k, below =>
    if !linkHolds s k then below ++ [k]
    else match (kslot s k).parent with
      | none => []
      | some p => chainBroken s f p (below ++ [k])

/-- The chain check of a slot (R229): whether it holds, and the orphaned slots where it does not. -/
def chainCheck (s : State) (k : Nat) : State × Bool :=
  match chainBroken s 9 k [] with
  | [] => (s, true)
  | bad => (bad.foldl orphan s, false)

/-! ### Instances as the vault sees them -/

/-- Instance `i`. -/
def inst (s : State) (i : Nat) : Inst := Tbl.get (fun _ => {}) s.insts i
/-- Instance `i` replaced. -/
def setInst (s : State) (i : Nat) (x : Inst) : State :=
  { s with insts := Tbl.set (fun _ => ({} : Inst)) s.insts i x }
/-- The key slot range of instance `i`: first and count (R379). -/
def instKeys (s : State) (i : Nat) : Nat × Nat :=
  (rfld s (reg .inst i 0x090) 8 0, rfld s (reg .inst i 0x090) 25 16)
/-- Slot `k` lies in the range of instance `i`, which exists. -/
def inInst (s : State) (i k : Nat) : Bool :=
  decide ((inst s i).st ≠ .none) && decide ((instKeys s i).1 ≤ k) && decide (k < (instKeys s i).1 + (instKeys s i).2)
/-- The instance a submitter acts for. -/
def Sub.inst? : Sub → Option Nat
  | .core _ => none
  | .inst i => some i
  | .remote _ _ i _ => some i
/-- Class of R217: 0 core, 1 instance, 2 remote. -/
def Sub.cls : Sub → Nat | .core _ => 0 | .inst _ => 1 | .remote _ _ _ _ => 2
/-- Owner of CJE_TAG_INFO: core queue, instance or ring node. -/
def Sub.owner : Sub → Nat | .core q => q | .inst i => i | .remote n _ _ _ => n

/-! ### Rights and fills (R225, R227) -/

/-- A submitter may use slot `k`; `signing` for the key of ED25519_SIGN. -/
def mayUse (s : State) (sub : Sub) (k : Nat) (signing : Bool) : Bool :=
  let x := kslot s k
  match sub with
  | .core 0 => decide (x.ownerKind = 0) || decide (x.ownerKind = 2)
  | .core q =>
    (decide (8 ≤ k) && decide (x.ownerKind = 0) && decide (x.owner = q)) || k ∈ [1, 3, 5] || (decide (k = 2) && signing)
  | .inst i => decide (x.ownerKind = 1) && decide (x.owner = i)
  | .remote _ _ i _ => decide (x.ownerKind = 1) && decide (x.owner = i)

/-- The code with which key slot `k` is unusable as a key with usage bits `need`, if any, and the state after the chain
check (R223, R227, R229). -/
def keyBad (s : State) (sub : Sub) (k need : Nat) (types : List Nat) (signing : Bool) : State × Option Nat :=
  let x := kslot s k
  if k ≥ 512 then (s, some 0x0C05)
  else if k < 5 ∧ x.st = .empty ∧ (lifeCycle s).1 = 3 then (s, some 0x0A09)
  else if x.st ≠ .live ∨ x.usage &&& need ≠ need ∨ !mayUse s sub k signing then (s, some 0x0C05)
  else
    let (s, ok) := chainCheck s k
    (s, if !ok ∨ x.ktype ∉ types then some 0x0C05 else none)

/-- The anchor of a submitter (R234, R381): slot 1 for cores, the instance root for instances. -/
def anchor (s : State) : Sub → Nat
  | .core _ => 1
  | .inst i => (instKeys s i).1
  | .remote _ _ i _ => (instKeys s i).1

/-- The code with which key_out `k` cannot be filled by a submitter, if any (R225, R227, R230); `rom` for an import that the
ROM makes with check_owner matched. -/
def fillBad (s : State) (sub : Sub) (k : Nat) (isImport ownerKey : Bool) : Option Nat :=
  let x := kslot s k
  let allowed : Bool :=
    if k ≥ 512 then false
    else if k < 8 then
      isImport && decide (sub = .core 0) && !handover s &&
        ((decide (k = 5) && ownerKey && decide ((lifeCycle s).1 = 2)) || (decide (k = 6) && decide ((lifeCycle s).1 = 1)))
    else match sub.inst? with
      | none => !(List.range 65).any fun i => inInst s i k
      | some i => inInst s i k && decide (k ≠ (instKeys s i).1)
  if !allowed then some 0x0A01
  else if x.st = .retired then some 0x0A04
  else if x.st ≠ .empty then some 0x0A01
  else none

/-- What a fill records beside the slot's generation (R226). -/
structure Fill where
  ktype : Nat
  usage : Nat
  /-- parent slot, its generation and depth -/
  parent : Option (Nat × Nat × Nat)
  ownerKey : Bool := false
  port : Option Nat := none
  key : Bytes

/-- Slot `k` filled by a submitter: the code, 0 when filled (R226, R227, R230). -/
def fill (s : State) (sub : Sub) (k : Nat) (f : Fill) (isImport : Bool) : State × Nat :=
  match fillBad s sub k isImport f.ownerKey with
  | some code => (s, code)
  | none =>
    let depth := match f.parent with | some (_, _, d) => d + 1 | none => 0
    if depth > 8 then (s, 0x0A03) else
    let own : Nat × Nat := match f.port, sub.inst? with
      | some n, _ => (2, n)
      | none, some i => (1, i)
      | none, none => (0, sub.owner)
    (setKslot s k
      { st := .live, ktype := f.ktype, usage := f.usage, ownerKind := own.1, owner := own.2, gen := (kslot s k).gen,
        parent := f.parent.map (·.1), pgen := (match f.parent with | some (_, g, _) => g | none => 0), depth := depth,
        ownerKey := f.ownerKey, key := f.key }, 0)

/-- The usage bits a key type permits (R226). -/
def permitted : Nat → Nat
  | 1 => 0b100001
  | 2 => 0b000010
  | 3 => 0b100100
  | 5 => 0b111000
  | 6 => 0b100111
  | _ => 0

/-- A key spec as type and usage, where the operation can produce its type (R226); `dflt` is the type a spec of type 0 takes
(DEDUCED, assumption log 16). -/
def keySpec (w dflt : Nat) (types : List Nat) : Option (Nat × Nat) :=
  let usage := w % 64
  let t := if w / 256 % 8 = 0 then dflt else w / 256 % 8
  if w / 64 % 4 ≠ 0 ∨ w / 2048 ≠ 0 ∨ usage = 0 ∨ t ∉ types ∨ usage &&& permitted t ≠ usage then none
  else some (t, usage)

/-! ### The ladder (R224) -/

/-- SP 800-108 counter mode, HMAC-SHA-512, 32-bit counter before the fixed input: `bits` of output (R198). -/
def kdfOut (key fixed : Bytes) (bits : Nat) : Bytes := (hmac key (beBytes 4 1 ++ fixed)).take (bits / 8)
/-- A derivation of the ladder: Label, 0x00, Context, L (R224). -/
def derive (key : Bytes) (label : String) (ctx : Bytes) (bits : Nat) : Bytes :=
  kdfOut key (ascii label ++ [0] ++ ctx ++ beBytes 4 bits) bits

/-- A fixed slot loaded (R225): depth 0, no parent. -/
def loadFixed (s : State) (k ktype usage kind : Nat) (key : Bytes) : State :=
  setKslot s k { st := .live, ktype := ktype, usage := usage, ownerKind := kind, gen := (kslot s k).gen, key := key }

/-- The owner key digest that enters the ladder: 64 zero bytes in ROOTED (R224). -/
def ladderDigest (s : State) : Bytes :=
  if (lifeCycle s).1 = 2 then ownerDigest s (lifeCycle s).2 else zeros 64

/-- The fixed keys derived from the root secret in ROOTED and OWNED (R223, R224); DevID's public key is then known. -/
def runLadder (s : State) (rs : Bytes) : State :=
  let (lc, ep) := lifeCycle s
  if lc ≠ 1 ∧ lc ≠ 2 then s else
  let devid := derive rs "WDX-DEVID" [] 256
  let er := derive rs "WDX-EPOCH" (leBytes 1 lc ++ leBytes 1 ep ++ ladderDigest s) 512
  let s := loadFixed s 0 1 1 3 devid
  let s := loadFixed s 1 6 4 0 er
  let s := loadFixed s 3 6 4 0 (derive er "WDX-SEAL" [] 512)
  let s := loadFixed s 4 6 4 3 (derive er "WDX-INSTANCE" [] 512)
  { rsetBytes s (reg .atu 0 0x140) 8 (ed25519Pub devid) with ladder := true }

/-- KV_STATUS.rs_avail (R248): in ROOTED and OWNED, which a BLANK device enters at the end of ROOT_GEN, until BOOT_DBG_LOCK is
written; the page answers from the end of step 7 of R253 only. -/
def rsAvail (s : State) : Bool :=
  (decide ((lifeCycle s).1 = 1) || decide ((lifeCycle s).1 = 2)) && !rbit s (reg .rom 0 0x054) 31

/-- The certificates' key identifier (R245). -/
def keyId (pub : Bytes) : Bytes := (sha512 pub).take 20
/-- DevID's public key. -/
def devidPub (s : State) : Bytes := rbytes s (reg .atu 0 0x140) 8
/-- The serial number and notBefore of the certificate record (R245). -/
def certSerial (s : State) : Bytes := (certRecord s).take 16
/-- notBefore of the certificate record. -/
def certNotBefore (s : State) : Nat := fieldLe (certRecord s) 0x10 8

/-- The DevID certificate rebuilt and verified, as the ROM does at each start (R245). -/
def rebuildDevid (s : State) : State :=
  let r := certRecord s
  let issuer := fieldLe r 0x18 1
  let tbs := devidTbs (certSerial s) (certNotBefore s) issuer (devidPub s) (keyId (devidPub s))
  let cert := derCert tbs (sliceZ r 0x20 64)
  let s := rsetBytes (rsetf s (reg .atu 0 0x04C) 10 0 cert.length) (reg .atu 0 0x400) 256 cert
  rsetb s (reg .atu 0 0x040) 3 (ed25519Verify (Config.issuerKey issuer) tbs (sliceZ r 0x20 64))

/-! ### Scrubber (R231) -/

/-- The scrubber visits slot `k`: the link test of a LIVE slot, and the end of an ORPHANED one; the second component counts
slots ended. -/
def scrubVisit (a : State × Nat) (k : Nat) : State × Nat :=
  let s := if (kslot a.1 k).st = .live ∧ !linkHolds a.1 k then orphan a.1 k else a.1
  if (kslot s k).st = .orphaned then (endSlot s k, a.2 + 1) else (s, a.2)

/-- One pass of the scrubber: all 512 slots in index order.  A slot that ends in the pass calls for another pass (DEDUCED from
"within 8 passes", assumption log 17). -/
def scrubPass (s : State) : State :=
  if !s.scrubDirty then s else
  let r := (List.range 512).foldl scrubVisit ({ s with scrubDirty := false }, 0)
  let s := rcount r.1 (reg .kv 0 0x05C) 31 0 1
  if r.2 = 0 then s else irq s .kv 0 1

/-- KEY_SCRUB_PASS (R231). -/
def execKeyScrubPass (s : State) : Host.Outcome State Fault Refusal := done (scrubPass s)

/-! ### Resets (R228) -/

/-- Every slot zeroised at a reset covering the vault: POR and DEVICE all, CONTROL all but the port-owned ones. -/
def zeroiseSlots (s : State) (keepPorts : Bool) : State :=
  { s with kslots := s.kslots.filter (fun e => keepPorts && decide (e.2.ownerKind = 2)), ladder := false, scrubDirty := false }

/-- The ROM's zeroisation at the start that follows a change of life cycle or epoch (R228, R233): every slot but the fixed ones that this
start's ladder has derived. -/
def zeroiseChanged (s : State) : State :=
  if s.lifeNew then { s with kslots := s.kslots.filter fun e => decide (e.1 < 8) } else s

/-- The slots of instance `i` zeroised, their generations incremented (R228). -/
def zeroiseInst (s : State) (i : Nat) : State :=
  ((List.range 512).filter fun k => decide ((kslot s k).ownerKind = 1) && decide ((kslot s k).owner = i) &&
    decide ((kslot s k).st ≠ .empty)).foldl endSlot s

/-! ### Measurement slots and the WMS (R239 to R244) -/

/-- Slot id `i` exists on this part (R239). -/
def slotExists (s : State) (i : Nat) : Bool := decide (i < 16) || decide ((i - 16) / 8 < s.part.ports)

/-- MEAS_EXTEND by core queue `q` may extend slot id `i` (R240). -/
def mayExtend (s : State) (q i : Nat) : Bool :=
  (decide (i < 4) && decide (q = 0) && !handover s) || (decide (7 ≤ i) && decide (i < 16)) ||
  (decide (16 ≤ i) && decide (i < 144) && decide ((i - 16) % 8 = 6) && slotExists s i)

/-- A WMS request as R243 gives it. -/
structure WmsReq where
  nonce : Bytes
  dev : Nat
  count : Nat
  aux : Bytes

/-- The counter indices of a request, in order. -/
def WmsReq.ctrs (r : WmsReq) : List Nat := ((r.aux.drop 16).take (min r.count 16)).map (·.toNat)
/-- The slot ids a request selects: device slots ascending, then ports and their slots ascending. -/
def WmsReq.slots (r : WmsReq) : List Nat :=
  (List.range 16).filter (fun d => r.dev.testBit d) ++
  (List.range 16).flatMap fun n => ((List.range 8).filter fun k => (r.aux.getD n 0).getLsbD k).map fun k => pslot n k

/-- Counter `c` lies in the allocation of instance `i` (R379). -/
def instCtr (s : State) (i c : Nat) : Bool :=
  let w := rget s (reg .inst i 0x094)
  decide (fld w 7 0 ≤ c) && decide (c < fld w 7 0 + fld w 14 8)

/-- The code a WMS request fails with, if any (R243). -/
def wmsBad (s : State) (sub : Sub) (r : WmsReq) : Option Nat :=
  let ports := r.slots.filter (16 ≤ ·)
  let foreign : Bool := match sub.inst? with
    | none => false
    | some i => decide (ports ≠ []) || r.ctrs.any fun c => !instCtr s i c
  if (lifeCycle s).1 = 3 then some 0x0A09
  else if r.count > 16 ∨ !decide r.ctrs.Nodup ∨ ports.any (fun i => !slotExists s i) ∨
      foreign then some 0x0B02
  else if !rbit s (reg .atu 0 0x040) 0 then some 0x0B03
  else none

/-- The domain string of R244. -/
def wmsDomain : Bytes := ascii "WDX-WMS-SIGN-V01"

/-- The WMS a request gets, from one snapshot (R242, R244). -/
def wmsBuild (s : State) (sub : Sub) (r : WmsReq) : Bytes :=
  let entry (i : Nat) : Bytes :=
    leBytes 1 (if i < 16 then i else (i - 16) % 8) ++ leBytes 1 (if i < 16 then 0xFF else (i - 16) / 8) ++ zeros 2 ++
      leBytes 4 (mcount s i) ++ mval s i
  let total := 0x130 + 72 * r.slots.length + 16 * r.ctrs.length + 64
  let body :=
    ascii "WMST" ++ leBytes 2 1 ++ leBytes 2 0x130 ++ leBytes 4 total ++ leBytes 1 (lifeCycle s).1 ++
    leBytes 1 (lifeCycle s).2 ++ leBytes 1 r.slots.length ++ leBytes 1 r.ctrs.length ++
    leBytes 4 s.part.cap ++ leBytes 2 (tamperCount s) ++ leBytes 1 sub.cls ++ leBytes 1 sub.owner ++
    leBytes 8 s.tbTime ++ devidPub s ++ rbytes s (reg .atu 0 0x160) 8 ++ rbytes s (reg .atu 0 0x0C0) 16 ++
    rbytes s (reg .atu 0 0x100) 16 ++ sliceZ r.nonce 0 32 ++ leBytes 2 (r.dev % 0x10000) ++ zeros 2 ++
    sliceZ r.aux 0 16 ++ sliceZ (r.ctrs.map fun c => BitVec.ofNat 8 c) 0 16 ++ zeros 12 ++
    r.slots.flatMap entry ++ r.ctrs.flatMap fun c => leBytes 1 c ++ zeros 7 ++ leBytes 8 (counter s c)
  body ++ ed25519Sign (kslot s 2).key (wmsDomain ++ body)

end Sys2Proof.Machine
end

