-- ==== Sys2Proof/Machine/Itu.lean ====
section
/-! DEFINITION. Machine/Itu.lean: the translation of instance-virtual addresses (R385 to R388): table walks, cached
translations, page requests and fault records. -/
namespace Sys2Proof.Machine

/-- A register of the manager's fault queue in instance page 0. -/
def fq (off : Nat) : Nat := reg .inst 0 off

/-- The 32-byte fault record of R388. -/
def faultRecord (s : State) (iva i acc cause level tag gen entry : Nat) : Bytes :=
  leBytes 8 iva ++ leBytes 1 i ++ leBytes 1 acc ++ leBytes 1 cause ++ leBytes 1 level ++ leBytes 2 tag ++ leBytes 1 gen ++
    leBytes 1 (b2n s.fqPhase) ++ leBytes 8 s.tbTime ++ leBytes 8 entry

/-- A table fault is reported to the manager: a record in the fault queue, or MGR_FQ_LOST (R388). -/
def tableFault (s : State) (iva i acc cause level : Nat) (tag : Option Nat) (gen entry : Nat) : State :=
  let s := if cause = 4 then irq (rcount s (reg .itu 0 0x050) 15 0 1) .itu 0 1 else s
  let size := 2 ^ rfld s (fq 0x408) 3 0
  let tail := rfld s (fq 0x40C) 11 0
  if !rbit s (fq 0x408) 8 ∨ (tail + 1) % size = rfld s (fq 0x410) 11 0 then
    irq (rcount s (fq 0x414) 31 0 1) .inst 0 10
  else
    let base := (rget s (fq 0x400)).toNat + 2 ^ 32 * (rget s (fq 0x404)).toNat
    let s := emit s (.host 0 (base + 32 * tail) (faultRecord s iva i acc cause level (tag.getD 0xFFFF) gen entry))
    let next := (tail + 1) % size
    let s := rsetf s (fq 0x40C) 11 0 next
    irq { s with fqPhase := if next = 0 then !s.fqPhase else s.fqPhase } .inst 0 9

/-- What a table walk ends in: a leaf entry, of a 2 MiB page or not, or a fault with its cause, level and entry. -/
inductive WalkRes
  | leaf (entry : Nat) (big : Bool)
  | fault (cause level entry : Nat)
  deriving DecidableEq, Repr

/-- One entry checked at its level (R385, R388): the cause it faults with, if any.  Where several hold, the first in the order of
R388 (DEDUCED, assumption log 19). -/
def entryFault (e level : Nat) (write : Bool) : Option Nat :=
  let leaf := decide (level = 0) || (decide (level = 1) && e.testBit 7)
  if !e.testBit 0 then some 1
  else if leaf ∧ !(if write then e.testBit 2 else e.testBit 1) then some 2
  else if e / 8 % 16 ≠ 0 ∨ e / 256 % 16 ≠ 0 ∨ (level ≥ 2 ∧ e.testBit 7 = true) ∨
      (level = 1 ∧ e.testBit 7 = true ∧ e / 4096 % 512 ≠ 0) then some 3
  else none

/-- The walk from a level down over the entries read (R385). -/
def walkFrom (write : Bool) : Nat → List (Option Nat) → WalkRes
  | level, es =>
    match es.headD (some 0) with
    | none => .fault 4 level 0
    | some e =>
      match entryFault e level write with
      | some cause => .fault cause level e
      | none =>
        match level with
        | 0 => .leaf e false
        | n + 1 => if level = 1 ∧ e.testBit 7 then .leaf e true else walkFrom write n (es.drop 1)

/-- The host address of an IVA under a leaf entry. -/
def leafAddr (e : Nat) (big : Bool) (iva : Nat) : Nat :=
  if big then e / 2 ^ 21 * 2 ^ 21 + iva % 2 ^ 21 else e / 2 ^ 12 * 2 ^ 12 + iva % 2 ^ 12

/-- The cached translation of an IVA of instance `i`. -/
def ituHit (s : State) (i iva : Nat) : Option ItuEnt :=
  s.itu.find? fun t => decide (t.inst = i) && decide (t.page = iva / (if t.big then 2 ^ 21 else 2 ^ 12))

/-- What the translation of one page answers: a host address, a code the job completes with, or that the job parks. -/
inductive TrRes
  | ok (addr : Nat)
  | err (code : Nat)
  | park
  deriving DecidableEq, Repr

/-- A page request is sent with the lowest free index, or waits for one (R386). -/
def pageRequest (s : State) (i iva : Nat) (tag : Option Nat) : State :=
  let used := s.prgs.map (·.idx) ++ s.prgStale
  match (List.range (rfld s (reg .itu 0 0x040) 24 16)).find? fun k => !used.contains k with
  | some k =>
    let s := { s with prgs := s.prgs ++ [⟨k, i, tag⟩] }
    tset (emit s (.pageReq k i (iva / 4096 * 4096))) (.prg k) (ms 1000)
  | none => { s with prgWait := s.prgWait ++ [(i, tag)] }

/-- One page access of instance `i`: `acc` is the access code of R388, `tag` the job (none for a descriptor read). -/
def translate (s : State) (i iva acc : Nat) (write : Bool) (tag : Option Nat) (gen : Nat) (w : Walk) : State × TrRes :=
  if iva ≥ 2 ^ 48 then (s, .err 0x0D01) else
  let hit := if w.kept then ituHit s i iva else none
  let (s, r) := match hit with
    | some t =>
      (rcount s (reg .itu 0 0x04C) 31 0 1,
       match entryFault t.entry (if t.big then 1 else 0) write with
       | some cause => WalkRes.fault cause (if t.big then 1 else 0) t.entry
       | none => WalkRes.leaf t.entry t.big)
    | none => (rcount s (reg .itu 0 0x048) 31 0 1, walkFrom write 3 w.entries)
  match r with
  | .fault cause level entry => (tableFault s iva i acc cause level tag gen entry, .park)
  | .leaf e big =>
    let page := iva / (if big then 2 ^ 21 else 2 ^ 12)
    let s := { s with itu := ⟨i, page, big, e⟩ :: s.itu.filter fun t => !(t.inst == i && t.page == page && t.big == big) }
    if w.denied ∧ atsOn s i ∧ rbit s (reg .itu 0 0x040) 0 then
      (if priOn s i ∧ rbit s (reg .itu 0 0x040) 1 then (pageRequest s i iva tag, .park) else (s, .err 0x0D04))
    else if w.bus then (s, .err 0x0D04)
    else (s, .ok (leafAddr e big iva))

/-- The pieces of an address range, one for each 4 KiB page it touches: address and length. -/
def pieces (addr len : Nat) : List (Nat × Nat) :=
  if len = 0 then [] else
  (List.range ((addr + len - 1) / 4096 + 1 - addr / 4096)).map fun k =>
    let lo := max addr ((addr / 4096 + k) * 4096)
    let hi := min (addr + len) ((addr / 4096 + k + 1) * 4096)
    (lo, hi - lo)

/-- The walk for the next page access, and those after it. -/
def nextWalk (ws : List Walk) : Walk := ws.headD ⟨false, [], false, false⟩

/-- Page accesses made in turn until one does not succeed: the host addresses of those that did, with their lengths, the walks
left, and what stopped the rest, if anything. -/
def translateAll (s : State) (i acc : Nat) (write : Bool) (tag gen : Nat) :
    List (Nat × Nat) → List Walk → State × List (Nat × Nat) × List Walk × Option TrRes
  | [], ws => (s, [], ws, none)
  | (a, n) :: t, ws =>
    match translate s i a acc write (some tag) gen (nextWalk ws) with
    | (s, .ok h) =>
      let (s, hs, ws, stop) := translateAll s i acc write tag gen t (ws.drop 1)
      (s, (h, n) :: hs, ws, stop)
    | (s, r) => (s, [], ws.drop 1, some r)

/-- Instance `i`'s cached translations discarded (R389). -/
def ituDrop (s : State) (i : Nat) : State := { s with itu := s.itu.filter fun t => !(t.inst == i) }

end Sys2Proof.Machine
end

