-- ==== Sys2Proof/Machine/InstBase.lean ====
section
/-! DEFINITION. Machine/InstBase.lean: an instance's keys (R381) and the end of an instance reset (R390, R391), which the end of the last
job of a drain brings about. -/
namespace Sys2Proof.Machine

/-- A register of instance page `i`. -/
def instReg (i off : Nat) : Nat := reg .inst i off
/-- VFs enabled (R358): NumVFs, at most 7 without ARI Capable Hierarchy. -/
def vfCount (s : State) : Nat :=
  if !s.vfEnable then 0 else if s.numVfs > 7 ∧ !s.ariCap then 7 else min s.numVfs s.part.vfs
/-- Counter indices of an instance's allocation. -/
def instCtrs (s : State) (i : Nat) : List Nat :=
  let w := rget s (instReg i 0x094)
  (List.range (fld w 14 8)).map fun k => fld w 7 0 + k
/-- The owner registers of an instance's counters set (R380). -/
def ownCtrs (s : State) (i : Nat) (w : Word) : State := (instCtrs s i).foldl (fun s c => rset s (ownerReg c) w) s

/-- The instance root drawn with slot 4 as parent (R381). -/
def makeRoot (s : State) (i : Nat) : State :=
  let (key, s) := draw s 64
  let k := (instKeys s i).1
  setKslot s k { st := .live, ktype := 6, usage := 4, ownerKind := 1, owner := i, gen := (kslot s k).gen, parent := some 4,
                 pgen := (kslot s 4).gen, depth := 1, key := key }
/-- A new challenge (R381, R395). -/
def newChallenge (s : State) (i : Nat) : State := let (c, s) := draw s 32; rsetBytes s (instReg i 0x120) 8 c
/-- The migration key and the challenge drawn (R381). -/
def makeMig (s : State) (i : Nat) : State :=
  let (k, s) := draw s 32
  newChallenge (rsetBytes (setInst s i { inst s i with mig := k }) (instReg i 0x100) 8 (x25519Pub k)) i

/-- The registers that an instance reset keeps (R391); the migration key's and the challenge's in AWAIT_RESTORE (R381). -/
def instKept (mig : Bool) : List Nat :=
  [0x08C, 0x090, 0x094, 0x098, 0x0A0, 0x0A4] ++ (if mig then (List.range 16).map fun w => 0x100 + 4 * w else [])
/-- Both pages of instance `i` reset (R390, R391). -/
def instPageClear (s : State) (i : Nat) (mig : Bool) : State :=
  let keep := (instKept mig).map fun o => (o, rget s (instReg i o))
  keep.foldl (fun s e => rset s (instReg i e.1) e.2) (pageClear (pageClear s .inst i) .doorbell i)

/-- An instance command ends (R401). -/
def instCmdEnds (s : State) (i op code : Nat) : State :=
  let s := irq (rset s (instReg i 0x088) (mk 15 0 code ||| mk 19 16 op)) .inst i 2
  if code = 0 then s else report s .inst i code 0x084 1

/-- Steps 5 to 8 of an instance reset (R390). -/
def instResetEnds (s : State) (i : Nat) : State :=
  let x := inst s i
  match x.rst with
  | none => s
  | some (_, back) =>
    let s := tstop (ituDrop s i) (.drain i)
    let mine (p : Prg) : Bool := decide (p.inst = i)
    let s := { s with prgs := s.prgs.filter (fun p => !mine p), prgStale := s.prgStale ++ (s.prgs.filter mine).map (·.idx),
                      prgWait := s.prgWait.filter fun (w : Nat × Option Nat) => !(w.1 == i) }
    let s := instPageClear (zeroiseInst (cstFinish s fun r => !(r == .inst i)) i) i (decide (back = .awaitRestore))
    let s := { s with instRst := s.instRst.filter (· != i) }
    let s := setInst s i { x with st := back, rst := none, bumped := false, cmd := 0 }
    let s := match back with
      | .none => setInst (ownCtrs s i 0) i { (inst s i) with mig := [], savedTo := none }
      | .awaitRestore => makeRoot s i
      | _ => makeMig (makeRoot s i) i
    if x.cmd = 0 then s else instCmdEnds s i x.cmd 0
/-- The reset of instance `i` ends when none of its jobs is left. -/
def drainCheck (s : State) (i : Nat) : State :=
  if (inst s i).st = .resetting ∧ (inst s i).bumped ∧ !s.jobs.any (fun e => e.2.sub == .inst i) then instResetEnds s i else s

end Sys2Proof.Machine
end

