-- ==== Sys2Proof/Machine/FgpCfg.lean ====
section
/-! DEFINITION. Machine/FgpCfg.lean: what a flash guard port computes from its configuration alone: opcode classes (R85),
line rates (R93), dummy counts (R94), the remapper (R110) and the configuration check (R128). -/
namespace Sys2Proof.Machine

/-! ### Modes and opcodes -/

/-- The mode code of R81. -/
def PMode.code : PMode → Nat | .m1s => 0 | .m4s => 1 | .m4d => 2 | .m8s => 3 | .m8d => 4
/-- The mode of a code (codes above 4 do not occur in a configured port). -/
def PMode.ofCode : Nat → PMode | 0 => .m1s | 1 => .m4s | 2 => .m4d | 3 => .m8s | _ => .m8d
/-- The two-byte command modes of R83. -/
def PMode.octal : PMode → Bool | .m8s => true | .m8d => true | _ => false
/-- The mode bytes of R88. -/
def PMode.byte : PMode → Byte | .m1s => 0xFF | .m4s => 0x44 | .m4d => 0x45 | .m8s => 0x4C | .m8d => 0x5C
/-- The mode a mode byte names. -/
def PMode.ofByte (b : Byte) : Option PMode :=
  if b = 0xFF then some .m1s else if b = 0x44 then some .m4s else if b = 0x45 then some .m4d
  else if b = 0x4C then some .m8s else if b = 0x5C then some .m8d else none

/-- The classes of R85. -/
inductive OpClass
  | read (group : Nat)
  | program
  | erase (kib : Nat)
  | latchWrite
  | other
  deriving DecidableEq, Repr

/-- The class of an opcode in a mode, none where R85 does not list it for the mode (R86).  The 4S modes are 4S-4S-4S and
4S-4D-4D, as R90 uses the words (DEDUCED, assumption log 12). -/
def opClass (m : PMode) (op : Byte) : Option OpClass :=
  let quadSide := m = .m1s ∨ m = .m4s ∨ m = .m4d
  match op.toNat with
  | 0x03 | 0x13 => if m = .m1s then some (.read 0) else none
  | 0x0B | 0x0C => match m with
    | .m1s => some (.read 0) | .m8s => some (.read 4) | .m8d => some (.read 5) | _ => none
  | 0x6B | 0x6C => if m = .m1s then some (.read 1) else none
  | 0xEB | 0xEC => if m = .m1s ∨ m = .m4s then some (.read 2) else none
  | 0xED => if m = .m4d then some (.read 3) else none
  | 0xEE => match m with
    | .m4d => some (.read 3) | .m8s => some (.read 4) | .m8d => some (.read 5) | _ => none
  | 0x02 | 0x12 => if m = .m1s ∨ m.octal = true then some .program else none
  | 0x32 | 0x34 => if m = .m1s then some .program else none
  | 0x38 | 0x3E => if m = .m1s ∨ m = .m4s then some .program else none
  | 0x20 | 0x21 => some (.erase 4)
  | 0x52 | 0x5C => some (.erase 32)
  | 0xD8 | 0xDC => some (.erase 64)
  | 0x60 | 0xC7 | 0x01 | 0x81 => some .latchWrite
  | 0x06 | 0x04 | 0x05 | 0x70 | 0x85 | 0x9F | 0x66 | 0x99 => some .other
  | 0x35 | 0x15 | 0xB7 | 0xE9 => if quadSide then some .other else none
  | 0x5A => if m = .m1s ∨ m = .m8d then some .other else none
  | 0x48 | 0x4B => if m = .m1s then some .other else none
  | 0x77 => if m = .m1s ∨ m = .m4s then some .other else none
  | 0x42 | 0x44 | 0x36 | 0x39 | 0x7E | 0x98 => if m = .m1s then some .latchWrite else none
  | 0x75 | 0x7A | 0xB0 | 0x30 | 0xB9 | 0xAB => some .other
  | _ => none

/-- Whether an opcode carries a 4-byte address whatever the address mode. -/
def op4Byte (op : Byte) : Bool :=
  op ∈ ([0x13, 0x0C, 0x6C, 0xEC, 0xEE, 0x12, 0x34, 0x3E, 0x21, 0x5C, 0xDC] : Bytes)

/-! ### Protocol configuration (R93, R94, R96) -/

/-- The protocol set of a port, as its registers hold it. -/
structure ProtoSet where
  cfg : Word
  dummy : Word
  flash : Word
  rdop : Word
  fsck : Word
  deriving DecidableEq, Repr

/-- Whether the platform-side mode code is permitted. -/
def ProtoSet.permits (p : ProtoSet) (code : Nat) : Bool := bit p.cfg (24 + code)
/-- FGPn_PROTO_CFG.pfreq. -/
def ProtoSet.pfreq (p : ProtoSet) : Nat := fld p.cfg 21 14
/-- FGPn_FSCK.m. -/
def ProtoSet.m (p : ProtoSet) : Nat := fld p.fsck 4 0
/-- FGPn_FLASH_CFG.mode. -/
def ProtoSet.flashMode (p : ProtoSet) : Nat := fld p.flash 2 0

/-- Data bits per flash SCK cycle of a mode code, code 0 in the form its read opcode implies (R93). -/
def flashBits (code : Nat) (op : Nat) : Nat :=
  match code with
  | 0 => if op = 0x6B ∨ op = 0x6C ∨ op = 0xEB ∨ op = 0xEC then 4 else 1
  | 1 => 4
  | 2 => 8
  | 3 => 8
  | _ => 16

/-- The flash side's line rate, in units of 1/6 MHz times bits (R93, R96). -/
def flashRate6 (p : ProtoSet) : Nat :=
  let lin := flashBits p.flashMode (fld p.rdop 7 0)
  let wr := if bit p.cfg 22 then min lin (flashBits p.flashMode (fld p.rdop 15 8)) else lin
  wr * 75 * p.m

/-- The platform side's line rate of a mode code in its fastest form, in the same units: the lower of pfreq and the
form's maximum SCK (7.5 ns, or 5 ns in 8D-8D-8D). -/
def platRate6 (p : ProtoSet) (code : Nat) : Nat :=
  match code with
  | 0 => 4 * min (6 * p.pfreq) 800
  | 1 => 4 * min (6 * p.pfreq) 800
  | 2 => 8 * min (6 * p.pfreq) 800
  | 3 => 8 * min (6 * p.pfreq) 800
  | _ => 16 * min (6 * p.pfreq) 1200

/-- The rule of R93 holds for every permitted mode. -/
def lineRateOk (p : ProtoSet) : Bool :=
  (List.range 5).all fun c => !p.permits c || decide (platRate6 p c ≤ flashRate6 p)

/-- Rounded-up division. -/
def cdiv (a b : Nat) : Nat := (a + b - 1) / b

/-- Whether read group `g` belongs to a permitted mode (R81, R85). -/
def groupOn (p : ProtoSet) (g : Nat) : Bool :=
  match g with
  | 0 => p.permits 0
  | 1 => p.permits 0
  | 2 => p.permits 0 || p.permits 1
  | 3 => p.permits 2
  | 4 => p.permits 3
  | 5 => p.permits 4
  | _ => false

/-- Platform cycles of command and shortest address in group `g` (R94); in group 2 of the two forms the shorter one (assumption log
123). -/
def capCycles (p : ProtoSet) (g : Nat) : Nat :=
  match g with
  | 0 => 32
  | 1 => 32
  | 2 => if p.permits 1 then 8 else 14
  | 3 => 5
  | 4 => 6
  | _ => 3

/-- Flash cycles of command and 4-byte address in the form of lin_op (R91, R94, assumption log 123). -/
def cafCycles (p : ProtoSet) : Nat :=
  let op := fld p.rdop 7 0
  match p.flashMode with
  | 0 => if op = 0xEB ∨ op = 0xEC then 16 else 40
  | 1 => 10
  | 2 => 6
  | 3 => 6
  | _ => 3

/-- The minimum dummy count of read group `g` (R94).  Every time is scaled by 2 · pfreq · m, so the computation is exact. -/
def dMin (p : ProtoSet) (g : Nat) : Nat :=
  let f := p.pfreq
  let m := p.m
  let tp := max (2000 * m) (if g = 5 then 10 * f * m else 15 * f * m)
  let tf := 160 * f
  let d := if g = 2 then max (fld p.rdop 20 16) (fld p.rdop 25 21) else fld p.rdop 20 16
  let csh := fld p.flash 11 8
  let delta := (cafCycles p * tf - capCycles p g * tp) + (csh * tf - 20 * f * m)
  let aFwd := 60 * f * m + 2 * tp
  let aRes := 130 * f * m + 3 * tp
  max (cdiv (delta + d * tf) tp + cdiv aFwd tp) (cdiv aRes tp)

/-- The effective dummy count of group `g`: 0 where its mode is not permitted (R94, R104). -/
def dEff (p : ProtoSet) (g : Nat) : Nat :=
  if groupOn p g then min 31 (max (dMin p g) (fld p.dummy (5 * g + 4) (5 * g))) else 0

/-- FGPn_PROTO_DUMMY_EFF. -/
def dummyEff (p : ProtoSet) : Word :=
  (List.range 6).foldl (fun w g => setFld w (5 * g + 4) (5 * g) (dEff p g)) 0

/-- The rule of R94 holds: no permitted group needs more than 31 dummy cycles. -/
def dummyOk (p : ProtoSet) : Bool :=
  (List.range 6).all fun g => !groupOn p g || decide (dMin p g ≤ 31)

/-- The code a write of FGPn_PROTO_CFG is refused with, if any (R104, R105, assumption log 124). -/
def protoCfgBad (w : Word) : Option Nat :=
  let bm := fld w 2 0
  if bm > 4 ∨ bit w (24 + bm) = false then some 0x0E03
  else if fld w 10 6 < 20 ∨ fld w 10 6 > 31 ∨ fld w 13 11 = 1 ∨ fld w 21 14 < 5 ∨ fld w 21 14 > 200 then some 0x0E04
  else none

/-- The code a write of FGPn_FLASH_CFG is refused with, if any (R96, R105); the order of the codes is the model's (assumption log
124). -/
def flashCfgBad (m : Nat) (w : Word) : Option Nat :=
  if fld w 2 0 ≠ 4 ∧ fld w 2 0 < 5 ∧ m > 10 then some 0x0E02
  else if fld w 2 0 > 4 then some 0x0E03
  else if fld w 11 8 = 0 then some 0x0E04
  else none

/-- The code a write of FGPn_FSCK is refused with, if any (R96). -/
def fsckBad (flashMode : Nat) (w : Word) : Option Nat :=
  let m := fld w 4 0
  if m < 2 ∨ m > 16 ∨ (m > 10 ∧ flashMode ≠ 4) then some 0x0E02 else none

/-! ### Windows and the remapper -/

/-- First block of a window. -/
def WinDesc.b (w : WinDesc) : Nat := fld w.base 31 12
/-- Last block of a window. -/
def WinDesc.l (w : WinDesc) : Nat := fld w.limit 31 12
/-- Policy code (R106). -/
def WinDesc.pol (w : WinDesc) : Nat := fld w.policy 2 0
/-- PROGRAM may be forwarded. -/
def WinDesc.progOk (w : WinDesc) : Bool := bit w.policy 4
/-- ERASE of `kib` KiB may be forwarded. -/
def WinDesc.eraseOk (w : WinDesc) (kib : Nat) : Bool :=
  bit w.policy (if kib = 4 then 5 else if kib = 32 then 6 else 7)
/-- The image that backs the window. -/
def WinDesc.img (w : WinDesc) : Nat := fld w.policy 9 8
/-- First frame of the window. -/
def WinDesc.frm (w : WinDesc) : Nat := fld w.policy 31 17
/-- Leaf index of the first block. -/
def WinDesc.lf (w : WinDesc) : Nat := fld w.map 19 0
/-- The window is enabled (R107). -/
def WinDesc.on (w : WinDesc) : Bool := decide (w.pol ≠ 0)
/-- The window is write-capable (R115). -/
def WinDesc.writeCap (w : WinDesc) : Bool :=
  (decide (w.pol = 3) || decide (w.pol = 4)) &&
  (w.progOk || w.eraseOk 4 || w.eraseOk 32 || w.eraseOk 64)
/-- The window is verified: RESIDENT or STREAM. -/
def WinDesc.verified (w : WinDesc) : Bool := decide (w.pol = 1) || decide (w.pol = 2)
/-- The window covers block `blk`. -/
def WinDesc.covers (w : WinDesc) (blk : Nat) : Bool :=
  w.on && decide (w.b ≤ blk) && decide (blk ≤ w.l)

/-- The flash region of a platform region (R110): 16 MiB regions, `uint8_t` arithmetic. -/
def remapRegion (abMap abCtrl : Word) (sel : Bool) (r : Nat) : Nat :=
  let count := fld abCtrl 4 0
  let ab := (r + 256 - fld abMap 7 0) % 256
  let ib := (r + 256 - fld abMap 15 8) % 256
  let a := fld abMap 23 16
  let b := fld abMap 31 24
  if count ≠ 0 ∧ ab < count then ((if sel then b else a) + ab) % 256
  else if count ≠ 0 ∧ ib < count then ((if sel then a else b) + ib) % 256
  else r

/-- The flash address of a platform address (R110). -/
def remap (abMap abCtrl : Word) (sel : Bool) (pa : Nat) : Nat :=
  remapRegion abMap abCtrl sel (pa / 2 ^ 24 % 256) * 2 ^ 24 + pa % 2 ^ 24

/-- The view of a platform region: 1 active, 2 inactive, 0 neither (R110). -/
def viewOf (abMap abCtrl : Word) (r : Nat) : Nat :=
  let count := fld abCtrl 4 0
  if count ≠ 0 ∧ (r + 256 - fld abMap 7 0) % 256 < count then 1
  else if count ≠ 0 ∧ (r + 256 - fld abMap 15 8) % 256 < count then 2
  else 0

/-- The validity of an A/B map (R111). -/
def abMapOk (abMap abCtrl : Word) : Bool :=
  let c := fld abCtrl 4 0
  let ab := fld abMap 7 0
  let ib := fld abMap 15 8
  let a := fld abMap 23 16
  let b := fld abMap 31 24
  c = 0 || (decide (c ≤ 16) && decide (ab + c ≤ 256) && decide (ib + c ≤ 256) && decide (a + c ≤ 256) &&
    decide (b + c ≤ 256) && (decide (ab + c ≤ ib) || decide (ib + c ≤ ab)) &&
    (decide (a + c ≤ b) || decide (b + c ≤ a)))

/-- A window's flash range as pieces of one region each: region, first and last block in it. -/
def flashPieces (abMap abCtrl : Word) (sel : Bool) (w : WinDesc) : List (Nat × Nat × Nat) :=
  (List.range (w.l / 4096 + 1 - w.b / 4096)).map fun i =>
    let r := w.b / 4096 + i
    (remapRegion abMap abCtrl sel r,
     if i = 0 then w.b % 4096 else 0,
     if r = w.l / 4096 then w.l % 4096 else 4095)

/-- Two windows' flash ranges intersect under a selection. -/
def flashMeet (abMap abCtrl : Word) (sel : Bool) (v w : WinDesc) : Bool :=
  (flashPieces abMap abCtrl sel v).any fun p =>
    (flashPieces abMap abCtrl sel w).any fun q =>
      decide (p.1 = q.1) && decide (p.2.1 ≤ q.2.2) && decide (q.2.1 ≤ p.2.2)

/-- The first pair (i, j) of indices of `ws`, i before j unless `both`, that satisfies `f`. -/
def firstPair (ws : List WinDesc) (f : WinDesc → WinDesc → Bool) : Option (Nat × Nat) :=
  (List.range ws.length).findSome? fun i =>
    (List.range ws.length).findSome? fun j =>
      match ws[i]?, ws[j]? with
      | some v, some w => if i ≠ j ∧ f v w then some (i, j) else none
      | _, _ => none

/-- R115 is broken: a write-capable and a verified window meet on flash, under either selection where a map is in use. -/
def writeMeets (abMap abCtrl : Word) (sel : Bool) (v w : WinDesc) : Bool :=
  v.writeCap && w.verified && decide (v.b ≤ v.l) && decide (w.b ≤ w.l) &&
  (flashMeet abMap abCtrl sel v w ||
    (decide (fld abCtrl 4 0 ≠ 0) && flashMeet abMap abCtrl (!sel) v w))

/-- The configuration check of R128: the lowest failing code with the windows involved, as FGPn_WIN_CHECK holds them (0 when the check
passes); which windows it names the rule leaves open (assumption log 125).  `frameRange` is FGPn_FRAME_RANGE and `lanes` the number of
reserved lanes. -/
def winCheck (ws : List WinDesc) (abMap abCtrl frameRange : Word) (density lanes : Nat) (sel : Bool) : Word :=
  let one (code : Nat) (f : WinDesc → Bool) : Option Word :=
    (List.range ws.length).findSome? fun i =>
      match ws[i]? with
      | some w => if w.on ∧ f w then some (setFld (mk 15 0 code) 20 16 i) else none
      | none => none
  let two (code : Nat) (f : WinDesc → WinDesc → Bool) : Option Word :=
    (firstPair ws fun v w => v.on && w.on && f v w).map fun p =>
      setFld (setFld (mk 15 0 code) 20 16 p.1) 25 21 p.2
  let first := fld frameRange 15 0
  let count := fld frameRange 31 16
  let r := (one 0x0E11 fun w => decide (w.l < w.b) || decide (w.l * 4096 + 4095 ≥ 2 ^ density))
    <|> (two 0x0E12 fun v w => decide (v.b ≤ w.l) && decide (w.b ≤ v.l))
    <|> (two 0x0E13 fun v w => decide (v.pol = 6) && decide (w.pol = 6))
    <|> (one 0x0E13 fun w => decide (w.pol = 6) && decide (w.b ≠ w.l))
    <|> (one 0x0E14 fun w => decide (w.pol = 1) &&
          !(decide (first ≤ w.frm) && decide (w.frm + (w.l - w.b) < first + count)))
    <|> (two 0x0E15 fun v w => writeMeets abMap abCtrl sel v w || writeMeets abMap abCtrl sel w v)
    <|> (if abMapOk abMap abCtrl then none else some (mk 15 0 0x0E16))
    <|> (if lanes = 0 then one 0x0E17 fun w => decide (w.pol = 2) else none)
    <|> (one 0x0E18 fun w => decide (w.pol = 7))
  r.getD 0

/-! ### Digest trees (R139, R140) -/

/-- The level sizes of a tree of `n` leaves, `fuel` levels at most. -/
def levelSizes : Nat → Nat → List Nat
  | 0, n => [n]
  | f + 1, n => if n ≤ 1 then [n] else n :: levelSizes f ((n + 1) / 2)

/-- The level sizes of a tree (33 levels suffice for any 32-bit leaf count). -/
def treeSizes (n : Nat) : List Nat := levelSizes 33 n

/-- total_len of a DTT of `n` leaves (R140). -/
def dttLen (n : Nat) : Nat := 128 + 64 * (treeSizes n).foldl (· + ·) 0

/-- One level up: pairs hashed, a lone node copied (R140). -/
def nodesUp : List Bytes → List Bytes
  | [] => []
  | [x] => [x]
  | x :: y :: t => sha512 (0x01 :: x ++ y) :: nodesUp t

/-- The first `count` 64-byte nodes of a byte string, zero beyond its end. -/
def nodesOf : Nat → Bytes → List Bytes
  | 0, _ => []
  | k + 1, bs => sliceZ bs 0 64 :: nodesOf k (bs.drop 64)
/-- The nodes of `count` 64-byte entries from offset `o`. -/
def nodesAt (d : Bytes) (o count : Nat) : List Bytes := nodesOf count (d.drop o)

/-- Whether the stored levels from offset `o` hold the levels computed from `below`, and the last is `root`. -/
def levelsOk (d : Bytes) (root : Bytes) : List Nat → Nat → List Bytes → Bool
  | [], _, below => decide (below = [root])
  | n :: ns, o, below =>
    let up := nodesUp below
    decide (nodesAt d o n = up) && levelsOk d root ns (o + 64 * n) up

/-- The first failing condition of codes 0x1001 to 0x1004 for a DTT against its tree context (R142). -/
def dttBad (d : Bytes) (t : TreeCtx) : Option Nat :=
  let n := fieldLe d 8 4
  let sizes := treeSizes t.leaves
  if d.take 4 ≠ [0x57, 0x44, 0x54, 0x54] ∨ fieldLe d 4 2 ≠ 1 ∨ fieldLe d 6 2 ≠ 0x80 ∨
     fieldLe d 0x0C 1 ≠ (treeSizes n).length ∨
     allZero (sliceZ d 0x0D 3) = false ∨ allZero (sliceZ d 0x14 108) = false then some 0x1001
  else if n ≠ t.leaves then some 0x1002
  else if fieldLe d 0x10 4 ≠ dttLen n ∨ t.addr + dttLen n > 2 ^ 32 then some 0x1003
  else if levelsOk d t.root (sizes.drop 1) (128 + 64 * n) (nodesAt d 128 n) then none
  else some 0x1004

/-- The level-1 nodes of a DTT: its leaves paired once (R143). -/
def level1 (d : Bytes) (leaves : Nat) : List Bytes := nodesUp (nodesAt d 128 leaves)

end Sys2Proof.Machine
end

