-- ==== Sys2Proof/Machine/PortState.lean ====
section
/-! DEFINITION. Machine/PortState.lean: the port state machine (R167) and what its transitions do: claiming and releasing
frames (R137), failed checks (R157), measurements (R181), the release sequence (R179) and port reset (R87, R98,
R126). -/
namespace Sys2Proof.Machine

/-! ### A port's configuration, read from its registers -/

/-- A command on the flash side of port `n`, driven on chip select `cs`: nothing on a chip that is not fitted (R97), and the
opcode's extension byte in the octal modes (R91). -/
def flashOut (s : State) (n cs op addr len : Nat) (data : Bytes) : State :=
  let c := rget s (reg .fgpCtl n 0x04C)
  if pinsLive s ∧ (cs = 0 ∨ bit c 3) then
    emit s (.flash n cs (if fld c 2 0 < 3 then none else some (if bit c 4 then op else 255 - op)) op addr len data)
  else s
/-- A read of the port's own, which always uses lin_op (R91). -/
def ownRead (s : State) (n cs addr len : Nat) : State :=
  flashOut s n cs (rfld s (reg .fgpCtl n 0x050) 7 0) addr len []

/-- The protocol set of port `n`. -/
def protoSet (s : State) (n : Nat) : ProtoSet :=
  ⟨rget s (reg .fgpCtl n 0x040), rget s (reg .fgpCtl n 0x044), rget s (reg .fgpCtl n 0x04C),
   rget s (reg .fgpCtl n 0x050), rget s (reg .fgpCtl n 0x054)⟩
/-- The 32 window descriptors of port `n` (R106). -/
def wins (s : State) (n : Nat) : List WinDesc :=
  (List.range 32).map fun w =>
    ⟨rget s (reg .fgpWin n (0x100 + 16 * w)), rget s (reg .fgpWin n (0x104 + 16 * w)),
     rget s (reg .fgpWin n (0x108 + 16 * w)), rget s (reg .fgpWin n (0x10C + 16 * w))⟩
/-- FGPn_AB_MAP. -/
def abMap (s : State) (n : Nat) : Word := rget s (reg .fgpCtl n 0x090)
/-- FGPn_AB_CTRL. -/
def abCtrl (s : State) (n : Nat) : Word := rget s (reg .fgpCtl n 0x094)
/-- FGPn_PROTO_CFG.density. -/
def density (s : State) (n : Nat) : Nat := rfld s (reg .fgpCtl n 0x040) 10 6
/-- The latched set as the registers hold it (R127). -/
def latchNow (s : State) (n : Nat) : Latched :=
  ⟨wins s n, abMap s n, abCtrl s n, rget s (reg .fgpCtl n 0x08C), rget s (reg .fgpCtl n 0x09C), density s n⟩
/-- The flash address of a platform address under a selection (R110). -/
def flashAddr (s : State) (n : Nat) (sel : Bool) (pa : Nat) : Nat := remap (abMap s n) (abCtrl s n) sel pa
/-- FGPn_ARM. -/
def arms (s : State) (n : Nat) : Word := rget s (reg .fgpWin n 0x044)
/-- The configuration check evaluated now (R128). -/
def checkNow (s : State) (n : Nat) : Word :=
  winCheck (wins s n) (abMap s n) (abCtrl s n) (rget s (reg .fgpCtl n 0x09C)) (density s n) (lanesReserved s)
    (bit (abCtrl s n) 8)

/-- The state codes of R130. -/
def PortSt.code : PortSt → Nat
  | .held => 0x3C | .measuring => 0x5A | .releasePending => 0x66 | .running => 0x96
  | .updateStaged => 0xA5 | .recovering => 0xC3 | .quarantined => 0x99

/-- The port decides address-bearing commands (R109). -/
def PortSt.deciding : PortSt → Bool | .running => true | .updateStaged => true | _ => false

/-! ### Command status (R130, R133) -/

/-- FGPn_CMD_STATUS.busy. -/
def cmdBusy (s : State) (n : Nat) : Bool := rbit s (reg .fgpCtl n 0x088) 20
/-- A command's sequence begins: busy, with its code and no result. -/
def cmdStart (s : State) (n cmd : Nat) : State :=
  rset s (reg .fgpCtl n 0x088) (setFld (mk 19 16 cmd) 20 20 1)
/-- A command ends at once with a result. -/
def cmdResult (s : State) (n cmd result : Nat) : State :=
  rsetf (rsetf s (reg .fgpCtl n 0x088) 15 0 result) (reg .fgpCtl n 0x088) 19 16 cmd
/-- The command in progress ends with a result: busy clears and control bit 1 is set (R133). -/
def cmdEnd (s : State) (n result : Nat) : State :=
  if cmdBusy s n then
    irq (rsetb (rsetf s (reg .fgpCtl n 0x088) 15 0 result) (reg .fgpCtl n 0x088) 20 false) .fgpCtl n 1
  else s

/-! ### State changes -/

/-- A manifest check job that is running and bound to port `n` (R173). -/
def boundTo (j : Job) (n : Nat) : Bool :=
  decide (j.st = .running) && decide (fieldLe j.desc 0 1 = 0x1F) && decide (fieldLe j.desc 0x34 1 = n) && j.done.isNone &&
  decide (j.early = 0)
/-- The job bound to port `n` is ended: it completes with `code` at its next step (R171, R184). -/
def endBound (s : State) (n code : Nat) : State :=
  { s with jobs := s.jobs.map fun e => if boundTo e.2 n then (e.1, { e.2 with early := code }) else e }

/-- FGPn_STATE changes: prev, control bit 0, bit 2 on quarantine, and the arm bits on entry to QUARANTINED, on leaving the
deciding states, and on entry to HELD, where no latched set is in force (R116, R117, R133). -/
def toState (s : State) (n : Nat) (st : PortSt) : State :=
  let p := port s n
  if p.st = st then s else
  let s := setPort s n { p with prev := p.st, st := st }
  let s := if (p.st.deciding ∧ !st.deciding) ∨ st = .quarantined ∨ st = .held then rset s (reg .fgpWin n 0x044) 0 else s
  let s := irq (endBound s n 0x0E37) .fgpCtl n 0
  if st = .quarantined then irq s .fgpCtl n 2 else s

/-- The timers of port `n`'s sequences and open blocks stopped. -/
def stopPortTimers (s : State) (n : Nat) : State :=
  { s with timers := s.timers.filter fun e =>
      match e.1 with
      | .relD1 m => m != n
      | .relD2 m => m != n
      | .defer m _ => m != n
      | _ => true }

/-- The open blocks of port `n` discarded unchecked, and its sequence over. -/
def dropWork (s : State) (n : Nat) : State :=
  modPort (stopPortTimers s n) n fun p =>
    { p with blocks := [], seq := .idle, act := false, next := none, hold := false, refills := [], refillAgain := false,
             leafReqs := [], warm := [], own := [] }

/-- Both resets driven low (R178). -/
def holdPins (s : State) (n : Nat) : State := modPort s n fun p => { p with prst := false, phold := false }

/-- Port `n` gives up every frame it owns (R137). -/
def freeFrames (s : State) (n : Nat) : State :=
  mapFrames s (fun _ f => f.owner == some n) fun _ => {}

/-- Port `n` enters HELD: resets low, open blocks discarded, frames, tree contexts and node cache cleared, staged result
discarded (R137, R141, R144, R171). -/
def enterHeld (s : State) (n : Nat) : State :=
  let s := toState (freeFrames (holdPins (dropWork s n) n) n) n .held
  modPort s n fun p =>
    { p with trees := [], cache := [], staged := none, man := none, golden := none, inForce := false }

/-! ### Measurements (R158, R181) -/

/-- The event record of R158. -/
def failRecord (cause image win leaf fa : Nat) (digest : Bytes) : Bytes :=
  leBytes 2 cause ++ leBytes 1 image ++ leBytes 1 win ++ leBytes 4 leaf ++ leBytes 4 fa ++ zeros 4 ++
    sliceZ digest 0 64
/-- The image record of R181. -/
def imageRecord (e : ManEntry) : Bytes :=
  leBytes 1 e.image ++ zeros 3 ++ leBytes 4 e.leaves ++ leBytes 8 e.version ++ sliceZ e.root 0 64
/-- The latched-set record of R181. -/
def latchedRecord (l : Latched) : Bytes :=
  (l.wins.flatMap fun w => leBytes 4 w.base.toNat ++ leBytes 4 w.limit.toNat ++ leBytes 4 w.policy.toNat ++
    leBytes 4 w.map.toNat) ++ leBytes 4 l.abMap.toNat ++ leBytes 4 l.abCtrl.toNat ++ leBytes 4 l.relCfg.toNat ++
    leBytes 4 l.frameRange.toNat ++ leBytes 4 l.density
/-- The activation record of R181. -/
def activationRecord (sel : Bool) (flips : Nat) (digest : Bytes) : Bytes :=
  leBytes 1 (b2n sel) ++ leBytes 1 flips ++ zeros 14 ++ sliceZ digest 0 64
/-- The recovery record of R181. -/
def recoveryRecord (code done cs1 : Nat) (digest : Bytes) : Bytes :=
  leBytes 2 code ++ zeros 2 ++ leBytes 4 done ++ leBytes 4 cs1 ++ zeros 4 ++ sliceZ digest 0 64

/-- Slots 0 to 3 of port `n` at their initial value (R181). -/
def clearMan (s : State) (n : Nat) : State :=
  (List.range 4).foldl (fun s k => mclear s (pslot n k)) s
/-- Slots 0 to 3 extended from an accepted manifest (R181). -/
def measureMan (s : State) (n : Nat) (m : Manifest) : State :=
  let s := extend s (pslot n 0) m.digest
  let s := extend s (pslot n 1) m.key
  let s := m.entries.foldl (fun s e => extend s (pslot n 2) (imageRecord e)) s
  extend s (pslot n 3) (latchedRecord (latchNow s n))
/-- Slot 5 extended at the end of a recovery (R181). -/
def measureRecovery (s : State) (n code : Nat) : State :=
  extend s (pslot n 5) (recoveryRecord code (rfld s (reg .fgpCtl n 0x0A8) 15 0) (port s n).recBase
    (match (port s n).golden with | some g => g.digest | none => zeros 64))

/-! ### Failures -/

/-- The port enters QUARANTINED with a cause: resets low, open blocks discarded, data frames INVALID and still claimed, the
command in progress ended with the cause (R157, R168, R190). -/
def quarantine (s : State) (n cause : Nat) : State :=
  let s := if (port s n).st = .recovering then measureRecovery s n cause else s
  let s := toState (holdPins (dropWork s n) n) n .quarantined
  let s := mapFrames s (fun _ f => f.owner == some n && !f.digest)
    fun f => { f with st := .invalid, data := [] }
  cmdEnd (rsetf s (reg .fgpCtl n 0x0A4) 15 0 cause) n cause

/-- A failed check of port `n` (R157) with its record of R158: cause and the block concerned; the code is reported (R66,
R166). -/
def failedWith (s : State) (n cause image win leaf fa : Nat) (r : Bytes) : State :=
  let first := !rbit s (reg .fgpMb n 0x300) 16
  let s := report s .fgpCtl n cause 0 0
  let s := quarantine s n cause
  let s := if first then
      irq (rsetb (rset (rset s (reg .fgpMb n 0x308) (BitVec.ofNat 32 (fa / 4096 * 4096))) (reg .fgpMb n 0x30C)
        (setFld (setFld (mk 19 0 leaf) 24 20 win) 26 25 image)) (reg .fgpMb n 0x300) 16 true) .fgpMb n 8
    else s
  mirrorQuarantine (hwExtend s (pslot n 7) r) n r

/-- A failed check with the computed digest.  In RECOVERING only the leaf fetches of the golden tree and a digest frame's
uncorrectable word lead to one (R144, R150). -/
def failedCheck (s : State) (n cause image win leaf fa : Nat) (digest : Bytes) : State :=
  failedWith s n cause image win leaf fa (failRecord cause image win leaf (fa / 4096 * 4096) digest)

/-- A configuration failure of the sequence in progress (R167, R177, R186): HELD in MEASURING, the origin in RECOVERING,
QUARANTINED at activation step 7. -/
def configFail (s : State) (n code : Nat) : State :=
  match (port s n).st with
  | .measuring => cmdEnd (enterHeld s n) n code
  | .recovering =>
    let o := (port s n).origin
    let s := measureRecovery s n code
    if o = .held then cmdEnd (enterHeld s n) n code
    else cmdEnd (modPort (toState (dropWork s n) n o) n fun p => { p with golden := none }) n code
  | .updateStaged => quarantine s n code
  | _ => s

/-! ### Claiming frames (R137) -/

/-- The frames of a range register: first and count. -/
def frameRange (w : Word) : Nat × Nat := (fld w 15 0, fld w 31 16)
/-- Frame `f` lies in a range. -/
def inRange (r : Nat × Nat) (f : Nat) : Bool := decide (r.1 ≤ f) && decide (f < r.1 + r.2)
/-- FGPn_FRAME_RANGE and DU_PORTn_DRANGE. -/
def frameRanges (s : State) (n : Nat) : (Nat × Nat) × (Nat × Nat) :=
  (frameRange (rget s (reg .fgpCtl n 0x09C)), frameRange (rget s (reg .du 0 (0x104 + 16 * n))))

/-- The code the frame ranges of port `n` refuse with, if any (R137). -/
def frameRangesBad (s : State) (n : Nat) : Option Nat :=
  let (a, b) := frameRanges s n
  let total := s.part.frames
  let per := s.part.framesPerBank
  let inBank (r : Nat × Nat) (k : Nat) : Bool :=
    decide (0 < r.2) && decide (r.1 / per ≤ k) && decide (k ≤ (r.1 + r.2 - 1) / per)
  if a.1 + a.2 > total ∨ b.1 + b.2 > total then some 0x0F01
  else if (decide (0 < a.2) && decide (0 < b.2) && decide (a.1 < b.1 + b.2) && decide (b.1 < a.1 + a.2)) ||
      (s.frames.any fun e => (inRange a e.1 || inRange b e.1) && e.2.owner.isSome && e.2.owner != some n) then
    some 0x0F02
  else if (List.range s.part.banks).any fun k => (inBank a k || inBank b k) && !domOn s (16 + k) then some 0x0F03
  else none

/-- The frames from `f` on, `k` of them, claimed by port `n` as data or digest frames. -/
def claimRun (s : State) (n : Nat) (digest : Bool) : Nat → Nat → State
  | _, 0 => s
  | f, k + 1 => claimRun (setFrame s f { owner := some n, digest := digest }) n digest (f + 1) k

/-- Port `n` claims its frames on leaving HELD, and the DU counters of the port restart (R137, R165). -/
def claimFrames (s : State) (n : Nat) : State :=
  let (a, b) := frameRanges s n
  let s := claimRun (claimRun s n false a.1 a.2) n true b.1 b.2
  rset (rset s (reg .du 0 (0x108 + 16 * n)) 0) (reg .du 0 (0x10C + 16 * n)) 0

/-! ### Port reset (R87, R98, R126) -/

/-- The platform side's protocol state as PORT n reset and a protocol reset leave it (R87). -/
def protoReset (s : State) (n : Nat) : State :=
  let c := rget s (reg .fgpCtl n 0x040)
  modPort s n fun p =>
    { p with mode := .ofCode (fld c 2 0), addr4 := bit c 3, wel := false, wrap := none, errInd := false }

/-- Fn_RST_N driven low for 10 µs (R98). -/
def pulseFlashReset (s : State) (n : Nat) : State := tset (tstop s (.rstQuiet n)) (.rstPulse n) (us 10)

/-- The port's timers stopped, its busy poll and reset pulse included. -/
def stopAllPortTimers (s : State) (n : Nat) : State :=
  let s := stopPortTimers s n
  tstop (tstop (tstop (tstop s (.busyPoll n)) (.busyMax n)) (.rstPulse n)) (.rstQuiet n)

/-- A reset that covers port `n`: HELD, frames freed, registers at reset, mailbox and protocol state cleared, measurement
slots 4 to 7 at their initial value, and the manifest job bound to it ended (R40, R87, R126, R173, R181). -/
def portReset (s : State) (n : Nat) : State :=
  let s := stopAllPortTimers (freeFrames (endBound s n 0x0E37) n) n
  let s := pageClear (pageClear (pageClear s .fgpCtl n) .fgpWin n) .fgpMb n
  let s := setPort s n {}
  let s := (List.range 4).foldl (fun s k => mclear s (pslot n (4 + k))) s
  protoReset s n

/-- Port `n` leaves a reset that covers it: its flash reset is pulsed (R98). -/
def portLeaveReset (s : State) (n : Nat) : State := pulseFlashReset s n

/-! ### Release sequence (R179) -/

/-- The first output of the release sequence goes high, or the second. -/
def releaseOut (s : State) (n : Nat) (second : Bool) : State :=
  let first := match (port s n).latched with | some l => bit l.relCfg 0 | none => false
  modPort s n fun p =>
    if first != second then { p with prst := true } else { p with phold := true }

/-- The release sequence from its wait d1 (R179 step 2); at activation a LOCKED device suspends before it (R191). -/
def startRelease (s : State) (n : Nat) : State :=
  let d1 := match (port s n).latched with | some l => fld l.relCfg 15 4 | none => 0
  let s := modPort s n fun p => { p with seq := .relD1 }
  if s.locked then s else tset s (.relD1 n) (us d1 + 1)

/-- d1 ends: the first output high, then the wait d2; nothing while LOCKED (R169, R179). -/
def relD1Ends (s : State) (n : Nat) : State :=
  if s.locked ∨ (port s n).seq ≠ .relD1 then s else
  fire s (.relD1 n) fun s =>
    let d2 := match (port s n).latched with | some l => fld l.relCfg 27 16 | none => 0
    tset (modPort (releaseOut s n false) n fun p => { p with seq := .relD2 }) (.relD2 n) (us d2 + 1)

/-- d2 ends: the second output high, busy clears; after an activation the port is RUNNING (R179, R186). -/
def relD2Ends (s : State) (n : Nat) : State :=
  if s.locked ∨ (port s n).seq ≠ .relD2 then s else
  fire s (.relD2 n) fun s =>
    let p := port s n
    let s := modPort (releaseOut s n true) n fun p => { p with seq := .idle, act := false, staged := if p.act then none else p.staged }
    let s := if p.act then toState s n .running else s
    cmdEnd s n 0

/-! ### The end of a wake (R482, R486) -/

/-- The domains that Rest switched off come back with what they held, but for the platform-side protocol state of each port
(R482); the state is RUN. -/
def backToRun (s : State) : State :=
  let back := s.domOff &&& ~~~ s.pwr.off
  let s := { s with domOff := s.pwr.off }
  let s := ((List.range s.part.ports).filter fun n => bit back n).foldl protoReset s
  setPwrState s 0
/-- The wake completes (R486). -/
def wakeDone (s : State) : State := irq (rsetf (backToRun s) (pwrReg 0x040) 10 8 s.pwr.cause) .pwr 0 0
/-- A request that wakes the device waits for the wake and is then served (R486). -/
def wakeFor (s : State) (cause : Nat) : State :=
  if pwrState s = 0 then s else fire (wakeSource s cause) .wakeDone wakeDone

end Sys2Proof.Machine
end

