-- ==== Sys2Proof/Machine/PortStream.lean ====
section
/-! DEFINITION. Machine/PortStream.lean: the verified store and the digest unit: ECC events (R148), the node cache (R144),
residency fill and refill (R146, R147), the stream tap and the block check (R151 to R157), scrub (R150). -/
namespace Sys2Proof.Machine

/-! ### ECC events (R148, R150, R163) -/

/-- An ECC event at word `word` of frame `f` counted in the VST: VST_ECC_CORR or VST_ECC_UNCORR, VST_ECC_LAST, the bank's
counters and the interrupt bit; a corrected word is queued for write-back, an uncorrectable one makes the frame ERROR. -/
def eccNote (s : State) (f word source : Nat) (uncorr : Bool) : State :=
  let k := f / s.part.framesPerBank
  let s := rcount s (reg .vst 0 (if uncorr then 0x04C else 0x048)) 31 0 1
  let s := rset s (reg .vst 0 0x050)
    (setFld (setFld (setFld (setFld (mk 14 0 f) 23 15 word) 25 24 source) 26 26 (b2n uncorr)) 31 31 1)
  let s := if uncorr then rcount s (reg .vstBank k 0x044) 31 16 1 else rcount s (reg .vstBank k 0x044) 15 0 1
  let s := irq s .vst 0 (b2n uncorr)
  if uncorr then setFrame s f { frame s f with st := .error }
  else { s with writeBacks := s.writeBacks ++ [(f, word)] }

/-- The flash address of the block a data frame of port `n` holds. -/
def frameFa (s : State) (n f : Nat) : Nat :=
  let fr := frame s f
  match (wins s n)[fr.win]? with
  | some w => flashAddr s n (port s n).sel ((w.b + (f - w.frm)) * 4096)
  | none => 0

/-- A port state in which refills are made (R147). -/
def PortSt.refills : PortSt → Bool
  | .measuring => true | .releasePending => true | .running => true | .updateStaged => true | _ => false

/-! ### The node cache and leaf fetches (R144, R145) -/

/-- The leaves a pair holds. -/
def CachePair.size (c : CachePair) : Nat := if c.l1 = [] then 1 else 2
/-- The cache cut to `room` leaves, most recently used first. -/
def cacheCut : Nat → List CachePair → List CachePair
  | _, [] => []
  | room, c :: t => if c.size ≤ room then c :: cacheCut (room - c.size) t else []
/-- The cached pair that holds a leaf. -/
def cachedPair (p : Port) (image leaf : Nat) : Option CachePair :=
  p.cache.find? fun c => decide (c.image = image) && decide (c.pair = leaf / 2)
/-- The verified digest of a leaf in the cache. -/
def cachedLeaf (p : Port) (image leaf : Nat) : Option Bytes :=
  (cachedPair p image leaf).map fun c => if leaf % 2 = 0 then c.l0 else c.l1
/-- A verified pair enters the cache as the most recently used, the least recently used leaving (R144). -/
def cachePut (p : Port) (c : CachePair) : Port :=
  { p with cache := cacheCut 128 (c :: p.cache.filter fun d => !(d.image == c.image && d.pair == c.pair)) }

/-- A block whose leaf is needed: a hit counts and is marked used, a miss requests one leaf fetch unless its pair is already
being fetched (R145). -/
def needLeaf (s : State) (n : Nat) (r : LeafReq) : State :=
  let p := port s n
  match cachedPair p r.image r.leaf with
  | some c => rcount (setPort s n (cachePut p c)) (reg .du 0 (0x10C + 16 * n)) 15 0 1
  | none =>
    if p.leafReqs.any fun q => decide (q.image = r.image) && decide (q.leaf / 2 = r.leaf / 2) then s
    else rcount (setPort s n { p with leafReqs := p.leafReqs ++ [r] }) (reg .du 0 (0x10C + 16 * n)) 31 16 1

/-- Port `n` has met an uncorrectable error in a frame: FGPn_SC_STATUS.ecc_err and mailbox bit 9, and the platform address of
the first resident read that did (R148, R150). -/
def eccPort (s : State) (n : Nat) (at_ : Option Nat) : State :=
  let s := irq (rsetb s (reg .fgpMb n 0x300) 17 true) .fgpMb n 9
  match at_ with
  | some a => if (port s n).eccAt then s
      else rset (modPort s n fun p => { p with eccAt := true }) (reg .fgpMb n 0x310) (BitVec.ofNat 32 a)
  | none => s

/-- What the owner of frame `f` does after an uncorrectable error in it (R148, R150): a failed check where ecc_act = 1, else the
refill of a data frame.  A digest frame holds no single block: the block of its failed check is a free value (assumption
log 113). -/
def eccAct (s : State) (f : Nat) : State :=
  let fr := frame s f
  match fr.owner with
  | none => s
  | some n =>
    if (port s n).st = .held ∨ (port s n).st = .quarantined then s
    else if rfld s (reg .du 0 (0x100 + 16 * n)) 1 0 = 1 then
      (if fr.digest then
        let (v, s) := draw s 8
        failedCheck s n 0x0E24 fr.image (fieldLe v 0 1 % 32) (fieldLe v 1 3 % 2 ^ 20) (fieldLe v 4 4) (zeros 64)
       else failedCheck s n 0x0E24 fr.image fr.win fr.leaf (frameFa s n f) (zeros 64))
    else if fr.digest then s
    else if (port s n).st.refills ∧ !(port s n).refills.contains f then
      needLeaf (modPort s n fun p => { p with refills := p.refills ++ [f] }) n
        ⟨fr.image, fr.leaf, frameFa s n f, fr.win⟩
    else s

/-- An uncorrectable word found by the scrub or by a diagnostic read acts as a resident read would, with no platform data
involved (R150, R163). -/
def eccScrub (s : State) (f : Nat) : State :=
  match (frame s f).owner with
  | some n => eccAct (eccPort s n none) f
  | none => s

/-- The request that is made again when a leaf has left the cache before it was compared: another leaf fetch, counted as one
(R165). -/
def askLeaf (s : State) (n : Nat) (r : LeafReq) : State :=
  if (port s n).leafReqs.any fun q => decide (q.image = r.image) && decide (q.leaf / 2 = r.leaf / 2) then s
  else rcount (modPort s n fun p => { p with leafReqs := p.leafReqs ++ [r] }) (reg .du 0 (0x10C + 16 * n)) 31 16 1

/-- The tree context of an image. -/
def treeOf (p : Port) (image : Nat) : Option TreeCtx := p.trees.find? fun t => decide (t.image = image)

/-- The flash address and length of a leaf pair (R144). -/
def pairAt (t : TreeCtx) (leaf : Nat) : Nat × Nat :=
  (t.addr + 128 + 128 * (leaf / 2), if leaf / 2 * 2 + 1 < t.leaves then 128 else 64)

/-- A leaf pair as read: the pair and the level-1 node computed from it (R144). -/
def pairNode (t : TreeCtx) (leaf : Nat) (data : Bytes) : CachePair × Bytes :=
  if leaf / 2 * 2 + 1 < t.leaves then
    (⟨t.image, leaf / 2, sliceZ data 0 64, sliceZ data 64 64⟩, sha512 (0x01 :: sliceZ data 0 128))
  else (⟨t.image, leaf / 2, sliceZ data 0 64, []⟩, sliceZ data 0 64)

/-- The pinned level-1 node over a leaf, as its digest frame holds it (R143). -/
def pinnedNode (s : State) (t : TreeCtx) (leaf : Nat) : Bytes :=
  sliceZ (frame s (t.first + leaf / 2 / 64)).data (64 * (leaf / 2 % 64)) 64

/-! ### How far an own access has come (R29) -/

/-- The accesses of a purpose received whole, and the bytes received of the next one. -/
def ownAt (p : Port) (k : Own) : Nat × Nat := ((p.own.find? fun e => e.1 == k).map (·.2)).getD (0, 0)
/-- How far the accesses of a purpose have come, recorded. -/
def ownPut (s : State) (n : Nat) (k : Own) (v : Nat × Nat) : State :=
  modPort s n fun p => { p with own := (k, v) :: p.own.filter fun e => !(e.1 == k) }
/-- The accesses of a purpose are over. -/
def ownClear (s : State) (n : Nat) (k : Own) : State :=
  modPort s n fun p => { p with own := p.own.filter fun e => !(e.1 == k) }

/-- The leaf pair at the head of port `n`'s requests has been read (R144); `ecc` is what the node read meets. -/
def leafFetched (s : State) (n : Nat) (data : Bytes) (ecc : EccRes) : State :=
  let p := port s n
  match p.leafReqs with
  | [] => s
  | r :: rest =>
    let s := ownClear (setPort s n { p with leafReqs := rest }) n .leaf
    match treeOf p r.image with
    | none => s
    | some t =>
      let f := t.first + r.leaf / 2 / 64
      let at8 (w : Nat) : Nat := 8 * (r.leaf / 2 % 64) + w % 8
      let s := match ecc with
        | .clean => s
        | .corrected w => eccNote s f (at8 w) 2 false
        | .uncorrectable w => eccNote s f (at8 w) 2 true
      if (frame s f).st ≠ .valid then failedCheck s n 0x0E24 r.image r.win r.leaf r.fa (zeros 64)
      else
        let (c, node) := pairNode t r.leaf data
        if node ≠ pinnedNode s t r.leaf then failedCheck s n 0x0E25 r.image r.win r.leaf r.fa node
        else setPort s n (cachePut (port s n) c)

/-! ### When the port may use its flash side (R29, R92, R98, R55) -/

/-- The flash side of port `n` carries no forwarded command, and no flash reset or the time after it runs. -/
def flashQuiet (s : State) (n : Nat) : Bool :=
  portOn s n && !s.tbLoss && (tget s (.rstPulse n)).isNone && (tget s (.rstQuiet n)).isNone &&
    !(match (port s n).live with | some l => l.forwards | none => false)
/-- The flash side of port `n` is free for the port's own accesses to CS0. -/
def flashFree (s : State) (n : Nat) : Bool := flashQuiet s n && !(port s n).cs0Busy
/-- It is free for own accesses to a chip select. -/
def ownSide (s : State) (n cs : Nat) : Bool := if cs = 0 then flashFree s n else flashQuiet s n

/-! ### Residency fill and refill (R146, R147) -/

/-- The leaf request of block `blk` of window `w`. -/
def fillReq (s : State) (n w blk : Nat) (d : WinDesc) : LeafReq :=
  ⟨d.img, d.lf + (blk - d.b), flashAddr s n (port s n).sel (blk * 4096), w⟩

/-- The first block at or after block `blk` of window `w` that a RESIDENT window holds, windows in increasing index. -/
def nextFill (ws : List WinDesc) (w blk : Nat) : Option (Nat × Nat × WinDesc) :=
  (List.range ws.length).findSome? fun v =>
    match ws[v]? with
    | some d =>
      if v < w ∨ d.pol ≠ 1 then none
      else if v = w then (if blk ≤ d.l then some (v, blk, d) else none)
      else some (v, d.b, d)
    | none => none

/-- The fill has ended: RELEASE_PENDING in MEASURING (R167), the release sequence at activation, or HELD where a HOLD waits
(R186). -/
def fillEnds (s : State) (n : Nat) : State :=
  let p := port s n
  if p.act then
    if p.hold then cmdEnd (enterHeld s n) n 0 else startRelease s n
  else cmdEnd (toState (modPort s n fun p => { p with seq := .idle }) n .releasePending) n 0

/-- The fill goes on at the first RESIDENT block at or after block `blk` of window `w`, or ends. -/
def fillFrom (s : State) (n w blk : Nat) : State :=
  match nextFill (wins s n) w blk with
  | none => fillEnds s n
  | some (v, b, d) =>
    let f := d.frm + (b - d.b)
    let s := modPort s n fun p => { p with seq := .fill v b false }
    let s := setFrame s f { frame s f with st := .filling, data := [] }
    needLeaf s n (fillReq s n v b d)

/-- The first block of the residency fill of port `n`. -/
def fillStart (s : State) (n : Nat) : State :=
  match nextFill (wins s n) 0 0 with
  | none => fillEnds s n
  | some (v, _, d) => fillFrom s n v d.b

/-- A verified block enters the fill fold (R454): digest bytes 0 to 7, the leaf index XORed into bytes 0 to 3. -/
def countFill (s : State) (n : Nat) (digest : Bytes) (leaf : Nat) : State :=
  modPort s n fun p =>
    { p with fillCount := satAdd p.fillCount 1 65535,
             fillFold := (List.range 8).map fun i =>
               p.fillFold.getD i 0 ^^^ digest.getD i 0 ^^^ (if i < 4 then (leBytes 4 leaf).getD i 0 else 0) }

/-- A residency-fill block has been read and hashed (R146). -/
def fillBlock (s : State) (n : Nat) (data : Bytes) : State :=
  let p := port s n
  match p.seq with
  | .fill w blk again =>
    (match (wins s n)[w]? with
     | none => s
     | some d =>
       let r := fillReq s n w blk d
       match cachedLeaf p r.image r.leaf with
       | none => askLeaf s n r
       | some leaf =>
         let s := ownClear s n .fill
         let f := d.frm + (blk - d.b)
         let data := sliceZ data 0 4096
         let digest := sha512 data
         if digest = leaf then
           let s := setFrame s f { frame s f with st := .valid, image := r.image, leaf := r.leaf, win := w, data := data }
           fillFrom (countFill s n digest r.leaf) n w (blk + 1)
         else if again then failedCheck s n 0x0E23 r.image w r.leaf r.fa digest
         else
           modPort (rcount s (reg .du 0 (0x108 + 16 * n)) 31 24 1) n fun p => { p with seq := .fill w blk true })
  | _ => s

/-- A port whose residency fill is under way makes no refill yet (R147). -/
def Port.filling (p : Port) : Bool := match p.seq with | .fill _ _ _ => true | .treeLoad => true | _ => false

/-- A refill read of the first waiting frame has ended (R147). -/
def refillRead (s : State) (n : Nat) (data : Bytes) : State :=
  let p := port s n
  match p.refills with
  | [] => s
  | f :: rest =>
    if !p.st.refills ∨ p.filling then s else
    let fr := frame s f
    let fa := frameFa s n f
    match cachedLeaf p fr.image fr.leaf with
    | none => askLeaf (setFrame s f { fr with st := .filling }) n ⟨fr.image, fr.leaf, fa, fr.win⟩
    | some leaf =>
      let s := ownClear s n .refill
      let data := sliceZ data 0 4096
      let digest := sha512 data
      if digest = leaf then
        modPort (setFrame s f { fr with st := .valid, data := data }) n fun p =>
          { p with refills := rest, refillAgain := false }
      else if p.refillAgain then failedCheck s n 0x0E23 fr.image fr.win fr.leaf fa digest
      else
        modPort (setFrame (rcount s (reg .du 0 (0x108 + 16 * n)) 31 24 1) f { fr with st := .filling }) n fun p =>
          { p with refillAgain := true }

/-! ### The stream tap (R151 to R153) -/

/-- The block buffer's value at a position. -/
def OpenBlk.at (b : OpenBlk) (pos : Nat) : Option Byte := Tbl.get (fun _ => none) b.vals pos
/-- Every position from `lo`, `k` of them, is present. -/
def OpenBlk.has (b : OpenBlk) (lo k : Nat) : Bool := (List.range k).all fun i => (b.at (lo + i)).isSome
/-- The stored values, absent positions reading zero. -/
def OpenBlk.bytes (b : OpenBlk) : Bytes := (List.range 4096).map fun i => (b.at i).getD 0

/-- Bytes entering the tap for an open block, each with its position: the block, and how many bytes were taken with the last
of them different from the stored value (R152). -/
def tapBytes (b : OpenBlk) : List (Nat × Byte) → OpenBlk × Nat × Bool
  | [] => (b, 0, false)
  | (pos, v) :: t =>
    match b.at pos with
    | some u => if u = v then (let r := tapBytes b t; (r.1, r.2.1 + 1, r.2.2)) else (b, 1, true)
    | none =>
      let r := tapBytes { b with vals := Tbl.set (fun _ => none) b.vals pos (some v) } t
      (r.1, r.2.1 + 1, r.2.2)

/-- The open block at a flash address (of any byte in it). -/
def openAt (p : Port) (fa : Nat) : Option OpenBlk := p.blocks.find? fun b => decide (b.fa = fa / 4096 * 4096)
/-- The port with an open block replaced. -/
def putBlock (p : Port) (b : OpenBlk) : Port :=
  { p with blocks := p.blocks.map fun c => if c.fa = b.fa then b else c }

/-- A block opens for stream checking: it takes a buffer, its leaf is requested on a miss, and its deferral count starts
(R145, R151, R161). -/
def openBlock (s : State) (n : Nat) (b : OpenBlk) : State :=
  let s := modPort s n fun p => { p with blocks := p.blocks ++ [b] }
  let s := needLeaf s n ⟨b.image, b.leaf, b.fa, b.win⟩
  let d := rfld s (reg .du 0 (0x100 + 16 * n)) 31 16
  if d = 0 ∨ !driving s then s else tset s (.defer n b.fa) (us d + 1)

/-- A piece of stream data within one block enters the tap: positions with their bytes.  Answers the state and how many bytes
the platform may receive: all of them, up to and including a re-read difference (R152), or none when all eight
buffers are held (R153). -/
def tapPiece (s : State) (n : Nat) (b : OpenBlk) (bs : List (Nat × Byte)) : State × Nat :=
  if bs = [] then (s, 0) else
  let full := decide ((port s n).blocks.length ≥ 8)
  match openAt (port s n) b.fa with
  | none =>
    if full then (irq (rcount s (reg .du 0 (0x108 + 16 * n)) 15 8 1) .du 0 16, 0)
    else
      let s := openBlock s n b
      let (b, k, bad) := tapBytes b bs
      let s := modPort s n fun p => putBlock p b
      (if bad then failedCheck s n 0x0E21 b.image b.win b.leaf b.fa (zeros 64) else s, k)
  | some b =>
    let (b, k, bad) := tapBytes b bs
    let s := modPort s n fun p => putBlock p b
    (if bad then failedCheck s n 0x0E21 b.image b.win b.leaf b.fa (zeros 64) else s, k)

/-! ### Hashing and the check (R154, R156) -/

/-- The hash pointer after a segment from `ptr`: chunks in address order while each is present, `fuel` chunks at most. -/
def segmentEnd (b : OpenBlk) : Nat → Nat → Nat
  | 0, ptr => ptr
  | k + 1, ptr => if ptr < 4096 ∧ b.has ptr 128 then segmentEnd b k (ptr + 128) else ptr

/-- The open block at `fa` has passed or failed its check: its buffer is released. -/
def closeBlock (s : State) (n fa : Nat) : State :=
  modPort (tstop s (.defer n fa)) n fun p => { p with blocks := p.blocks.filter fun b => b.fa != fa }

/-- The check of the open block at flash address `fa` (R156).  It is made once every position is present, the hash pointer has
reached offset 3,968, and the leaf is in the cache. -/
def checkBlock (s : State) (n fa : Nat) : State :=
  match openAt (port s n) fa with
  | none => s
  | some b =>
    if !b.has 0 4096 ∨ b.ptr < 3968 then s else
    match cachedLeaf (port s n) b.image b.leaf with
    | none => askLeaf s n ⟨b.image, b.leaf, b.fa, b.win⟩
    | some leaf =>
      let digest := sha512 b.bytes
      if digest = leaf then rcount (closeBlock s n b.fa) (reg .fgpMb n 0x304) 31 0 1
      else failedCheck s n 0x0E20 b.image b.win b.leaf b.fa digest

/-- The open block that block completion serves: the earliest opened with a position not present (R155). -/
def completing (p : Port) : Option OpenBlk := p.blocks.find? fun b => !b.has 0 4096

/-- The bytes a block-completion read returns enter the tap, from where the completion stands (R155). -/
def completeWith (s : State) (n : Nat) (b : OpenBlk) (data : Bytes) : State :=
  let at0 := b.comp.getD b.ptr
  let data := data.take (4096 - at0)
  let bs := (List.range data.length).map fun i => (at0 + i, data.getD i 0)
  let (b', k, bad) := tapBytes b bs
  let s := modPort s n fun p => putBlock p { b' with comp := some (at0 + k) }
  if bad then failedCheck s n 0x0E21 b.image b.win b.leaf b.fa (zeros 64) else s

/-! ### The flash-path front end (R32, R154) -/

/-- The chunk at the open block's hash pointer is wholly present. -/
def OpenBlk.ready (b : OpenBlk) : Bool := decide (b.ptr < 4096) && b.has b.ptr 128
/-- Port `n` has a chunk ready. -/
def chunkReady (s : State) (n : Nat) : Bool := portOn s n && (port s n).blocks.any (·.ready)
/-- The port whose turn it is: the first with a chunk ready after the one served last. -/
def hashNext (s : State) : Option Nat :=
  ((List.range 16).map fun i => (s.hashTurn + 1 + i) % 16).find? (chunkReady s)

/-! ### Meanings -/

/-- HASH_SEGMENT (R154): lane `lane` hashes the open block's chunks that are present: one chunk while another port has one ready,
else as far as they reach, the padding chunk after offset 4,095.  It is the port's turn, and a lane that takes
flash-path work (R32, R40). -/
def execHashSegment (n fa lane : Nat) (s : State) : Host.Outcome State Fault Refusal :=
  done (if hashNext s ≠ some n ∨ s.part.lanes ≤ lane ∨ !laneTakes s lane then s else
    match openAt (port s n) fa with
    | none => s
    | some b =>
      let others := (List.range 16).any fun m => decide (m ≠ n) && chunkReady s m
      let ptr := segmentEnd b (if others then 1 else 32) b.ptr
      if ptr = b.ptr then s
      else
        let blocks := (ptr - b.ptr) / 128 + (if ptr = 4096 then 1 else 0)
        modPort (flashOn { s with hashTurn := n } lane blocks) n fun p => putBlock p { b with ptr := ptr })

/-- BLOCK_CHECK (R156). -/
def execBlockCheck (n fa : Nat) (s : State) : Host.Outcome State Fault Refusal :=
  done (if portOn s n then checkBlock s n fa else s)

/-- DEFERRAL_EXPIRY (R161): a block open for more than defer µs is a failed check with cause 0x0E22. -/
def execDeferralExpiry (n fa : Nat) (s : State) : Host.Outcome State Fault Refusal :=
  done (if !portOn s n then s else
    fire s (.defer n (fa / 4096 * 4096)) fun s =>
      match openAt (port s n) fa with
      | none => s
      | some b => failedCheck s n 0x0E22 b.image b.win b.leaf b.fa (zeros 64))

/-- SCRUB_TICK (R150): the next frame index of bank `k` is scrubbed; at the end of the bank a pass has ended (R164). -/
def execScrubTick (k : Nat) (ecc : EccRes) (s : State) : Host.Outcome State Fault Refusal :=
  done (if !pageOn s .vstBank k ∨ !rbit s (reg .vst 0 0x040) 0 then s else
    fire s (.scrub k) fun s =>
      let per := s.part.framesPerBank
      let i := rfld s (reg .vstBank k 0x048) 15 0
      let f := k * per + i
      let s := if (frame s f).st ≠ .valid then s else
        match ecc with
        | .clean => s
        | .corrected w => eccNote s f (w % 512) 1 false
        | .uncorrectable w => eccScrub (eccNote s f (w % 512) 1 true) f
      let s := tset s (.scrub k) (us (max 1 (rfld s (reg .vst 0 0x040) 19 4)))
      if i + 1 < per then rsetf s (reg .vstBank k 0x048) 15 0 (i + 1)
      else irq (rcount (rsetf s (reg .vstBank k 0x048) 15 0 0) (reg .vstBank k 0x048) 31 16 1) .vstBank k 0)

/-- ECC_WRITEBACK (R136): the oldest queued write-back is made.  It stores the value the fill stored, so no data changes. -/
def execEccWriteback (s : State) : Host.Outcome State Fault Refusal :=
  done { s with writeBacks := s.writeBacks.drop 1 }

end Sys2Proof.Machine
end

