-- ==== Sys2Proof/Machine/Jobs.lean ====
section
/-! DEFINITION. Machine/Jobs.lean: the crypto job engine's tags, rings, save buffers, context records and completions (R193 to
R211).  What each job type computes is in Machine/JobTypes.lean. -/
namespace Sys2Proof.Machine

/-! ### Descriptors (R197) -/

/-- type. -/
def dType (d : Bytes) : Nat := fieldLe d 0 1
/-- flags. -/
def dFlags (d : Bytes) : Nat := fieldLe d 1 1
/-- key. -/
def dKey (d : Bytes) : Nat := fieldLe d 2 2
/-- key_out. -/
def dKeyOut (d : Bytes) : Nat := fieldLe d 4 2
/-- src. -/
def dSrc (d : Bytes) : Nat := fieldLe d 0x10 8
/-- src_len. -/
def dSrcLen (d : Bytes) : Nat := fieldLe d 0x18 4
/-- dst_len. -/
def dDstLen (d : Bytes) : Nat := fieldLe d 0x1C 4
/-- dst. -/
def dDst (d : Bytes) : Nat := fieldLe d 0x20 8
/-- aux. -/
def dAux (d : Bytes) : Nat := fieldLe d 0x28 8
/-- aux_len. -/
def dAuxLen (d : Bytes) : Nat := fieldLe d 0x30 4
/-- Byte `i` of param. -/
def dParam (d : Bytes) (i : Nat) : Nat := fieldLe d (0x34 + i) 1
/-- param[1:0]. -/
def dParam16 (d : Bytes) (i : Nat) : Nat := fieldLe d (0x34 + i) 2

/-! ### Tags and units -/

/-- The job of a tag: none where the tag is free, and while a DEVICE reset or POR holds the job engine (R253). -/
def job? (s : State) (tag : Nat) : Option Job :=
  if s.rst = .none then (s.jobs.find? fun e => e.1 == tag).map (·.2) else none
/-- The job of a tag changed. -/
def setJob (s : State) (tag : Nat) (j : Job) : State := { s with jobs := (s.jobs.erase tag).insert tag j }
/-- The live jobs that satisfy `f`. -/
def jobsWith (s : State) (f : Job → Bool) : List (Nat × Job) := s.jobs.filter fun e => f e.2
/-- Free save buffers (R203). -/
def saveFree (s : State) : Nat := 64 - (jobsWith s (·.buf)).length

/-- Units of a kind on this part: 0 hash lane, 1 curve unit, 2 AES-GCM unit, 3 key vault. -/
def unitCount (s : State) : Nat → Nat
  | 0 => s.part.lanes | 1 => s.part.curves | 2 => s.part.aes | _ => 1
/-- The bit of a unit in CJE_KAT_PASS and CJE_KAT_FAIL (R217). -/
def katBit : Nat → Nat → Nat
  | 0, m => m | 1, m => 8 + m | 2, m => 12 + m | _, _ => 15
/-- A bit of CJE_KAT_FAIL. -/
def katFail (s : State) (b : Nat) : Bool := rbit s (reg .cje 0 0x054) b
/-- A bit of CJE_KAT_PASS. -/
def katPass (s : State) (b : Nat) : Bool := rbit s (reg .cje 0 0x050) b
/-- The power domain of a unit kind is on. -/
def unitPower (s : State) : Nat → Bool | 0 => domOn s 20 | 1 => domOn s 21 | 2 => domOn s 22 | _ => true
/-- The unit is present, powered and not disabled. -/
def unitEnabled (s : State) (k m : Nat) : Bool :=
  decide (m < unitCount s k) && decide (s.rst = .none) && unitPower s k && !(decide (k < 3) && katFail s (katBit k m))
/-- The job that holds a unit, a hash lane beside its own unit included. -/
def unitJob (s : State) (k m : Nat) : Option (Nat × Job) :=
  s.jobs.find? fun e => e.2.unit == some (k, m) || (decide (k = 0) && e.2.holdsLane m)
/-- Flash-path work has a hash lane, or is about to start on it: a chunk is ready and the front end's next lane is this one (R32). -/
def laneTaken (s : State) (m : Nat) : Bool :=
  s.flashLanes.contains m || ((List.range 16).any (chunkReady s) && decide (flashLane s = some m))
/-- The unit can start a scheduler job. -/
def unitFree (s : State) (k m : Nat) : Bool :=
  unitEnabled s k m && (unitJob s k m).isNone && !(decide (k = 0) && (laneReserved s m || laneTaken s m))

/-- The job's class number: 0 core, 1 instance, 2 remote. -/
def Job.cls (j : Job) : Nat := j.sub.cls
/-- A job in a fault state. -/
def Job.parked (j : Job) : Bool :=
  decide (j.st = .faultFetch) || decide (j.st = .faultSave) || decide (j.st = .faultWrite)

/-! ### Memory of a submitter -/

/-- A range lies wholly in core SRAM (R522). -/
def sramOk (a n : Nat) : Bool := decide (0x20000000 ≤ a) && decide (a + n ≤ 0x20100000)
/-- `n` bytes of core SRAM. -/
def sramRead (s : State) (a n : Nat) : Bytes := memRead s.sram (a - 0x20000000) n
/-- Bytes stored to core SRAM; nothing is stored outside it. -/
def sramWrite (s : State) (a : Nat) (bs : Bytes) : State :=
  if sramOk a bs.length then { s with sram := memWrite s.sram (a - 0x20000000) bs } else s

/-! ### Rings (R194) -/

/-- The ring of a submitter; remote jobs have none. -/
def Sub.ring? : Sub → Option RingId
  | .core q => some (.core q)
  | .inst i => some (.inst i)
  | .remote _ _ _ _ => none
/-- The registers of a ring: configuration, SQ_HEAD, CQ_TAIL, SQ_TAIL, CQ_HEAD. -/
def ringCfg : RingId → Nat | .core q => reg .cje 0 (0x08C + 32 * q) | .inst i => reg .inst i 0x058
/-- SQ_HEAD. -/
def ringSqHead : RingId → Nat | .core q => reg .cje 0 (0x098 + 32 * q) | .inst i => reg .inst i 0x05C
/-- CQ_TAIL. -/
def ringCqTail : RingId → Nat | .core q => reg .cje 0 (0x09C + 32 * q) | .inst i => reg .inst i 0x060
/-- SQ_TAIL. -/
def ringSqTail : RingId → Nat | .core q => reg .cje 0 (0x090 + 32 * q) | .inst i => reg .doorbell i 0x044
/-- CQ_HEAD. -/
def ringCqHead : RingId → Nat | .core q => reg .cje 0 (0x094 + 32 * q) | .inst i => reg .doorbell i 0x048
/-- The 64-bit address in two consecutive registers. -/
def addr64 (s : State) (off : Nat) : Nat := (rget s off).toNat + 2 ^ 32 * (rget s (off + 4)).toNat
/-- Base of the submission ring. -/
def sqBase (s : State) : RingId → Nat
  | .core q => (rget s (reg .cje 0 (0x080 + 32 * q))).toNat | .inst i => addr64 s (reg .inst i 0x040)
/-- Base of the completion ring. -/
def cqBase (s : State) : RingId → Nat
  | .core q => (rget s (reg .cje 0 (0x084 + 32 * q))).toNat | .inst i => addr64 s (reg .inst i 0x048)
/-- Base of the context area. -/
def ctxBase (s : State) : RingId → Nat
  | .core q => (rget s (reg .cje 0 (0x088 + 32 * q))).toNat | .inst i => addr64 s (reg .inst i 0x050)
/-- Where a ring's phase is kept. -/
def ringKey : RingId → Nat | .core q => q | .inst i => 4 + i
/-- The ring's current completion phase. -/
def ringPhase (s : State) (r : RingId) : Bool := Tbl.get (fun _ => true) s.phases (ringKey r)
/-- The ring's completion phase set. -/
def setPhase (s : State) (r : RingId) (b : Bool) : State := { s with phases := Tbl.set (fun _ => true) s.phases (ringKey r) b }
/-- The ring exists and is enabled. -/
def ringOn (s : State) (r : RingId) : Bool :=
  rbit s (ringCfg r) 8 && (match r with
    | .core q => decide (q < 4) && pageOn s .cje 0
    | .inst i => decide ((inst s i).st ≠ .none) && pagePresent s.part .inst i)

/-! ### Events of a completion -/

/-- A completion with flags.irq = 1 raises the ring's event (R217, R218). -/
def completionIrq (s : State) : RingId → State
  | .core q => irq s .cje 0 q
  | .inst i => irq s .inst i 0

/-! ### The end of a job -/

/-- The job is timed (R211): RUNNING on its units; a SELF_TEST of every unit holds one at a time. -/
def Job.timed (j : Job) : Bool :=
  decide (j.st = .running) && j.done.isNone && j.fwd.isNone && (j.unit.isSome || j.tests)
/-- TBCLK cycles a job has held a unit, its current period included (R211). -/
def heldFor (s : State) (j : Job) : Nat := j.used + (if j.timed then s.tbTime - j.since0 else 0)
/-- Time a job has held its unit is summed, and its timeout stopped (R211). -/
def stopJobTimer (s : State) (tag : Nat) : State :=
  match job? s tag with
  | some j => tstop (tstop (setJob s tag { j with used := heldFor s j }) (.job tag)) (.pcieRead tag)
  | none => s
/-- The timeouts of the jobs that hold units follow a new limit (R211). -/
def retimeJobs (s : State) : State :=
  let limit := rfld s (reg .cje 0 0x040) 23 8
  (jobsWith s (·.timed)).foldl (fun s e =>
    if limit = 0 then tstop s (.job e.1) else tset s (.job e.1) (ms limit + 1 - heldFor s e.2)) s

/-- A job leaves its units: the key copies are zeroised (R232). -/
def leaveUnit (s : State) (tag : Nat) : State :=
  let s := stopJobTimer s tag
  match job? s tag with
  | some j => setJob s tag { j with unit := none, lane := none, copies := [], since := 0 }
  | none => s

/-- Waiting page requests of a tag are withdrawn: the index stays owed its response (R386). -/
def dropPrgs (s : State) (f : Prg → Bool) : State :=
  { s with prgs := s.prgs.filter (fun p => !f p), prgStale := s.prgStale ++ (s.prgs.filter f).map (·.idx) }

/-- A tag becomes free: its slot and save buffer with it (R208, R210); the last one of a draining instance ends its reset. -/
def freeTag (s : State) (tag : Nat) : State :=
  let s := tstop (tstop (tstop (tstop s (.job tag)) (.selfTest tag)) (.remJob tag)) (.pcieRead tag)
  let sub : Option Sub := (job? s tag).map (·.sub)
  let s := dropPrgs { s with jobs := s.jobs.erase tag } fun p => p.tag == some tag
  let s := { s with prgWait := s.prgWait.filter fun (w : Nat × Option Nat) => w.2 != some tag }
  match sub with | some (.inst i) => drainCheck s i | _ => s

/-- A job is squashed: nothing further is written, no entry (R210).  A forwarded job is cancelled at its executing node (R423).  One
that runs on a unit is SQUASHING, without its key copies, until the unit reaches its boundary (R208, R232). -/
def squash (s : State) (tag : Nat) : State :=
  match job? s tag with
  | none => s
  | some j =>
    let s := match j.fwd with
      | some node => sendFrame s node 0x36 (leBytes 2 tag ++ leBytes 1 j.gen)
      | none => s
    if j.timed then
      (let s := tstop (tstop (tstop (dropPrgs s fun p => p.tag == some tag) (.job tag)) (.selfTest tag)) (.pcieRead tag)
       setJob { s with prgWait := s.prgWait.filter fun (w : Nat × Option Nat) => w.2 != some tag } tag
         { j with st := .squashing, copies := [] })
    else if j.st = .squashing then s
    else freeTag s tag
/-- The units of the squashed jobs reach their boundaries: the tags are free (R208, R210). -/
def squashEnds (s : State) : State :=
  if s.rst = .none then (jobsWith s fun j => decide (j.st = .squashing)).foldl (fun s e => freeTag s e.1) s else s

/-- The flags of a completion entry beside the phase (R200). -/
def entryFlags (j : Job) (x : JobRes) : Nat := 2 * b2n (j.approved && x.ran) + 4 * b2n j.faulted + 8 * b2n j.preempted
/-- The completion entry of R200. -/
def completionEntry (s : State) (r : RingId) (j : Job) (x : JobRes) : Bytes :=
  sliceZ j.desc 8 8 ++ leBytes 2 x.status ++ leBytes 1 (dType j.desc) ++
    leBytes 1 (b2n (ringPhase s r) + entryFlags j x) ++
    leBytes 4 x.outLen ++ leBytes 8 x.result ++ leBytes 1 j.gen ++ zeros 3 ++ leBytes 4 s.tbTime

/-- The completion ring has room for one entry (R194). -/
def cqRoom (s : State) (r : RingId) : Bool :=
  decide ((rfld s (ringCqTail r) 11 0 + 1) % 2 ^ rfld s (ringCfg r) 7 4 ≠ rfld s (ringCqHead r) 11 0)

/-- The entry has been written at CQ_TAIL: the index and the phase advance, the event is raised, the tag is freed (R194,
R217). -/
def entryWritten (s : State) (r : RingId) (tag : Nat) (j : Job) : State :=
  let next := (rfld s (ringCqTail r) 11 0 + 1) % 2 ^ rfld s (ringCfg r) 7 4
  let s := rsetf s (ringCqTail r) 11 0 next
  let s := if next = 0 then setPhase s r (!ringPhase s r) else s
  let s := if dType j.desc = 0x30 ∧ r = .core j.sub.owner then irq s .cje 0 4 else s
  let s := if dFlags j.desc % 2 = 1 then completionIrq s r else s
  freeTag s tag

/-- A job's write to memory met a fault: FAULT_WRITE, with what is unwritten in a save buffer (R208); in a drain it is squashed (R390). -/
def faultWrite (s : State) (tag : Nat) (j : Job) (x : JobRes) (written : Nat) : State :=
  let drains : Bool := match j.sub with | .inst i => decide ((inst s i).st = .resetting) | _ => false
  if drains then freeTag s tag else
  setJob s tag { j with st := .faultWrite, buf := true, faulted := true, pos := written, done := some x }

/-- A remote submitter's result is answered over the ring: its output in BUF_WR pieces of at most 256 bytes, then JOB_DONE with bytes
0x08 to 0x17 of the entry (R408, R422). -/
def answerRemote (s : State) (tag node home gen : Nat) (j : Job) (x : JobRes) : State :=
  let dst := (x.outs.headD (0, [])).2
  let s := (List.range ((dst.length + 255) / 256)).foldl (fun s k =>
    sendFrame s node 0x33 (leBytes 2 home ++ leBytes 1 gen ++ [0] ++ leBytes 4 (256 * k) ++
      (dst.drop (256 * k)).take 256)) s
  let s := sendFrame s node 0x34 (leBytes 2 home ++ leBytes 1 gen ++ [0] ++ leBytes 2 x.status ++
    leBytes 1 (dType j.desc) ++ leBytes 1 (entryFlags j x) ++ leBytes 4 x.outLen ++ leBytes 8 x.result)
  freeTag s tag

/-- The completion entry of a finished job is written if its ring has room; else the job stays RUNNING without a unit
(R200). -/
def writeEntry (s : State) (tag : Nat) (j : Job) (x : JobRes) (ws : List Walk) : State :=
  match j.sub with
  | .core q =>
    if !cqRoom s (.core q) then s else
    let r : RingId := .core q
    entryWritten (sramWrite s (cqBase s r + 32 * rfld s (ringCqTail r) 11 0) (completionEntry s r j x)) r tag j
  | .inst i =>
    let r : RingId := .inst i
    if !cqRoom s r then s else
    (match translate s i (cqBase s r + 32 * rfld s (ringCqTail r) 11 0) 4 true (some tag) j.gen (nextWalk ws) with
     | (s, .ok a) => entryWritten (emit s (.host i a (completionEntry s r j x))) r tag j
     | (s, .park) => faultWrite s tag j x x.outLen
     | (s, .err _) => freeTag s tag)
  | .remote _ _ _ _ => s

/-- The outputs of a finished job written in order, each over the pages it touches: what is left, and what stopped it. -/
def writeOuts (s : State) (i tag gen : Nat) : List (Nat × Bytes) → List Walk → Nat →
    State × List (Nat × Bytes) × List Walk × Nat × Option TrRes
  | [], ws, n => (s, [], ws, n, none)
  | (a, bs) :: t, ws, n =>
    let (s, hs, ws, stop) := translateAll s i 3 true tag gen (pieces a bs.length) ws
    let done := (hs.map (·.2)).foldl (· + ·) 0
    let (s, _) := hs.foldl (fun (p : State × Nat) h =>
      (emit p.1 (.host i h.1 ((bs.drop p.2).take h.2)), p.2 + h.2)) (s, 0)
    match stop with
    | none => writeOuts s i tag gen t ws (n + done)
    | some r => (s, (a + done, bs.drop done) :: t, ws, n + done, some r)

/-- A finished job's outputs are written, then its completion entry (R36, R200, R208). -/
def deliver (s : State) (tag : Nat) (ws : List Walk) : State :=
  match job? s tag with
  | none => s
  | some j =>
    match j.done with
    | none => s
    | some x =>
      match j.sub with
      | .core _ =>
        let s := x.outs.foldl (fun s o => sramWrite s o.1 o.2) s
        let x := { x with outs := [] }
        writeEntry (setJob s tag { j with done := some x }) tag { j with done := some x } x ws
      | .inst i =>
        (match writeOuts s i tag j.gen x.outs ws 0 with
         | (s, _, ws, _, none) =>
           let x := { x with outs := [] }
           writeEntry (setJob s tag { j with done := some x }) tag { j with done := some x } x ws
         | (s, left, _, n, some .park) =>
           faultWrite s tag j { x with outs := left } (j.pos + n)
         | (s, _, ws, _, some (.err code)) =>
           let x : JobRes := { x with status := code, outs := [], outLen := 0, result := 0 }
           writeEntry (setJob s tag { j with done := some x }) tag { j with done := some x } x ws
         | (s, _, _, _, some (.ok _)) => s)
      | .remote node home _ gen => answerRemote s tag node home gen j x

/-- A job has its verdict: it leaves its unit, and its outputs and entry are written (R200). -/
def finish (s : State) (tag : Nat) (x : JobRes) (ws : List Walk) : State :=
  let s := leaveUnit s tag
  match job? s tag with
  | none => s
  | some j => deliver (setJob s tag { j with st := .running, done := some x, buf := false, pos := 0 }) tag ws

/-! ### Parking: midstates and context records (R203, R204) -/

/-- The initial midstate. -/
def mid0 : Bytes := shaOut shaInit ++ zeros 16
/-- The midstate after more whole blocks. -/
def midFeed (mid data : Bytes) : Bytes :=
  shaOut (shaBlocks (data.length / 128) (shaIn mid) data) ++ leBytes 16 (fieldLe mid 64 16 + 8 * data.length)
/-- The digest of a midstate with the rest of its message. -/
def midEnd (mid rest : Bytes) : Bytes :=
  let bits := fieldLe mid 64 16 + 8 * rest.length
  let p := rest ++ (0x80 :: zeros ((239 - rest.length % 128) % 128)) ++ beBytes 16 bits
  shaOut (shaBlocks (p.length / 128) (shaIn mid) p)

/-- The job is a HASH: the one whose midstate does not depend on a key (R204). -/
def Job.hashes (j : Job) : Bool := decide (dType j.desc = 0x01)
/-- The job runs on a hash lane. -/
def Job.onLane (j : Job) : Bool := decide (dType j.desc = 0x01) || decide (dType j.desc = 0x02) || decide (dType j.desc = 0x03)
/-- The job runs on an AES-GCM unit. -/
def Job.onAes (j : Job) : Bool := decide (dType j.desc = 0x18) || decide (dType j.desc = 0x19)

/-- Auxiliary bytes a job reads: the first part of a HASH only writes its midstate there (R198). -/
def auxLen (d : Bytes) : Nat := if dType d = 0x01 ∧ dParam d 0 ≤ 1 then 0 else dAuxLen d
/-- Where a job's output lies, with its room: at dst, or at aux for the midstate of parts 1 and 2 of a HASH, which have no other output
(R198). -/
def outAt (d : Bytes) : Nat × Nat :=
  if dType d = 0x01 ∧ (dParam d 0 = 1 ∨ dParam d 0 = 2) then (dAux d, dAuxLen d) else (dDst d, dDstLen d)

/-- The source and auxiliary bytes of a job: core SRAM, the instance's memory, or what came over the ring. -/
def jobSrc (s : State) (j : Job) (io : JobIO) : Bytes :=
  match j.sub with
  | .core _ => sramRead s (dSrc j.desc) (dSrcLen j.desc)
  | .inst _ => sliceZ io.src 0 (dSrcLen j.desc)
  | .remote _ _ _ _ => sliceZ j.rsrc 0 (dSrcLen j.desc)
/-- The auxiliary bytes of a job. -/
def jobAux (s : State) (j : Job) (io : JobIO) : Bytes :=
  match j.sub with
  | .core _ => sramRead s (dAux j.desc) (dAuxLen j.desc)
  | .inst _ => sliceZ io.aux 0 (dAuxLen j.desc)
  | .remote _ _ _ _ => sliceZ j.raux 0 (dAuxLen j.desc)

/-- The midstate a HASH has at its position. -/
def jobMid (j : Job) (aux : Bytes) : Bytes :=
  if j.mid ≠ [] then j.mid else if dParam j.desc 0 ≥ 2 then sliceZ aux 0 80 else mid0

/-- The job with its state moved on to whole block `blocks` of what it has left to hash; a job whose state depends on a key goes
back to its start (R204, DEDUCED, assumption log 20). -/
def advance (j : Job) (src aux : Bytes) (blocks : Nat) : Job :=
  if j.hashes then
    let n := 128 * min blocks ((src.length - j.pos) / 128)
    { j with mid := midFeed (jobMid j aux) ((src.drop j.pos).take n), pos := j.pos + n }
  else { j with pos := 0 }

/-- The 256-byte context record of a job on a hash lane (R204). -/
def contextRecord (s : State) (tag : Nat) (j : Job) : Bytes :=
  let mid := if j.hashes ∧ j.mid ≠ [] then j.mid else mid0
  let body := sliceZ mid 0 80 ++ leBytes 8 j.pos ++ leBytes 2 tag ++ leBytes 1 (dType j.desc) ++ zeros 133 ++ zeros 16
  body ++ (hmac s.ctxKey body).take 16

/-- A parked hash job's record is written to its context slot; a fault there keeps the midstate in the save buffer (R203,
R208). -/
def saveRecord (s : State) (tag : Nat) (ws : List Walk) : State :=
  match job? s tag with
  | none => s
  | some j =>
    let at0 (r : RingId) : Nat := ctxBase s r + 256 * j.slot
    match j.sub with
    | .core q => sramWrite (setJob s tag { j with buf := false, recSaved := true }) (at0 (.core q)) (contextRecord s tag j)
    | .inst i =>
      (match translate s i (at0 (.inst i)) 2 true (some tag) j.gen (nextWalk ws) with
       | (s, .ok a) => emit (setJob s tag { j with buf := false, recSaved := true }) (.host i a (contextRecord s tag j))
       | (s, .park) => setJob s tag { j with st := .faultSave, buf := true, faulted := true }
       | (s, .err code) => finish s tag { status := code } (ws.drop 1))
    | .remote _ _ _ _ => s

/-- A job parks in a state: a lane job writes its context record, an AES-GCM job keeps its save buffer, any other parks with no
unit state (R203, R208). -/
def park (s : State) (tag : Nat) (st : JobSt) (ws : List Walk) : State :=
  let s := leaveUnit s tag
  match job? s tag with
  | none => s
  | some j =>
    let f := decide (st = .faultFetch)
    let s := setJob s tag { j with st := st, faulted := j.faulted || f, preempted := j.preempted || !f,
                                   buf := j.onLane || j.onAes }
    if j.onLane then saveRecord s tag ws else s

end Sys2Proof.Machine
end

