-- ==== Sys2Proof/Machine/JobTypes.lean ====
section
/-! DEFINITION. Machine/JobTypes.lean: what each job type asks of its descriptor (R197, R198, R234) and what it computes.  A code
that stops a job before it runs comes from `refusal` or from the slot checks of `keyRefusal`; every other code is a
verdict. -/
namespace Sys2Proof.Machine

/-! ### Refusals (R197, R198, R234) -/

/-- A field a type does not use is not 0 (R197).  `src`, `dst`, `aux` and the key fields are the used ones, `np` the used bytes of
param.  An unused key field may also hold 0xFFFF, "none". -/
def unusedSet (d : Bytes) (key keyOut src dst aux : Bool) (np : Nat) : Bool :=
  let slot (v : Nat) : Bool := decide (v ≠ 0) && decide (v ≠ 0xFFFF)
  (!key && slot (dKey d)) || (!keyOut && slot (dKeyOut d)) || (!src && (decide (dSrc d ≠ 0) || decide (dSrcLen d ≠ 0))) ||
  (!dst && (decide (dDst d ≠ 0) || decide (dDstLen d ≠ 0))) || (!aux && (decide (dAux d ≠ 0) || decide (dAuxLen d ≠ 0))) ||
  !allZero (sliceZ d (0x34 + np) (12 - np))

/-- A code where a condition holds. -/
def codeIf (b : Bool) (code : Nat) : Option Nat := if b then some code else none

/-- The types of R198 and R234. -/
def knownType (t : Nat) : Bool :=
  t ∈ [0x00, 0x01, 0x02, 0x03, 0x04, 0x10, 0x11, 0x12, 0x18, 0x19, 0x1F, 0x20, 0x21, 0x22, 0x23, 0x24, 0x25, 0x28, 0x29,
       0x2A, 0x2B, 0x2C, 0x30]

/-- The class rule of R198 and R234: the code a type gives a submitter that may not submit it. -/
def classBad (t : Nat) (sub : Sub) : Option Nat :=
  let core := decide (sub.cls = 0)
  if t = 0x1F ∧ !core then some 0x0E37
  else if (t = 0x28 ∨ t = 0x30) ∧ !core then some 0x0C02
  else if (t = 0x2A ∨ t = 0x2B ∨ t = 0x2C) ∧ sub ≠ .core 0 then some 0x0C02
  else none

/-- The field rules of each type: 0x0C03 for a field or parameter, then 0x0C04 for a length (R198, R215, R234). -/
def fieldsBad (d : Bytes) : Option Nat :=
  let sl := dSrcLen d
  let dl := dDstLen d
  let al := dAuxLen d
  let p0 := dParam d 0
  match dType d with
  | 0x00 => codeIf (unusedSet d false false false false false 0) 0x0C03
  | 0x01 =>
    let mid := decide (p0 = 1) || decide (p0 = 2)
    codeIf (unusedSet d false false true (!mid) (decide (p0 ≠ 0)) 1 || decide (p0 > 3)) 0x0C03 <|>
    codeIf ((mid && decide (sl % 128 ≠ 0)) || (decide (p0 ≠ 0) && decide (al ≠ 80)) || (!mid && decide (dl < 64))) 0x0C04
  | 0x02 =>
    codeIf (unusedSet d true false true (decide (p0 = 0)) (decide (p0 = 1)) 1 || decide (p0 > 1)) 0x0C03 <|>
    codeIf (if p0 = 0 then decide (dl < 64) else decide (al ≠ 64)) 0x0C04
  | 0x03 =>
    codeIf (unusedSet d true true true false false 4 || !(dParam16 d 0 == 256 || dParam16 d 0 == 512)) 0x0C03 <|>
    codeIf (decide (sl = 0) || decide (sl > 4096)) 0x0C04
  | 0x04 =>
    codeIf (unusedSet d false false true true false 1 || decide (p0 > 1)) 0x0C03 <|>
    codeIf (decide (dl = 0) || decide (dl > 4096) || decide (sl > 256)) 0x0C04
  | 0x10 => codeIf (unusedSet d true false true true false 0) 0x0C03 <|> codeIf (decide (dl < 64)) 0x0C04
  | 0x11 =>
    codeIf (unusedSet d true false true false true 0) 0x0C03 <|>
    codeIf (decide (al ≠ (if dKey d = 0xFFFF then 96 else 64))) 0x0C04
  | 0x12 => codeIf (unusedSet d true true true false false 2) 0x0C03 <|> codeIf (decide (sl ≠ 32)) 0x0C04
  | 0x18 =>
    let ivInt := (dFlags d).testBit 3
    codeIf (unusedSet d true false true true true (if ivInt then 0 else 12)) 0x0C03 <|>
    codeIf (decide (dl < sl + (if ivInt then 28 else 16))) 0x0C04
  | 0x19 =>
    codeIf (unusedSet d true false true true true 12) 0x0C03 <|>
    codeIf (decide (sl < 16) || decide (dl + 16 < sl)) 0x0C04
  | 0x1F =>
    codeIf (!allZero (sliceZ d 0x28 12) || !allZero (sliceZ d 0x36 10) ||
      !(dKeyOut d == 0 || dKeyOut d == 0xFFFF)) 0x0C03
  | 0x20 => codeIf (unusedSet d true true false false false 2) 0x0C03
  | 0x21 => codeIf (unusedSet d true false false true false 0) 0x0C03 <|> codeIf (decide (dl < 32)) 0x0C04
  | 0x22 =>
    codeIf (unusedSet d false true true false false 4 || decide (dParam d 2 > 1) ||
      (decide (dParam d 3 > 15) && decide (dParam d 3 ≠ 0xFF))) 0x0C03 <|>
    codeIf (decide (sl ≠ 32)) 0x0C04
  | 0x23 => codeIf (unusedSet d true false false true true 2) 0x0C03 <|> codeIf (decide (al > 256)) 0x0C04
  | 0x24 =>
    codeIf (unusedSet d true true true false true 0) 0x0C03 <|>
    codeIf (decide (al > 256) || !(sl == 76 || sl == 108)) 0x0C04
  | 0x25 => codeIf (unusedSet d true false false false false 0) 0x0C03
  | 0x28 =>
    codeIf (unusedSet d false false true false false 1) 0x0C03 <|> codeIf (decide (sl = 0) || decide (sl > 4096)) 0x0C04
  | 0x29 =>
    codeIf (unusedSet d false false true true true 3) 0x0C03 <|> codeIf (decide (sl ≠ 32) || decide (al ≠ 32)) 0x0C04
  | 0x2A => codeIf (unusedSet d false false true false false 0) 0x0C03 <|> codeIf (decide (sl ≠ 64)) 0x0C04
  | 0x2B => codeIf (unusedSet d false false true false false 0) 0x0C03 <|> codeIf (decide (sl ≠ 80)) 0x0C04
  | 0x2C => codeIf (unusedSet d false false false false false 0) 0x0C03
  | 0x30 => codeIf (unusedSet d false false false false false 2) 0x0C03
  | _ => none

/-- The buffers a core-class job names that do not lie wholly in core SRAM (R208, R522). -/
def coreBuffersBad (s : State) (q slot : Nat) (d : Bytes) : Bool :=
  let bad (a n : Nat) : Bool := decide (n ≠ 0) && !sramOk a n
  !sramOk (ctxBase s (.core q) + 256 * slot) 256 ||
  (decide (dType d ≠ 0x1F) && (bad (dSrc d) (dSrcLen d) || bad (dDst d) (dDstLen d) || bad (dAux d) (dAuxLen d)))

/-- The job uses a key slot, named or implied (R201, R238). -/
def usesSlot (d : Bytes) : Bool :=
  match dType d with
  | 0x02 => true | 0x03 => true | 0x10 => true | 0x12 => true | 0x18 => true | 0x19 => true | 0x1F => true
  | 0x11 => decide (dKey d ≠ 0xFFFF)
  | 0x20 => true | 0x21 => true | 0x22 => true | 0x23 => true | 0x24 => true | 0x25 => true | 0x29 => true | 0x2C => true
  | _ => false

/-- The refusals that name no slot (R197, R198, R201, R214, R238). -/
def refusal (s : State) (sub : Sub) (slot : Nat) (d : Bytes) : Option Nat :=
  let t := dType d
  codeIf (!knownType t) 0x0C01 <|> classBad t sub <|>
  codeIf (dFlags d / 16 ≠ 0 || ((dFlags d).testBit 3 && t ≠ 0x18) || fieldLe d 6 2 ≠ 0) 0x0C03 <|>
  fieldsBad d <|>
  (match sub with | .core q => codeIf (coreBuffersBad s q slot d) 0x0C06 | _ => none) <|>
  codeIf (s.locked && usesSlot d) 0x0C19 <|>
  codeIf ((t = 0x04 || (t = 0x18 && (dFlags d).testBit 3)) && katFail s 16) 0x0C16

/-- The keys a job takes from slots: slot, usage bits it needs, types it accepts and whether it signs with it (R198, R234). -/
def keysOf (s : State) (sub : Sub) (d : Bytes) : List (Nat × Nat × List Nat × Bool) :=
  let k := dKey d
  match dType d with
  | 0x02 => [(k, if dParam d 0 = 0 then 1 else 2, [6], false)]
  | 0x03 => [(k, 4, [6], false)]
  | 0x10 => [(k, 1, [1], true)]
  | 0x11 => if k = 0xFFFF then [] else [(k, 2, [2], false)]
  | 0x12 => [(k, 4, [3], false)]
  | 0x18 => [(k, 16, [5], false)]
  | 0x19 => [(k, 16, [5], false)]
  | 0x20 => [(if k = 0xFFFF then anchor s sub else k, 4, [3, 6], false)]
  | 0x21 => [(k, 0, [1, 2, 3], false)]
  | 0x22 => if dParam d 3 = 0xFF ∧ 8 ≤ dKeyOut d then [(anchor s sub, 4, [6], false)] else []
  | 0x23 => [(k, 8, [5], false), (dParam16 d 0, 0, [1, 2, 3, 5, 6], false)]
  | 0x24 => [(k, 8, [5], false)]
  | _ => []

/-- The chain checks of a job's keys (R229, R232): the first code that refuses one, or the copies taken. -/
def takeKeys (s : State) (sub : Sub) : List (Nat × Nat × List Nat × Bool) → State × Option Nat × List (Nat × KSlot)
  | [] => (s, none, [])
  | (k, need, types, signing) :: t =>
    match keyBad s sub k need types signing with
    | (s, some code) => (s, some code, [])
    | (s, none) =>
      match takeKeys s sub t with
      | (s', code, cs) => (s', code, (k, kslot s k) :: cs)

/-- The slot refusals (R198, R201, R225, R227): a key that is unusable, a key_out that the submitter may not fill, port ownership
asked for by another than Sage, and the instance root named by instance software. -/
def keyRefusal (s : State) (sub : Sub) (d : Bytes) : State × Option Nat × List (Nat × KSlot) :=
  let t := dType d
  let root : Bool := match sub.inst? with
    | some i => inInst s i (instKeys s i).1 &&
        ((decide (t = 0x25) && decide (dKey d = (instKeys s i).1)) || (decide (t = 0x23) && decide (dParam16 d 0 = (instKeys s i).1)))
    | none => false
  if root then (s, some 0x0A01, [])
  else if t = 0x22 ∧ dParam d 3 ≠ 0xFF ∧ sub ≠ .core 0 then (s, some 0x0A01, [])
  else if t = 0x25 then
    let k := dKey d
    let x := kslot s k
    (s, codeIf (!(decide (8 ≤ k) && decide (k < 512) && (decide (x.st = .live) || decide (x.st = .orphaned)) &&
      mayUse s sub k false)) 0x0C05, [])
  else
    match takeKeys s sub (keysOf s sub d) with
    | (s, some code, _) => (s, some code, [])
    | (s, none, cs) =>
      let out : Option Nat :=
        if t = 0x03 ∨ t = 0x12 ∨ t = 0x20 ∨ t = 0x24 then
          (match fillBad s sub (dKeyOut d) false false with | some 0x0A01 => some 0x0A01 | _ => none)
        else if t = 0x22 then
          (match fillBad s sub (dKeyOut d) true (decide (dParam d 2 = 1)) with | some 0x0A01 => some 0x0A01 | _ => none)
        else none
      (s, out, cs)

/-! ### Units and approval (R198, R201) -/

/-- The unit kind a job starts on: none for NOP and SELF_TEST. -/
def unitKind (s : State) (d : Bytes) : Option Nat :=
  let t := dType d
  if t = 0x00 ∨ t = 0x30 then none
  else if t = 0x01 ∨ t = 0x02 ∨ t = 0x03 then some 0
  else if t = 0x10 ∨ t = 0x11 ∨ t = 0x12 ∨ t = 0x1F ∨ t = 0x29 ∨ t = 0x2C then some 1
  else if t = 0x21 then (if (kslot s (dKey d)).ktype = 2 then some 3 else some 1)
  else if t = 0x18 ∨ t = 0x19 then some 2
  else some 3

/-- The job hashes on a lane beside its curve unit. -/
def needsLane (d : Bytes) : Bool :=
  let t := dType d
  t = 0x10 || t = 0x11 || t = 0x1F || t = 0x29 || t = 0x2C

/-- The bits of CJE_KAT_PASS a job's units answer for. -/
def katBits (d : Bytes) (kind unit lane : Nat) : List Nat :=
  let t := dType d
  (if kind = 3 then [] else [katBit kind unit]) ++ (if needsLane d then [lane] else []) ++
  (if t = 0x03 then [14] else []) ++
  (if t = 0x04 ∨ t = 0x20 ∨ t = 0x23 ∨ (t = 0x18 ∧ (dFlags d).testBit 3) then [15] else [])

/-- The service is approved (R201, R234). -/
def approvedService (d : Bytes) : Bool :=
  let t := dType d
  if t = 0x00 ∨ t = 0x12 ∨ t = 0x30 then false
  else if t = 0x18 then (dFlags d).testBit 3
  else if t = 0x20 then decide (dParam16 d 0 / 256 % 8 ≠ 3)
  else true

/-- 128-byte blocks a hash of `n` bytes takes. -/
def hashBlocks (n : Nat) : Nat := (n + 144) / 128
/-- The blocks an Ed25519 signature of `n` bytes hashes: two passes over the message (R212). -/
def signBlocks (n : Nat) : Nat := hashBlocks (32 + n) + hashBlocks (64 + n)
/-- The 128-byte blocks a job hashes on its lane (R212); `n` is what it hashes where its descriptor does not say: a manifest's length,
a WMS's, a certificate's. -/
def blocksOf (d : Bytes) (n : Nat) : Nat :=
  let m := dSrcLen d
  match dType d with
  | 0x01 => if dParam d 0 = 1 ∨ dParam d 0 = 2 then m / 128 else hashBlocks m
  | 0x02 => hashBlocks (128 + m) + 2
  | 0x03 => hashBlocks (132 + m) + 2
  | 0x10 => signBlocks m
  | 0x11 => hashBlocks (64 + m)
  | 0x1F => hashBlocks n + hashBlocks (64 + n)
  | 0x29 => signBlocks n
  | 0x2C => signBlocks n
  | _ => 0

/-- Blocks hashed on a job's lane counted (R219). -/
def countLane (s : State) (j : Job) (k : Nat) : State :=
  let lane : Option Nat := match j.unit with | some (0, m) => some m | _ => j.lane
  match lane with
  | some m => rcount s (reg .lane m 0x048) 31 0 k
  | none => s
/-- A unit's counters after a job (R219): blocks of a lane, operations of a curve unit, KiB of an AES-GCM unit. -/
def countUnit (s : State) (j : Job) (fromPos n : Nat) : State :=
  let s := countLane s j (blocksOf j.desc n - fromPos / 128)
  match j.unit with
  | some (1, m) => rcount s (reg .curve m 0x048) 31 0 1
  | some (2, m) =>
    let n := Tbl.get (fun _ => 0) s.aesBytes m + dSrcLen j.desc
    rset { s with aesBytes := Tbl.set (fun _ => 0) s.aesBytes m n } (reg .aes m 0x048)
      (BitVec.ofNat 32 (min (n / 1024) 0xFFFFFFFF))
  | _ => s

/-! ### Verdicts -/

/-- The key copy a job took from the slot it names first. -/
def Job.key (j : Job) : KSlot := (j.copies.headD (0, {})).2
/-- The parent a fill records for the key copy a job took first (R226). -/
def Job.parent (j : Job) : Option (Nat × Nat × Nat) :=
  (j.copies.head?).map fun c => (c.1, c.2.gen, c.2.depth)
/-- A destination shorter than the output: the job completes without running (R197, R198). -/
def tooShort : JobRes := { status := 0x0C04, ran := false }
/-- A verdict without output. -/
def verdict (code : Nat) : JobRes := { status := code, ran := !(decide (code = 0x0C05) || decide (code = 0x0A01)) }
/-- Success with bytes at dst. -/
def output (j : Job) (bs : Bytes) (result : Nat) : JobRes :=
  { status := 0, outLen := bs.length, result := result, outs := [(dDst j.desc, bs)] }

/-- HASH (R198). -/
def runHash (s : State) (j : Job) (src aux : Bytes) : State × JobRes :=
  let mid := jobMid j aux
  let rest := src.drop j.pos
  if dParam j.desc 0 = 1 ∨ dParam j.desc 0 = 2 then
    (s, { status := 0, outs := [(dAux j.desc, midFeed mid rest)] })
  else (s, output j (midEnd mid rest) 0)
/-- HMAC with param 0 (R198). -/
def runHmacGen (s : State) (j : Job) (src _aux : Bytes) : State × JobRes := (s, output j (hmac j.key.key src) 0)
/-- HMAC with param 1 (R198). -/
def runHmacVerify (s : State) (j : Job) (src aux : Bytes) : State × JobRes :=
  (s, verdict (if hmac j.key.key src = sliceZ aux 0 64 then 0 else 0x0C07))
/-- KDF (R198, R226). -/
def runKdf (s : State) (j : Job) (src _aux : Bytes) : State × JobRes :=
  let bits := dParam16 j.desc 0
  match keySpec (dParam16 j.desc 2) (if bits = 256 then 5 else 6) (if bits = 256 then [1, 3, 5] else [6]) with
  | none => (s, verdict 0x0A02)
  | some (t, u) =>
    let (s, code) := fill s j.sub (dKeyOut j.desc)
      { ktype := t, usage := u, parent := j.parent, key := kdfOut j.key.key src bits } false
    (s, verdict code)
/-- DRBG: the next free bytes; 0x0C16 after a failed health test (R198, R214). -/
def runDrbg (s : State) (j : Job) (_src _aux : Bytes) : State × JobRes :=
  if katFail s 16 then (s, verdict 0x0C16) else
  let (bs, s) := draw s (dDstLen j.desc)
  (s, output j bs 0)
/-- ED25519_SIGN (R198, R237). -/
def runSign (s : State) (j : Job) (src _aux : Bytes) : State × JobRes :=
  if dKey j.desc = 2 ∧ src.take 16 = wmsDomain then (s, verdict 0x0B04)
  else (s, output j (ed25519Sign j.key.key src) 0)
/-- ED25519_VERIFY (R198). -/
def runVerify (s : State) (j : Job) (src aux : Bytes) : State × JobRes :=
  let pub := if dKey j.desc = 0xFFFF then sliceZ aux 64 32 else j.key.key
  (s, verdict
    (if (edDecode pub).isNone ∨ (edDecode (sliceZ aux 0 32)).isNone then 0x0C0F
     else if ed25519Verify pub src (sliceZ aux 0 64) then 0 else 0x0C07))
/-- X25519 (R198, R226). -/
def runX25519 (s : State) (j : Job) (src _aux : Bytes) : State × JobRes :=
  match keySpec (dParam16 j.desc 0) 5 [5] with
  | none => (s, verdict 0x0A02)
  | some (t, u) =>
    let z := x25519 j.key.key (sliceZ src 0 32)
    if allZero z then (s, verdict 0x0C0F) else
    let (s, code) := fill s j.sub (dKeyOut j.desc) { ktype := t, usage := u, parent := j.parent, key := z } false
    (s, verdict code)
/-- GCM_ENC (R198, R214). -/
def runGcmEnc (s : State) (j : Job) (src aux : Bytes) : State × JobRes :=
  if (dFlags j.desc).testBit 3 ∧ katFail s 16 then (s, verdict 0x0C16)
  else if (dFlags j.desc).testBit 3 then
    let (iv, s) := draw s 12
    let (ct, tag) := gcmEnc j.key.key iv aux src
    (s, output j (iv ++ ct ++ tag) 0)
  else
    let (ct, tag) := gcmEnc j.key.key (sliceZ j.desc 0x34 12) aux src
    (s, output j (ct ++ tag) 0)
/-- GCM_DEC (R198): on a tag mismatch zeros take the plaintext's place. -/
def runGcmDec (s : State) (j : Job) (src aux : Bytes) : State × JobRes :=
  let n := src.length - 16
  match gcmDec j.key.key (sliceZ j.desc 0x34 12) aux (src.take n) (src.drop n) with
  | some pt => (s, output j pt 0)
  | none => (s, { status := 0x0C08, outs := [(dDst j.desc, zeros n)] })

/-- KEY_GEN (R234). -/
def runKeyGen (s : State) (j : Job) (_src _aux : Bytes) : State × JobRes :=
  match keySpec (dParam16 j.desc 0) 0 [1, 3, 5] with
  | none => (s, verdict 0x0A02)
  | some (t, u) =>
    let (key, s) := draw s 32
    let (s, code) := fill s j.sub (dKeyOut j.desc) { ktype := t, usage := u, parent := j.parent, key := key } false
    (s, verdict code)
/-- KEY_PUB (R234). -/
def runKeyPub (s : State) (j : Job) (_src _aux : Bytes) : State × JobRes :=
  let k := j.key
  (s, output j (if k.ktype = 1 then ed25519Pub k.key else if k.ktype = 2 then k.key else x25519Pub k.key) 0)
/-- KEY_IMPORT (R225, R234). -/
def runKeyImport (s : State) (j : Job) (src _aux : Bytes) : State × JobRes :=
  let d := j.desc
  if (edDecode src).isNone then (s, verdict 0x0C0F)
  else if keySpec (dParam16 d 0) 0 [2] = none then (s, verdict 0x0A02)
  else if dParam d 2 = 1 ∧ sha512 src ≠ ownerDigest s (lifeCycle s).2 then (s, verdict 0x0A05)
  else
    let port := if dParam d 3 = 0xFF then none else some (dParam d 3)
    let (s, code) := fill s j.sub (dKeyOut d)
      { ktype := 2, usage := 2, parent := if port = none then j.parent else none, ownerKey := decide (dParam d 2 = 1),
        port := port, key := src } true
    (s, verdict code)
/-- The bytes a blob authenticates beside the ciphertext: its first 16 and the caller's AAD (R236). -/
def blobHeader (spec : Nat) : Bytes := ascii "WKW1" ++ leBytes 2 1 ++ leBytes 2 spec ++ zeros 8
/-- KEY_WRAP (R236). -/
def runKeyWrap (s : State) (j : Job) (_src aux : Bytes) : State × JobRes :=
  match j.copies with
  | [(_, w), (_, k)] =>
    if dDstLen j.desc < 44 + k.key.length then (s, tooShort)
    else if !k.may 5 then (s, verdict 0x0A08)
    else
      let (iv, s) := draw s 12
      let h := blobHeader (k.usage + 256 * k.ktype)
      let (ct, tag) := gcmEnc w.key iv (h ++ aux) k.key
      (s, output j (h ++ iv ++ ct ++ tag) 0)
  | _ => (s, verdict 0x0C05)
/-- KEY_UNWRAP (R236). -/
def runKeyUnwrap (s : State) (j : Job) (src aux : Bytes) : State × JobRes :=
  let n := src.length - 44
  let spec := fieldLe src 6 2
  match gcmDec j.key.key (sliceZ src 0x10 12) (src.take 16 ++ aux) (sliceZ src 0x1C n) (src.drop (src.length - 16)) with
  | none => (s, verdict 0x0A07)
  | some key =>
    if src.take 16 ≠ blobHeader spec then (s, verdict 0x0A07) else
    match keySpec spec 0 [1, 2, 3, 5, 6] with
    | none => (s, verdict 0x0A07)
    | some (t, u) =>
      if key.length ≠ (if t = 6 then 64 else 32) then (s, verdict 0x0A07)
      else if !u.testBit 5 then (s, verdict 0x0A08)
      else
        let (s, code) := fill s j.sub (dKeyOut j.desc) { ktype := t, usage := u, parent := j.parent, key := key } false
        (s, verdict code)
/-- MEAS_EXTEND (R240). -/
def runMeasExtend (s : State) (j : Job) (src _aux : Bytes) : State × JobRes :=
  if mayExtend s j.sub.owner (dParam j.desc 0) then (extend s (dParam j.desc 0) src, verdict 0) else (s, verdict 0x0B01)
/-- WMS_BUILD (R243, R244). -/
def runWms (s : State) (j : Job) (src aux : Bytes) : State × JobRes :=
  let r : WmsReq := ⟨src, dParam16 j.desc 0, dParam j.desc 2, aux⟩
  match wmsBad s j.sub r with
  | some code => (s, verdict code)
  | none =>
    let w := wmsBuild s j.sub r
    if dDstLen j.desc < w.length then (s, tooShort)
    else (irq (rcount s (reg .atu 0 0x040) 31 16 1) .atu 0 0, output j w w.length)
/-- POLICY_COMMIT (R235, R240). -/
def runPolicy (s : State) (_j : Job) (src _aux : Bytes) : State × JobRes :=
  if rbit s (reg .atu 0 0x040) 1 then (s, verdict 0x0B05)
  else
    let s := extend (rsetb (rsetBytes s (reg .atu 0 0x100) 16 src) (reg .atu 0 0x040) 1 true) 4 src
    (s, verdict 0)
/-- FW_RECORD (R235). -/
def runFwRecord (s : State) (_j : Job) (src _aux : Bytes) : State × JobRes :=
  if handover s then (s, verdict 0x0A0A)
  else if !allZero (sliceZ src 73 7) then (s, verdict 0x0C03)
  else (extend { rsetBytes s (reg .atu 0 0x0C0) 16 (src.take 64) with fwRec := some src } 0 src, verdict 0)

/-- The Alias key and its certificate (R224, R235, R246): the certificate's digests and identifiers, signed with DevID. -/
def createAlias (s : State) (rec : Bytes) : State :=
  let seed := derive (kslot s 1).key "WDX-ALIAS" (rec.take 72) 256
  let s := loadFixed s 2 1 1 0 seed
  let pub := ed25519Pub seed
  let h := (sha512 pub).take 16
  let serial := (h.headD 0 &&& 0x7F) :: h.drop 1
  let (lc, ep) := lifeCycle s
  let tbs := aliasTbs serial (certNotBefore s) (devidName (certSerial s)) pub (keyId pub) (keyId (devidPub s))
    (fieldLe rec 64 8) (rec.take 64) (leBytes 1 lc ++ leBytes 1 ep ++ (ladderDigest s).take 32)
  let cert := derCert tbs (ed25519Sign (kslot s 0).key tbs)
  let s := rsetBytes (rsetBytes s (reg .atu 0 0x160) 8 pub) (reg .atu 0 0x800) 256 cert
  let s := rsetf s (reg .atu 0 0x04C) 26 16 cert.length
  rsetb (rsetb s (reg .atu 0 0x040) 0 true) (reg .atu 0 0x040) 2 true
/-- ALIAS_CREATE (R235). -/
def runAlias (s : State) (_j : Job) (_src _aux : Bytes) : State × JobRes :=
  if handover s then (s, verdict 0x0A0A)
  else if (kslot s 0).st ≠ .live ∨ (kslot s 1).st ≠ .live then (s, verdict 0x0A09)
  else if rbit s (reg .atu 0 0x040) 0 ∨ rbit s (reg .atu 0 0x040) 2 then (s, verdict 0x0A09)
  else match s.fwRec with
    | none => (s, verdict 0x0B03)
    | some rec => (createAlias s rec, verdict 0)

end Sys2Proof.Machine
end

