-- ==== Sys2Proof/Machine/PortTree.lean ====
section
/-! DEFINITION. Machine/PortTree.lean: tree loads (R142, R143), and the counter raises and the flip of an activation (R176,
R186). -/
namespace Sys2Proof.Machine

/-! ### Tree loads (R142, R143) -/

/-- The images an enabled RESIDENT or STREAM window of port `n` names, in increasing order. -/
def imagesUsed (s : State) (n : Nat) : List Nat :=
  (List.range 4).filter fun k => (wins s n).any fun d => d.verified && decide (d.img = k)

/-- The tree contexts that are loaded, in increasing image, each with its first digest frame. -/
def treesToLoad (s : State) (n : Nat) : List TreeCtx :=
  let first := rfld s (reg .du 0 (0x104 + 16 * n)) 15 0
  let ts := (imagesUsed s n).filterMap fun k => treeOf (port s n) k
  (ts.foldl (fun a t => (a.1 ++ [{ t with first := a.2 }], a.2 + (t.leaves + 127) / 128))
    (([] : List TreeCtx), first)).1

/-- The code 0x1005 or 0x1006 a tree load fails with before it reads any DTT (R142). -/
def treeConfigBad (s : State) (n : Nat) : Option Nat :=
  let need := ((treesToLoad s n).map fun t => (t.leaves + 127) / 128).foldl (· + ·) 0
  if rfld s (reg .du 0 (0x104 + 16 * n)) 31 16 < need then some 0x1005
  else if (wins s n).any fun d => d.verified &&
      (match treeOf (port s n) d.img with | none => true | some t => decide (d.lf + (d.l - d.b) ≥ t.leaves))
    then some 0x1006
  else none

/-- Whether a failure code is a verification failure (R177, R192); the others are configuration failures. -/
def isVerification (code : Nat) : Bool :=
  decide (code = 0x0E30) || decide (code = 0x0E31) || decide (code = 0x0E32) || decide (code = 0x0E3E) ||
  decide (code = 0x0E25) || (decide (0x1001 ≤ code) && decide (code ≤ 0x1004))

/-- The digest unit reports its own codes (R166). -/
def duReport (s : State) (code : Nat) : State :=
  if 0x1001 ≤ code ∧ code ≤ 0x1006 then report s .du 0 code 0 0 else s

/-- A sequence of port `n` fails with a code: quarantine for a verification failure, else as R167 states. -/
def seqFail (s : State) (n code : Nat) : State :=
  let s := duReport s code
  if isVerification code then quarantine s n code else configFail s n code

/-- Digest frames still FILLING become INVALID when a tree load fails. -/
def dropFilling (s : State) (n : Nat) : State :=
  mapFrames s (fun _ f => f.owner == some n && f.digest && f.st == .filling) fun f => { f with st := .invalid, data := [] }

/-- The digest frames of a loaded tree: its level-1 nodes, 64 to a frame, VALID (R143). -/
def writeNodes (s : State) (n : Nat) (t : TreeCtx) (nodes : List Bytes) : State :=
  (List.range ((t.leaves + 127) / 128)).foldl
    (fun s i => setFrame s (t.first + i)
      { st := .valid, owner := some n, digest := true, image := t.image, leaf := 64 * i,
        data := ((nodes.drop (64 * i)).take 64).flatten }) s

/-- The trees have loaded: fill, or golden verification. -/
def treesLoaded (s : State) (n : Nat) : State :=
  if (port s n).st = .recovering then modPort s n fun p => { p with seq := .goldenVerify } else fillStart s n

/-- A tree load starts (R142): the checks that need no DTT, then the digest frames FILLING.  With no tree to load it has ended. -/
def startTreeLoad (s : State) (n : Nat) : State :=
  match treeConfigBad s n with
  | some code => seqFail (irq s .du 0 n) n code
  | none =>
    let ts := treesToLoad s n
    if ts = [] then treesLoaded (irq s .du 0 n) n else
    let s := modPort s n fun p =>
      { p with seq := .treeLoad,
               trees := p.trees.map fun t => (ts.find? fun u => decide (u.image = t.image)).getD t }
    ts.foldl (fun s t => (List.range ((t.leaves + 127) / 128)).foldl
      (fun s i => setFrame s (t.first + i) { st := .filling, owner := some n, digest := true }) s) s

/-- The trees of `ts` checked against the DTTs read, in order: the first failing code, if any. -/
def treesBad : List TreeCtx → List Bytes → Option Nat
  | [], _ => none
  | t :: ts, ds => match dttBad (ds.headD []) t with
    | some code => some code
    | none => treesBad ts (ds.drop 1)

/-- The tree load of port `n` ends with the DTTs read, in image order (R142, R143). -/
def treeLoadEnds (s : State) (n : Nat) (dtts : List Bytes) : State :=
  let ts := treesToLoad s n
  let s := irq s .du 0 n
  let good := (List.range ts.length).takeWhile fun i =>
    match ts[i]? with | some t => (dttBad (dtts.getD i []) t).isNone | none => false
  let s := good.foldl (fun s i =>
    match ts[i]? with
    | some t =>
      let s := writeNodes s n t (level1 (dtts.getD i []) t.leaves)
      modPort s n fun p => { p with trees := p.trees.map fun u => if u.image = t.image then { u with loaded := true } else u }
    | none => s) s
  match treesBad ts dtts with
  | some code => seqFail (dropFilling s n) n code
  | none => treesLoaded s n

/-! ### Counter raises (R175, R176, R186 step 4) -/

/-- The next counter raise of port `n`'s sequence is requested of the counter store (R324); a LOCKED device stops before it
(R169). -/
def raiseNext (s : State) (n : Nat) : State :=
  match (port s n).seq with
  | .raising ((c, v) :: _) =>
    if s.locked ∨ s.cstOps.any (fun o => o.req == .port n) then s
    else { s with cstOps := s.cstOps ++ [⟨.port n, true, c, v⟩] }
  | _ => s

/-- The tree contexts a manifest gives (R141). -/
def contextsOf (m : Manifest) : List TreeCtx :=
  m.entries.map fun e => { image := e.image, root := e.root, leaves := e.leaves, addr := e.dtt }

/-- Activation steps 5 and 6 (R186): the selection flips, trees and frames change over, the slots are extended; then the
tree load of step 7. -/
def flipSides (s : State) (n : Nat) : State :=
  match (port s n).next with
  | none => s
  | some m =>
    let s := modPort s n fun p =>
      { p with sel := !p.sel, flips := satAdd p.flips 1 255, cache := [], refills := [], refillAgain := false,
               leafReqs := [], own := [], staged := none, next := none, man := some m, fillCount := 0, fillFold := zeros 8,
               trees := m.entries.map fun e => { image := e.image, root := e.root, leaves := e.leaves, addr := e.dtt } }
    let s := rset s (reg .fgpWin n 0x044) 0
    let s := mapFrames s (fun _ f => f.owner == some n) fun f => { owner := f.owner, digest := f.digest }
    let s := extend s (pslot n 4) (activationRecord (port s n).sel (port s n).flips m.digest)
    startTreeLoad (measureMan (clearMan s n) n m) n

/-- The flip of an activation whose raises have been made takes effect while Pn_CS_N is deasserted (R112). -/
def flipReady (s : State) (n : Nat) : State :=
  let p := port s n
  if p.act ∧ p.seq = .raising [] ∧ p.live = none then flipSides s n else s

end Sys2Proof.Machine
end

