-- ==== Sys2Proof/Machine/PortProto.lean ====
section
/-! DEFINITION. Machine/PortProto.lean: the platform side of a port (chapters 04 and 05): every platform command, the decision
by window and policy, denied commands, the mailbox layout, SFDP, and the flash side's busy and reset events. -/
namespace Sys2Proof.Machine

/-! ### Flags, denial, the end of a command -/

/-- A protocol flag is set by a command: bit `b` of FGPn_PROTO_STATUS, FGPn_PROTO_LAST, and control bit 8 when the flag goes
from 0 to 1 (R104). -/
def protoFlag (s : State) (n b : Nat) (op ext : Byte) : State :=
  let a := reg .fgpCtl n 0x06C
  let m := (port s n).mode
  let s := if rbit s a b then s else irq (rsetb s a b true) .fgpCtl n 8
  rset s (reg .fgpCtl n 0x070)
    (setFld (setFld (mk 7 0 op.toNat) 15 8 (if m.octal then ext.toNat else 0)) 18 16 m.code)

/-- Classes of FGPn_DENY_LAST_INFO (R131). -/
inductive DenyClass
  | read
  | program
  | erase
  | latch
  deriving DecidableEq, Repr

/-- The code of a class. -/
def DenyClass.code : DenyClass → Nat | .read => 0 | .program => 1 | .erase => 2 | .latch => 3

/-- A command is denied: counted, recorded, and for anything but a read flagged (R120, R122, R124). -/
def deny (s : State) (n : Nat) (cls : DenyClass) (op : Byte) (addr reason : Nat) (win : Option Nat) : State :=
  let isRead := decide (cls = .read)
  let s := if isRead then rcount s (reg .fgpWin n 0x050) 31 16 1 else rcount s (reg .fgpWin n 0x050) 15 0 1
  let s := rset s (reg .fgpWin n 0x054) (BitVec.ofNat 32 addr)
  let s := rset s (reg .fgpWin n 0x058)
    (setFld (setFld (setFld (setFld (mk 7 0 op.toNat) 12 8 (win.getD 0)) 13 13 (b2n win.isSome))
      15 14 cls.code) 19 16 reason)
  if isRead then s else
  let s := irq (rsetb s (reg .fgpCtl n 0x0A0) 2 true) .fgpCtl n 4
  let s := if reason = 8 then irq (rcount s (reg .fgpMb n 0x054) 15 0 1) .fgpMb n 1 else s
  modPort s n fun p => { p with live := some { clearsWel := true, denied := true } }

/-- Pn_CS_N has risen: WEL and the error indication as the command in progress leaves them (R85, R120), and CS0 busy after a
forwarded program or erase (R92). -/
def csEnd (s : State) (n : Nat) : State :=
  let p := port s n
  match p.live with
  | none => s
  | some c =>
    let s := setPort s n { p with live := none, wel := p.wel && !c.clearsWel, errInd := p.errInd || c.denied,
                                  cs0Busy := p.cs0Busy || c.writes }
    if c.writes then
      let b := rfld s (reg .fgpCtl n 0x04C) 23 16
      tset (tset s (.busyPoll n) 200) (.busyMax n) (ms (if b = 0 then 255 else b))
    else s

/-- The accepted publish takes effect (R125). -/
def publishNow (s : State) (n : Nat) : State :=
  match (port s n).pub with
  | none => s
  | some (q, len) =>
    irq (modPort s n fun p =>
      { p with pub := none, mbRsp := (rbytes s (reg .fgpMb n 0x200) 64).take len, mbRspSeq := q,
               mbStatus := rfld s (reg .fgpMb n 0x050) 15 0, mbState := 2 }) .fgpMb n 2

/-- Pn_CS_N has risen: the command ends, a waiting publish and a waiting flip take effect (R112, R125). -/
def csRise (s : State) (n : Nat) : State := flipReady (publishNow (csEnd s n) n) n

/-- The extension byte matches (R83). -/
def extOk (s : State) (n : Nat) (op ext : Byte) : Bool :=
  if rbit s (reg .fgpCtl n 0x040) 4 then decide (ext = op) else decide (ext = ~~~op)

/-- A platform command with opcode `op`: an earlier command still in progress has ended, an octal command is dropped where its
extension is wrong (R83), an unsupported opcode is dropped (R86), and a command of a class `want` accepts runs
`k`.  Nothing happens at a port that is absent, off or in reset. -/
def platCmd (s : State) (n : Nat) (op ext : Byte) (want : OpClass → Bool) (k : Port → State → State) : State :=
  if !portOn s n then s else
  let s := csRise s n
  let was := port s n
  let s := setPort s n { was with rstEn := false, live := some {} }
  if was.mode.octal ∧ !extOk s n op ext then protoFlag s n 1 op ext
  else match opClass was.mode op with
    | none => protoFlag s n 0 op ext
    | some c => if want c then k was s else s

/-- A platform command whose opcode exists in the 1S and 4S modes only, so that it carries no extension byte; in an octal mode
the opcode is an unsupported one, which is another command. -/
def platCmd1 (s : State) (n : Nat) (op : Byte) (want : OpClass → Bool) (k : Port → State → State) : State :=
  if (port s n).mode.octal then s else platCmd s n op 0 want k

/-- Data driven to the platform; nothing while the outputs are not driven (R100). -/
def drive (s : State) (n : Nat) (data : Bytes) : State := if pinsLive s then emit s (.platform n data) else s

/-- The address a command carries: bits [31:24] are 0 in 3-byte mode unless the opcode always has 4 bytes (R87). -/
def platAddr (p : Port) (op : Byte) (addr : Nat) : Nat :=
  if p.addr4 ∨ p.mode.octal ∨ op4Byte op then addr % 2 ^ 32 else addr % 2 ^ 24

/-! ### The decision (R108, R109, R113) -/

/-- What lies at a platform address under the latched set. -/
inductive Src
  | resident (w : Nat) (d : WinDesc)
  | forward (w : Nat) (d : WinDesc)
  | mailbox (w : Nat) (d : WinDesc)
  | denied (reason : Nat) (win : Option Nat)
  deriving DecidableEq, Repr

/-- The window that decides an address (R108). -/
def srcAt (p : Port) (pa : Nat) : Src :=
  match p.latched with
  | none => .denied 1 none
  | some l =>
    if pa ≥ 2 ^ l.density then .denied 1 none else
    match (List.range l.wins.length).findSome? fun w =>
      match l.wins[w]? with
      | some d => if d.covers (pa / 4096) then some (w, d) else none
      | none => none with
    | none => .denied 1 none
    | some (w, d) =>
      match d.pol with
      | 1 => .resident w d
      | 2 => .forward w d
      | 3 => .forward w d
      | 4 => .forward w d
      | 6 => .mailbox w d
      | _ => .denied 2 (some w)

/-- The flash address of a platform address under the selection in force (R110, R127). -/
def platFa (p : Port) (pa : Nat) : Nat :=
  match p.latched with
  | some l => remap l.abMap l.abCtrl p.sel pa
  | none => pa

/-! ### The mailbox (R123 to R126) -/

/-- The STATUS word: FGPn_MB_STATE. -/
def mbStatusWord (p : Port) : Word :=
  setFld (setFld (setFld (mk 7 0 p.mbReqSeq) 15 8 p.mbRspSeq) 17 16 p.mbState.val) 28 20 p.mbRsp.length
/-- The INFO word: FGPn_MB_INFO. -/
def mbInfoWord (p : Port) : Word := setFld (mk 15 0 p.mbStatus) 23 16 1
/-- A byte of the mailbox layout as the platform reads it (R123). -/
def mbByte (p : Port) (o : Nat) : Byte :=
  if o < 0x100 then Tbl.get zeroByte p.mbReq o
  else if o < 0x200 then p.mbRsp.getD (o - 0x100) 0
  else if o < 0x204 then (leBytes 4 (mbStatusWord p).toNat).getD (o - 0x200) 0
  else if o < 0x208 then (leBytes 4 (mbInfoWord p).toNat).getD (o - 0x204) 0
  else 0xFF

/-- An accepted doorbell (R124). -/
def ringDoorbell (s : State) (n : Nat) (w : Word) : State :=
  irq (modPort s n fun p => { p with mbState := 1, mbReqSeq := fld w 7 0, mbDoor := w }) .fgpMb n 0

/-- A program into the mailbox window at offset `o` (R123, R124); `addr`, `op` and `win` are for the record of a denial. -/
def mbProgram (s : State) (n : Nat) (op : Byte) (addr o win : Nat) (data : Bytes) : State :=
  let p := port s n
  let no (s : State) : State := deny s n .program op addr 8 (some win)
  if o < 0x100 then
    if p.mbState = 1 then no s
    else
      let s := setPort s n { p with mbReq := memWrite p.mbReq o (data.take (0x100 - o)) }
      if o + data.length > 0x100 then no s else s
  else if o = 0x300 ∧ data.length = 4 ∧ p.mbState ≠ 1 then
    let w := wordAtLe data 0
    if 1 ≤ fld w 16 8 ∧ fld w 16 8 ≤ 256 then ringDoorbell s n w else no s
  else no s

/-! ### Reads (R113, R118, R119, R122, R148, R149, R151 to R153) -/

/-- The ECC events of a resident piece, in order: corrected words are counted; the first uncorrectable word ends the good bytes.
`offs` are the block offsets of the piece's bytes and `k` its first index in the data phase. -/
def residentEcc (s : State) (f : Nat) (offs : List Nat) (k : Nat) : List (Nat × Bool) → State × Option Nat
  | [] => (s, none)
  | (b, uncorr) :: t =>
    if b < k ∨ k + offs.length ≤ b then residentEcc s f offs k t
    else
      let word := offs.getD (b - k) 0 / 8
      if uncorr then (eccNote s f word 0 true, some ((offs.findIdx? fun o => decide (o / 8 = word)).getD (b - k)))
      else residentEcc (eccNote s f word 0 false) f offs k t

/-- One piece of a read within one block: `blk` its platform block, `offs` the offsets read, `k` the index of the first of
them in the data phase.  Answers the state, the bytes driven and whether the read goes on. -/
def readPiece (s : State) (n start : Nat) (src : Src) (blk : Nat) (offs : List Nat) (k : Nat) (inp : ReadIn) :
    State × Bytes × Bool :=
  let c := offs.length
  let p := port s n
  match src with
  | .resident _ d =>
    let f := d.frm + (blk - d.b)
    let fr := frame s f
    if fr.st ≠ .valid then (rcount s (reg .du 0 (0x108 + 16 * n)) 23 16 1, ones c, false)
    else
      let data := offs.map fun o => fr.data.getD o 0
      match residentEcc s f offs k inp.ecc with
      | (s, none) => (s, data, true)
      | (s, some cut) =>
        (eccAct (eccPort s n (some start)) f, data.take cut ++ ones (c - cut), false)
  | .forward w d =>
    let avail := match inp.under with | some u => min c (u - k) | none => c
    let data := (List.range avail).map fun i => inp.data.getD (k + i) 0xFF
    let fa := platFa p (blk * 4096)
    let tapped := if d.pol = 2 then
        tapPiece s n { fa := fa, win := w, image := d.img, leaf := d.lf + (blk - d.b) } (offs.zip data)
      else (s, avail)
    (tapped.1, data.take tapped.2 ++ ones (c - tapped.2), decide (tapped.2 = c) && (port tapped.1 n).st.deciding)
  | .mailbox _ _ => (s, offs.map (mbByte p), true)
  | .denied _ _ => (s, ones c, false)

/-- A read goes on across a 4 KiB boundary (R118): both blocks RESIDENT, or both forwarding and contiguous on flash. -/
def continues (p : Port) (a b : Src) (blk : Nat) : Bool :=
  match a, b with
  | .resident _ _, .resident _ _ => true
  | .forward _ _, .forward _ _ => decide (platFa p (blk * 4096) = platFa p ((blk - 1) * 4096) + 4096)
  | _, _ => false

/-- A read ended with all-ones at a boundary (R118). -/
def crossEnds (s : State) (n : Nat) : State :=
  let a := reg .fgpCtl n 0x0A0
  let s := if rbit s a 1 then s else irq (rsetb s a 1 true) .fgpCtl n 5
  rcount s (reg .fgpWin n 0x05C) 31 0 1

/-- The blocks after the first of a linear read: block `blk` next, `len` bytes left, `k` bytes done, `prev` where the last
byte came from.  Answers the state, the bytes and how many of them the flash side delivered in its command. -/
def readMore (n start : Nat) (inp : ReadIn) : Nat → State → Src → Nat → Nat → Nat → State × Bytes
  | 0, s, _, _, len, _ => (s, ones len)
  | fuel + 1, s, prev, blk, len, k =>
    if len = 0 then (s, []) else
    let src := srcAt (port s n) (blk * 4096)
    if !continues (port s n) prev src blk then (crossEnds s n, ones len) else
    let c := min len 4096
    let (s, bs, go) := readPiece s n start src blk (List.range c) k inp
    if go then
      let (s, rest) := readMore n start inp fuel s src (blk + 1) (len - c) (k + c)
      (s, bs ++ rest)
    else (s, bs ++ ones (len - c))

/-- The data of a read that its window serves: from the block of `pa`, `len` bytes, wrapped within `wrap` bytes where given. -/
def readData (s : State) (n pa len : Nat) (src : Src) (wrap : Option Nat) (inp : ReadIn) : State × Bytes :=
  let o := pa % 4096
  match wrap with
  | some w =>
    let offs := (List.range len).map fun i => o / w * w + (o + i) % w
    let (s, bs, _) := readPiece s n pa src (pa / 4096) offs 0 inp
    (s, bs)
  | none =>
    let c := min len (4096 - o)
    let (s, bs, go) := readPiece s n pa src (pa / 4096) ((List.range c).map (o + ·)) 0 inp
    if go then
      let (s, rest) := readMore n pa inp (len / 4096 + 2) s src (pa / 4096 + 1) (len - c) c
      (s, bs ++ rest)
    else (s, bs ++ ones (len - c))

/-- The wrap length of a read, where it wraps (R89). -/
def wrapLen (p : Port) (op : Byte) : Option Nat :=
  if op = 0xEB ∨ op = 0xEC then p.wrap.map fun c => 8 * 2 ^ c else none

/-- Bytes of a forwarded read from block `blk` on, `len` left: it stops on CS0 at the first boundary it does not cross (R118). -/
def runLen (p : Port) : Nat → Src → Nat → Nat → Nat
  | 0, _, _, _ => 0
  | fuel + 1, prev, blk, len =>
    let src := srcAt p (blk * 4096)
    if len = 0 ∨ !continues p prev src blk then 0 else min len 4096 + runLen p fuel src (blk + 1) (len - 4096)
/-- The bytes a forwarded read of `len` bytes at `pa` takes from CS0. -/
def fwdLen (p : Port) (pa len : Nat) : Nat :=
  let c := min len (4096 - pa % 4096)
  c + runLen p (len / 4096 + 2) (srcAt p pa) (pa / 4096 + 1) (len - c)

/-- The flash command of a forwarded read, driven (R91). -/
def forwardRead (s : State) (n pa len : Nat) (wrapped : Bool) : State :=
  let op := if wrapped then rfld s (reg .fgpCtl n 0x050) 15 8 else rfld s (reg .fgpCtl n 0x050) 7 0
  let s := modPort s n fun p => { p with live := some { forwards := true } }
  flashOut s n 0 op (platFa (port s n) pa) (if wrapped then len else fwdLen (port s n) pa len) []

/-- A READ in a supported mode, its opcode and address known: decided, served and driven (R113). -/
def readCmd (s : State) (n : Nat) (op ext : Byte) (addr len : Nat) (ready : Bool) (inp : ReadIn) : State :=
  let p := port s n
  let a := platAddr p op addr
  let pa := if p.mode = .m8d then a / 2 * 2 else a
  if !p.st.deciding then drive (deny s n .read op a 9 none) n (ones len) else
  match srcAt p pa with
  | .denied r w => drive (deny s n .read op a r w) n (ones len)
  | src =>
    let fwd : Bool := match src with | .forward _ _ => true | _ => false
    if fwd ∧ s.tbLoss then
      let a := reg .fgpCtl n 0x0A0
      drive (if rbit s a 0 then s else irq (rsetb s a 0 true) .fgpCtl n 3) n (ones len)
    else if fwd ∧ p.cs0Busy then drive (protoFlag s n 3 op ext) n (ones len)
    else
      let s := if fwd then forwardRead s n pa len (wrapLen p op).isSome else s
      if !ready then drive (protoFlag s n 2 op ext) n (ones len)
      else
        let (s, bs) := readData s n pa len src (wrapLen p op) inp
        let s := if fwd ∧ inp.under.any (· < len) then protoFlag s n 6 op ext else s
        drive s n bs

/-! ### Programs and erases (R113, R114, R92) -/

/-- A program or erase is forwarded to CS0, preceded by 0x06; in 8D-8D-8D it ends on the last whole 2-byte word (R92). -/
def forwardWrite (s : State) (n : Nat) (op : Nat) (fa : Nat) (data : Bytes) : State :=
  if driving s then
    let s := modPort s n fun p => { p with live := some { clearsWel := true, forwards := true, writes := true } }
    let whole := if rfld s (reg .fgpCtl n 0x04C) 2 0 = 4 then data.length / 2 * 2 else data.length
    flashOut (flashOut s n 0 0x06 0 0 []) n 0 op fa 0 (data.take whole)
  else s

/-- The flash opcode of a forwarded program (R91, R104): 0x34 or 0x3E in the quad modes while quad_prog is set, else 0x12. -/
def progOp (s : State) (n : Nat) : Nat :=
  let mode := rfld s (reg .fgpCtl n 0x04C) 2 0
  if mode ≥ 3 ∨ !rbit s (reg .fgpCtl n 0x04C) 14 then 0x12
  else if mode = 1 then 0x3E else 0x34

/-- The last reasons a program or erase that its window permits can be denied with, else it goes on (R113, R331, R55, R92). -/
def lastReasons (s : State) (n : Nat) : Option Nat :=
  if s.locked then some 13 else if s.tbLoss then some 10 else if (port s n).cs0Busy then some 14 else none

/-- A PROGRAM with WEL = 1, decided (R113). -/
def programCmd (s : State) (n : Nat) (op ext : Byte) (addr : Nat) (data : Bytes) : State :=
  let p := port s n
  let a := platAddr p op addr
  let odd := p.mode = .m8d ∧ (a % 2 = 1 ∨ data.length % 2 = 1)
  let s := if odd then protoFlag s n 7 op ext else s
  let no (r : Nat) (w : Option Nat) : State := deny s n .program op a r w
  if !p.st.deciding then no 9 none else
  match srcAt p a with
  | .denied 1 w => no 1 w
  | .denied r w => if odd then no 11 w else no r w
  | .resident w _ => if odd then no 11 (some w) else no 3 (some w)
  | .mailbox w d => if odd then no 11 (some w) else mbProgram s n op a (a - d.b * 4096) w data
  | .forward w d =>
    if odd then no 11 (some w)
    else if d.pol = 2 then no 3 (some w)
    else if !d.progOk then no 5 (some w)
    else if d.pol = 4 ∧ !bit (arms s n) w then no 4 (some w)
    else match lastReasons s n with
      | some r => no r (some w)
      | none => forwardWrite s n (progOp s n) (platFa p a) data

/-- An ERASE of `kib` KiB with WEL = 1, decided (R113, R114). -/
def eraseCmd (s : State) (n : Nat) (op : Byte) (addr kib : Nat) : State :=
  let p := port s n
  let a := platAddr p op addr
  let no (r : Nat) (w : Option Nat) : State := deny s n .erase op a r w
  if !p.st.deciding then no 9 none else
  match srcAt p a with
  | .denied r w => no r w
  | .resident w _ => no 3 (some w)
  | .mailbox w _ => no 8 (some w)
  | .forward w d =>
    let blks := kib / 4
    let lo := a / 4096 / blks * blks
    if d.pol = 2 then no 3 (some w)
    else if !d.eraseOk kib then no 6 (some w)
    else if lo < d.b ∨ d.l < lo + blks - 1 then no 7 (some w)
    else if d.pol = 4 ∧ !bit (arms s n) w then no 4 (some w)
    else match lastReasons s n with
      | some r => no r (some w)
      | none => forwardWrite s n (if kib = 4 then 0x21 else if kib = 32 then 0x5C else 0xDC) (platFa p a) []

/-- The command clears WEL when CS# rises, whatever becomes of it (R85). -/
def clearsWel (s : State) (n : Nat) : State := modPort s n fun p => { p with live := some { clearsWel := true } }

/-- A PROGRAM, ERASE or LATCH-CHECKED WRITE: ignored without error while WEL = 0, else `k` (R85, R113). -/
def ifWel (s : State) (n : Nat) (k : State → State) : State :=
  let s := clearsWel s n
  if (port s n).wel then k s else s

/-- The class is an erase of `kib` KiB. -/
def isErase (kib : Nat) : OpClass → Bool | .erase k => k == kib | _ => false
/-- The class is a latch-checked write. -/
def isLatch : OpClass → Bool | .latchWrite => true | _ => false
/-- The class is none of the address-bearing ones and no latch-checked write. -/
def isOther : OpClass → Bool | .other => true | _ => false

/-- An erase command of `kib` KiB with opcode `op`. -/
def erasePlat (s : State) (n : Nat) (op ext : Byte) (addr kib : Nat) : State :=
  platCmd s n op ext (isErase kib) fun _ s => ifWel s n fun s => eraseCmd s n op addr kib

/-- A register read: the byte repeated as the platform clocks it; one is recorded. -/
def regRead (s : State) (n : Nat) (op ext : Byte) (f : State → Byte) : State :=
  platCmd s n op ext isOther fun _ s => drive s n [f s]

/-! ### Synthesised registers (R85, R90, R99) -/

/-- The status register of 0x05 (R90). -/
def statusByte (s : State) (n : Nat) : Byte :=
  let p := port s n
  let pos := rfld s (reg .fgpCtl n 0x040) 13 11
  BitVec.ofNat 8 (b2n p.cs0Busy + 2 * b2n p.wel + (if p.errInd ∧ pos ≥ 2 then 2 ^ pos else 0))
/-- The flag status register of 0x70 (R85, R121). -/
def flagByte (s : State) (n : Nat) : Byte :=
  let p := port s n
  BitVec.ofNat 8 (128 * b2n (!p.cs0Busy) + 48 * b2n p.errInd)
/-- The identification bytes of 0x9F (R104); id_len 0 and 7 count as written (assumption log 124). -/
def idByte (s : State) (n i : Nat) : Byte :=
  if i < rfld s (reg .fgpCtl n 0x05C) 18 16 then
    (leBytes 4 (rget s (reg .fgpCtl n 0x058)).toNat ++
      leBytes 2 (rfld s (reg .fgpCtl n 0x05C) 15 0)).getD i 0
  else 0

/-- The Basic Flash Parameter Table (R99). -/
def bfpt (s : State) (n : Nat) : List Nat :=
  let eff := dummyEff (protoSet s n)
  let d1 := fld eff 9 5
  let d2 := fld eff 14 10
  let den := density s n
  let same := rbit s (reg .fgpCtl n 0x040) 4
  [0xFFEA2005, (if den ≤ 28 then 2 ^ (den + 3) - 1 else 0x80000000 + den + 3), 0x6B00EB00 + d1 * 2 ^ 16 + d2, 0,
   0xFFFFFFFE, 0x0000FFFF, 0xEB00FFFF + d2 * 2 ^ 16, 0x520F200C, 0x0000D810,
   (rget s (reg .fgpCtl n 0x060)).toNat, (rget s (reg .fgpCtl n 0x064)).toNat, 0x80000000, 0, 0x80000004, 0,
   0x01005000, 0, (if same then 0 else 0x20000000), 0, 0xFFFFFFFF]

/-- The xSPI Profile 1.0 table (R99).  The field positions are JESD216's: read opcode [15:8] and register-read dummies bit 28 of
DWORD 1, dummies at 200 MHz in DWORD 4 [11:7], at 166, 133 and 100 MHz in DWORD 5 [31:27], [21:17] and [11:7] (PRESUMED,
assumption log 13), as is the command extension's at bits [31:30] of DWORD 1, coded as in DWORD 18 of the Basic table. -/
def xspiTable (s : State) (n : Nat) : List Nat :=
  let same := rbit s (reg .fgpCtl n 0x040) 4
  let d := fld (dummyEff (protoSet s n)) 29 25
  let pf := (protoSet s n).pfreq
  let at_ (mhz : Nat) : Nat := if mhz ≤ pf then d else 0
  let all : Word := 0xFFFFFFFF
  [(setFld (setFld all 31 30 (if same then 0 else 1)) 15 8 0xEE).toNat, all.toNat, all.toNat, (setFld all 11 7 (at_ 200)).toNat,
   (setFld (setFld (setFld all 31 27 (at_ 166)) 21 17 (at_ 133)) 11 7 (at_ 100)).toNat, all.toNat]

/-- The SFDP space below 0xA8 (R99); every byte above reads 0xFF. -/
def sfdpBytes (s : State) (n : Nat) : Bytes :=
  [0x53, 0x46, 0x44, 0x50, 0x08, 0x01, 0x02, 0xFF, 0x00, 0x08, 0x01, 0x14, 0x30, 0x00, 0x00, 0xFF,
   0x84, 0x00, 0x01, 0x02, 0x80, 0x00, 0x00, 0xFF, 0x05, 0x00, 0x01, 0x06, 0x90, 0x00, 0x00, 0xFF] ++
  ones 16 ++ (bfpt s n).flatMap (leBytes 4) ++ leBytes 4 0x00008FF3 ++ leBytes 4 0xFFDC5C21 ++ ones 8 ++
  (xspiTable s n).flatMap (leBytes 4)

/-! ### Meanings: address-bearing commands -/

/-- PLATFORM_READ (R113). -/
def execPlatformRead (n : Nat) (op ext : Byte) (addr len : Nat) (inp : ReadIn) (s : State) :
    Host.Outcome State Fault Refusal :=
  done (platCmd s n op ext (fun c => match c with | .read _ => true | _ => false)
    fun _ s => readCmd s n op ext addr len inp.ready inp)

/-- LEGACY_READ (R95): 0x03 and 0x13 have no dummy cycles.  The port does not measure SCK: whatever the period, the read is served
where its first byte is ready and is late where it is not. -/
def execLegacyRead (n : Nat) (op : Byte) (addr len : Nat) (_slow : Bool) (inp : ReadIn) (s : State) :
    Host.Outcome State Fault Refusal :=
  done (if op ≠ 0x03 ∧ op ≠ 0x13 then s else
    platCmd1 s n op (fun c => match c with | .read _ => true | _ => false)
      fun _ s => readCmd s n op 0 addr len inp.ready inp)

/-- PAGE_PROGRAM (R113). -/
def execPageProgram (n : Nat) (op ext : Byte) (addr : Nat) (data : Bytes) (s : State) :
    Host.Outcome State Fault Refusal :=
  done (platCmd s n op ext (fun c => match c with | .program => true | _ => false)
    fun _ s => ifWel s n fun s => programCmd s n op ext addr data)

/-- ERASE_4K (R114). -/
def execErase4K (n : Nat) (op4 : Bool) (ext : Byte) (addr : Nat) (s : State) : Host.Outcome State Fault Refusal :=
  done (erasePlat s n (if op4 then 0x21 else 0x20) ext addr 4)
/-- ERASE_32K (R114). -/
def execErase32K (n : Nat) (op4 : Bool) (ext : Byte) (addr : Nat) (s : State) : Host.Outcome State Fault Refusal :=
  done (erasePlat s n (if op4 then 0x5C else 0x52) ext addr 32)
/-- ERASE_64K (R114). -/
def execErase64K (n : Nat) (op4 : Bool) (ext : Byte) (addr : Nat) (s : State) : Host.Outcome State Fault Refusal :=
  done (erasePlat s n (if op4 then 0xDC else 0xD8) ext addr 64)

/-! ### Meanings: the protocol level -/

/-- CHIP_ERASE (R85): denied with reason 12 while WEL = 1. -/
def execChipErase (n : Nat) (alt : Bool) (ext : Byte) (s : State) : Host.Outcome State Fault Refusal :=
  let op : Byte := if alt then 0xC7 else 0x60
  done (platCmd s n op ext isLatch fun _ s => ifWel s n fun s => deny s n .latch op 0 12 none)

/-- WRITE_ENABLE (R85, R121). -/
def execWriteEnable (n : Nat) (ext : Byte) (s : State) : Host.Outcome State Fault Refusal :=
  done (platCmd s n 0x06 ext isOther fun _ s => modPort s n fun p => { p with wel := true, errInd := false })
/-- WRITE_DISABLE (R85). -/
def execWriteDisable (n : Nat) (ext : Byte) (s : State) : Host.Outcome State Fault Refusal :=
  done (platCmd s n 0x04 ext isOther fun _ s => modPort s n fun p => { p with wel := false })
/-- READ_STATUS (R90). -/
def execReadStatus (n : Nat) (ext : Byte) (s : State) : Host.Outcome State Fault Refusal :=
  done (regRead s n 0x05 ext fun s => statusByte s n)
/-- READ_FLAG_STATUS (R85). -/
def execReadFlagStatus (n : Nat) (ext : Byte) (s : State) : Host.Outcome State Fault Refusal :=
  done (regRead s n 0x70 ext fun s => flagByte s n)
/-- READ_REGISTER_35 (R85). -/
def execReadRegister35 (n : Nat) (ext : Byte) (s : State) : Host.Outcome State Fault Refusal :=
  done (regRead s n 0x35 ext fun _ => 0x02)
/-- READ_REGISTER_15 (R85). -/
def execReadRegister15 (n : Nat) (ext : Byte) (s : State) : Host.Outcome State Fault Refusal :=
  done (regRead s n 0x15 ext fun _ => 0x00)
/-- READ_MODE (R88). -/
def execReadMode (n : Nat) (ext : Byte) (s : State) : Host.Outcome State Fault Refusal :=
  done (regRead s n 0x85 ext fun s => (port s n).mode.byte)
/-- READ_ID (R104). -/
def execReadId (n : Nat) (ext : Byte) (len : Nat) (s : State) : Host.Outcome State Fault Refusal :=
  done (platCmd s n 0x9F ext isOther fun _ s => drive s n ((List.range len).map (idByte s n)))
/-- READ_SFDP (R99): a 1S read whose first data is not ready is all-ones and sets sfdp_fast. -/
def execReadSfdp (n : Nat) (ext : Byte) (addr len : Nat) (ready : Bool) (s : State) :
    Host.Outcome State Fault Refusal :=
  done (platCmd s n 0x5A ext isOther fun p s =>
    if p.mode = .m1s ∧ !ready then drive (protoFlag s n 8 0x5A ext) n (ones len)
    else
      let a := if p.mode = .m1s then addr % 2 ^ 24 else addr % 2 ^ 32 / 2 * 2
      let t := sfdpBytes s n
      drive s n ((List.range len).map fun i => t.getD (a + i) 0xFF))
/-- SECURITY_ID_READ (R85): all ones. -/
def execSecurityIdRead (n : Nat) (unique : Bool) (len : Nat) (s : State) : Host.Outcome State Fault Refusal :=
  done (platCmd1 s n (if unique then 0x4B else 0x48) isOther fun _ s => drive s n (ones len))

/-- WRITE_STATUS (R85): the data is discarded; denied with reason 13 while LOCKED (R331). -/
def execWriteStatus (n : Nat) (ext : Byte) (_data : Bytes) (s : State) : Host.Outcome State Fault Refusal :=
  done (platCmd s n 0x01 ext isLatch fun _ s => ifWel s n fun s =>
    if s.locked then deny s n .latch 0x01 0 13 none else s)

/-- The mode a 0x81 write selects, none where R88 leaves the mode unchanged.  A write with no data byte or more than one selects none
(assumption log 114). -/
def modeSelected (s : State) (n addr : Nat) (data : Bytes) : Option PMode :=
  match data with
  | [b] =>
    (match PMode.ofByte b with
     | some m => if rbit s (reg .fgpCtl n 0x040) 5 ∧ addr = 0 ∧ (protoSet s n).permits m.code then some m else none
     | none => none)
  | _ => none

/-- WRITE_MODE (R88): one that would select a mode is denied with reason 13 while LOCKED (R113). -/
def execWriteMode (n : Nat) (ext : Byte) (addr : Nat) (data : Bytes) (s : State) : Host.Outcome State Fault Refusal :=
  done (platCmd s n 0x81 ext isLatch fun p s => ifWel s n fun s =>
    let a := platAddr p 0x81 addr
    match modeSelected s n a data with
    | some m => if s.locked then deny s n .latch 0x81 a 13 none else modPort s n fun p => { p with mode := m }
    | none => protoFlag s n 4 0x81 ext)

/-- SET_BURST_WRAP (R89). -/
def execSetBurstWrap (n : Nat) (data : Byte) (s : State) : Host.Outcome State Fault Refusal :=
  done (platCmd1 s n 0x77 isOther fun _ s =>
    if !rbit s (reg .fgpCtl n 0x040) 22 then s
    else modPort s n fun p =>
      { p with wrap := if data.getLsbD 4 then none else some (data.toNat / 32 % 4) })
/-- ENTER_4BYTE (R87). -/
def execEnter4Byte (n : Nat) (s : State) : Host.Outcome State Fault Refusal :=
  done (platCmd1 s n 0xB7 isOther fun _ s => modPort s n fun p => { p with addr4 := true })
/-- EXIT_4BYTE (R87). -/
def execExit4Byte (n : Nat) (s : State) : Host.Outcome State Fault Refusal :=
  done (platCmd1 s n 0xE9 isOther fun _ s => modPort s n fun p => { p with addr4 := false })
/-- RESET_ENABLE (R87). -/
def execResetEnable (n : Nat) (ext : Byte) (s : State) : Host.Outcome State Fault Refusal :=
  done (platCmd s n 0x66 ext isOther fun _ s => modPort s n fun p => { p with rstEn := true })
/-- PROTOCOL_RESET (R87): only immediately after 0x66. -/
def execProtocolReset (n : Nat) (ext : Byte) (s : State) : Host.Outcome State Fault Refusal :=
  done (platCmd s n 0x99 ext isOther fun p s => if p.rstEn then protoReset s n else s)
/-- PROTECTION_WRITE (R85): denied with reason 12 while WEL = 1. -/
def execProtectionWrite (n : Nat) (op : Byte) (s : State) : Host.Outcome State Fault Refusal :=
  done (if op ∉ ([0x42, 0x44, 0x36, 0x39, 0x7E, 0x98] : Bytes) then s else
    platCmd1 s n op isLatch fun _ s => ifWel s n fun s => deny s n .latch op 0 12 none)
/-- NO_OP_COMMAND (R85). -/
def execNoOpCommand (n : Nat) (op ext : Byte) (s : State) : Host.Outcome State Fault Refusal :=
  done (if op ∉ ([0x75, 0x7A, 0xB0, 0x30, 0xB9, 0xAB] : Bytes) then s else
    platCmd s n op ext isOther fun _ s => s)
/-- UNSUPPORTED_OPCODE (R86): an opcode the mode supports is another command, and this one then does nothing. -/
def execUnsupportedOpcode (n : Nat) (op ext : Byte) (s : State) : Host.Outcome State Fault Refusal :=
  done (if (opClass (port s n).mode op).isSome then s else platCmd s n op ext (fun _ => false) fun _ s => s)

/-! ### Meanings: the end of a command and the flash side's own events -/

/-- PLATFORM_CS_DEASSERT (R85, R92, R112, R120, R125). -/
def execPlatformCsDeassert (n : Nat) (s : State) : Host.Outcome State Fault Refusal :=
  done (if portOn s n then csRise s n else s)

/-- CS0 busy ends. -/
def busyEnds (s : State) (n : Nat) : State :=
  modPort (tstop (tstop s (.busyPoll n)) (.busyMax n)) n fun p => { p with cs0Busy := false }

/-- BUSY_POLL (R92): the 2 µs poll, while the flash side carries no forwarded command; busy ends when WIP reads 0. -/
def execBusyPoll (n : Nat) (wip : Bool) (s : State) : Host.Outcome State Fault Refusal :=
  done (if !portOn s n ∨ !(port s n).cs0Busy ∨ (port s n).live.any (·.forwards) then s else
    fire s (.busyPoll n) fun s =>
      let s := flashOut s n 0 0x05 0 1 []
      if wip then tset s (.busyPoll n) 200 else busyEnds s n)

/-- CS0_BUSY_TIMEOUT (R92, R121): busy ends, busy_timeout and the error indication are set, and 0x0E05 is reported. -/
def execCs0BusyTimeout (n : Nat) (s : State) : Host.Outcome State Fault Refusal :=
  done (if !portOn s n ∨ !(port s n).cs0Busy then s else
    fire s (.busyMax n) fun s =>
      let a := reg .fgpCtl n 0x06C
      let s := modPort (busyEnds s n) n fun p => { p with errInd := true }
      let s := if rbit s a 5 then s else irq (rsetb s a 5 true) .fgpCtl n 8
      report s .fgpCtl n 0x0E05 0 0)

/-- FLASH_RESET_PULSE_END (R98): Fn_RST_N goes high, and 50 µs without flash accesses follow. -/
def execFlashResetPulseEnd (n : Nat) (s : State) : Host.Outcome State Fault Refusal :=
  done (if portOn s n then fire s (.rstPulse n) fun s => tset s (.rstQuiet n) (us 50) else s)

/-- FLASH_RESET_QUIET_END (R98): flash-side accesses may start, and with them a recovery copy's first unit, unless LOCKED stops
it (R169, R188). -/
def execFlashResetQuietEnd (n : Nat) (s : State) : Host.Outcome State Fault Refusal :=
  done (if portOn s n then fire s (.rstQuiet n) fun s =>
      modPort s n fun p => if p.seq = .copy then { p with unitOn := !s.locked } else p
    else s)

end Sys2Proof.Machine
end

