-- ==== Sys2Proof/Machine/PortCmd.lean ====
section
/-! DEFINITION. Machine/PortCmd.lean: port commands and the sequences they start (R167 to R171), what a manifest check's result
starts, and what a write to an FGP, VST or DU register does. -/
namespace Sys2Proof.Machine

/-- A counter raise of port `n` has ended: counter and floor `op` (R176, R186).  One left over from an earlier sequence is not
the sequence's own. -/
def portRaised (s : State) (n : Nat) (op : Nat × Nat) (ok : Bool) : State :=
  let p := port s n
  match p.seq with
  | .raising (head :: rest) =>
    if head ≠ op then raiseNext s n
    else if !ok then
      (if p.act then cmdEnd (enterHeld s n) n 0x0E40 else configFail s n 0x0E40)
    else if p.act ∧ p.hold then cmdEnd (enterHeld s n) n 0
    else if rest = [] then
      (if p.act then flipReady (setPort s n { p with seq := .raising [] }) n else startTreeLoad s n)
    else raiseNext (setPort s n { p with seq := .raising rest }) n
  | _ => s

/-- The counter raises of a sequence start, or are passed over where there are none. -/
def startRaises (s : State) (n : Nat) (es : List ManEntry) : State :=
  raiseNext (modPort s n fun p =>
    { p with seq := .raising (es.map fun e => (4 + 4 * n + e.image, e.floor)) }) n

/-! ### Manifest check results (R167, R177, R184, R188) -/

/-- The MEASURE job of port `n` ended with a code, or was accepted (R167, R176, R181). -/
def measureResult (s : State) (n code : Nat) (m : Manifest) (raise : Bool) : State :=
  if code ≠ 0 then seqFail s n code
  else
    let s := measureMan (modPort s n fun p => { p with trees := contextsOf m, man := some m }) n m
    if raise then startRaises s n m.entries else startTreeLoad s n

/-- The STAGE job of port `n` ended: the staged result, or none (R184). -/
def stageResult (s : State) (n code : Nat) (m : Manifest) : State :=
  modPort s n fun p => { p with staged := if code = 0 then some m else none }

/-- The GOLDEN job of port `n` ended with a code, or was accepted (R167, R188). -/
def goldenResult (s : State) (n code start : Nat) (m : Manifest) (g : Golden) : State :=
  if code ≠ 0 then seqFail s n code
  else
    let s := modPort s n fun p => { p with trees := contextsOf m, golden := some g, cache := [] }
    let s := rset s (reg .fgpCtl n 0x0A8) (setFld (mk 15 0 start) 31 16 g.length)
    startTreeLoad s n

/-- The copy starts: Fn_RST_N is pulsed, and the first unit waits for the pulse and the 50 µs after it (R98, R188). -/
def startCopy (s : State) (n : Nat) : State :=
  pulseFlashReset (modPort s n fun p => { p with seq := .copy, unitOn := false, own := [] }) n

/-- Recovery ends at the origin state after a HOLD (R167). -/
def recoveryHeld (s : State) (n : Nat) : State :=
  if (port s n).origin = .held then cmdEnd (enterHeld s n) n 0
  else cmdEnd (modPort (toState (dropWork s n) n .quarantined) n fun p => { p with golden := none }) n 0

/-! ### Port commands (R167 to R171) -/

/-- A port command is refused (R168); the store reports its own codes too (R166). -/
def refuseCmd (s : State) (n cmd code : Nat) : State :=
  let s := if 0x0F01 ≤ code ∧ code ≤ 0x0F03 then report s .vst 0 code 0 0 else s
  cmdResult (report s .fgpCtl n code 0x084 1) n cmd code

/-- The checks of R170, in order, for MEASURE, or with the CS1 check for RECOVER. -/
def startBad (s : State) (n : Nat) (recover : Bool) : Option Nat :=
  let p := protoSet s n
  let code := rfld s (reg .fgpWin n 0x040) 15 0
  if recover ∧ !rbit s (reg .fgpCtl n 0x04C) 3 then some 0x0E3C
  else if code ≠ 0 then some code
  else if !lineRateOk p then some 0x0E01
  else if !dummyOk p then some 0x0E06
  else frameRangesBad s n

/-- HOLD accepted (R168, R171, R186, R189): at once, or at the sequence's next point. -/
def holdPort (s : State) (n : Nat) : State :=
  let p := port s n
  let s := if cmdBusy s n then rsetf s (reg .fgpCtl n 0x088) 19 16 3 else cmdResult s n 3 0
  let later : Bool := match p.seq with
    | .raising _ => p.act && s.cstOps.any fun o => o.req == .port n
    | .treeLoad => p.act
    | .fill _ _ _ => p.act
    | .copy => true
    | _ => false
  if p.st = .held then s
  else if later ∧ (p.seq ≠ .copy ∨ p.unitOn) then setPort s n { p with hold := true }
  else if p.st = .recovering then recoveryHeld s n
  else cmdEnd (enterHeld s n) n 0

/-- The windows of port `n` that may be armed: those FGPn_ARM_MASK names whose latched window is WRITE-ARMED (R116). -/
def armable (s : State) (n : Nat) : Word :=
  let p := port s n
  let armed : Word := (List.range 32).foldl
    (fun w i => setFld w i i (b2n (p.inForce && (match p.latched with
      | some l => (match l.wins[i]? with | some d => decide (d.pol = 4) | none => false)
      | none => false)))) 0
  rget s (reg .fgpWin n 0x048) &&& armed

/-- Bits of FGPn_ARM that are no longer permitted clear (R116). -/
def trimArms (s : State) (n : Nat) : State := rset s (reg .fgpWin n 0x044) (arms s n &&& armable s n)

/-- RELEASE from RELEASE_PENDING: 0x0E15 and 0x0E17 re-checked, the latched set copied, RUNNING, and the release sequence
(R128, R167, R179). -/
def releasePort (s : State) (n : Nat) : State :=
  let code := fld (checkNow s n) 15 0
  if code = 0x0E15 ∨ code = 0x0E17 then refuseCmd s n 2 code
  else
    let l := latchNow s n
    let s := modPort s n fun p => { p with latched := some l, inForce := true, sel := bit l.abCtrl 8 }
    let en : Word := (List.range 32).foldl
      (fun w i => setFld w i i (b2n (match l.wins[i]? with | some d => d.on | none => false))) 0
    startRelease (cmdStart (toState (trimArms (rset s (reg .fgpWin n 0x04C) en) n) n .running) n 2) n

/-- A write of command code `cmd` to FGPn_CMD (R167, R168). -/
def portCommand (s : State) (n cmd : Nat) : State :=
  let p := port s n
  let no (code : Nat) : State := refuseCmd s n cmd code
  if cmd = 0 ∨ cmd > 7 then no 0x0E1B
  else if cmdBusy s n ∧ cmd ≠ 3 then no 0x0E3A
  else if s.locked ∧ cmd ≠ 3 then no 0x0E41
  else match cmd, p.st with
    | 1, .held =>
      (match startBad s n false with
       | some code => no code
       | none =>
         let s := clearMan (claimFrames s n) n
         let s := modPort s n fun p =>
           { p with sel := bit (abCtrl s n) 8, seq := .waitJob, fillCount := 0, fillFold := zeros 8 }
         cmdStart (toState s n .measuring) n 1)
    | 2, .releasePending => releasePort s n
    | 2, .updateStaged => cmdResult (modPort (toState s n .running) n fun p => { p with staged := none }) n 2 0
    | 3, .quarantined => no 0x0E39
    | 3, _ => holdPort s n
    | 4, .running => cmdResult (modPort (toState s n .updateStaged) n fun p => { p with staged := none }) n 4 0
    | 5, .updateStaged =>
      if p.staged.isNone then no 0x0E3B
      else cmdStart (modPort (holdPins s n) n fun p =>
        { p with seq := .actQuiesce, act := true, next := p.staged }) n 5
    | 6, .held =>
      (match startBad s n true with
       | some code => no code
       | none =>
         let s := claimFrames s n
         let s := modPort s n fun p =>
           { p with sel := bit (abCtrl s n) 8, seq := .waitJob, origin := .held, golden := none, recBase := 0 }
         cmdStart (toState s n .recovering) n 6)
    | 6, .quarantined =>
      (match startBad s n true with
       | some code => no code
       | none =>
         let s := modPort s n fun p => { p with seq := .waitJob, origin := .quarantined, golden := none, recBase := 0 }
         cmdStart (toState s n .recovering) n 6)
    | 7, .quarantined => cmdResult (enterHeld s n) n 7 0
    | _, _ => no 0x0E39

/-- The sequences of port `n` that stopped at a step boundary go on when LOCKED ends (R169, R191): counter raises, the release
sequence of an activation, the copy's next unit. -/
def portUnlocked (s : State) (n : Nat) : State :=
  let s := raiseNext s n
  let s := if (port s n).seq = .relD1 ∧ (tget s (.relD1 n)).isNone then startRelease s n else s
  let waits : Bool := (tget s (.rstPulse n)).isSome || (tget s (.rstQuiet n)).isSome
  modPort s n fun p => if p.seq = .copy ∧ !waits then { p with unitOn := true } else p

/-! ### Register writes (R104, R116, R125, R127, R163, R165) -/

/-- A write to a register of the latched set has been stored: the configuration check is evaluated (R128). -/
def recheck (s : State) (n : Nat) : State := rset s (reg .fgpWin n 0x040) (checkNow s n)

/-- A write to a register of the latched set (R127). -/
def latchedWrite (n : Nat) (c : WCtx) (s : State) : State :=
  if (port s n).st ≠ .held then
    refuseW s (if c.off / 4096 % 4 = 0 then .fgpCtl else .fgpWin) n 0x0E10 c
  else recheck (storeW s c) n

/-- What a stored protocol set reports (R93, R94, R105). -/
def protoReport (s : State) (n : Nat) (c : WCtx) (rate : Bool) : State :=
  let p := protoSet s n
  let s := if rate ∧ !lineRateOk p then refuseW s .fgpCtl n 0x0E01 c else s
  if !dummyOk p then refuseW s .fgpCtl n 0x0E06 c else s

/-- A write to a register of the protocol set (R93, R94, R96, R105, R127). -/
def protocolWrite (n : Nat) (c : WCtx) (s : State) : State :=
  let o := c.off % 4096
  let no (code : Nat) : State := refuseW s .fgpCtl n code c
  if (port s n).st ≠ .held then no 0x0E10
  else if c.locked then s
  else if o = 0x040 then
    (match protoCfgBad c.new with
     | some code => no code
     | none => protoReport (recheck (storeW s c) n) n c true)
  else if o = 0x04C then
    (match flashCfgBad (protoSet s n).m c.new with
     | some code => no code
     | none => protoReport (storeW s c) n c true)
  else if o = 0x054 then
    (match fsckBad (protoSet s n).flashMode c.new with
     | some code => no code
     | none => protoReport (storeW s c) n c true)
  else if o = 0x050 then protoReport (storeW s c) n c false
  else storeW s c

/-- A STAGE job bound to port `n` is ended with 0x0E38 (R184). -/
def endStage (s : State) (n : Nat) : State :=
  { s with jobs := s.jobs.map fun e =>
      if boundTo e.2 n ∧ fieldLe e.2.desc 0x35 1 = 1 then (e.1, { e.2 with early := 0x0E38 }) else e }

/-- A write to FGPn_ARM: a bit can be 1 only where the mask permits it and the latched window is WRITE-ARMED; setting any
bit discards a staged result (R116, R184). -/
def armWrite (n : Nat) (c : WCtx) (s : State) : State :=
  let ok := armable s n
  let v := c.new &&& ok
  let s := rset s c.off v
  let s := if v ≠ 0 then endStage (modPort s n fun p => { p with staged := none }) n else s
  if c.new &&& ~~~ok ≠ 0 then refuseW s .fgpWin n 0x0E1A c else s

/-- A write to FGPn_MB_RSP_CTRL (R125): an accepted publish takes effect at once while Pn_CS_N is deasserted.  Without publish = 1
the write does nothing, whatever its len; a second publish while the first still waits replaces it (assumption log 114). -/
def publishWrite (n : Nat) (c : WCtx) (s : State) : State :=
  if !bit c.data 31 then s
  else if fld c.data 16 8 > 256 ∨ (port s n).mbState ≠ 1 then refuseW s .fgpMb n 0x0E19 c
  else
    let s := modPort s n fun p => { p with pub := some (fld c.data 7 0, fld c.data 16 8) }
    if (port s n).live.isNone then publishNow s n else s

/-- Writes to the control page of port `n`. -/
def fgpCtlWrite (n : Nat) (c : WCtx) (s : State) : State :=
  match c.off % 4096 with
  | 0x040 => protocolWrite n c s
  | 0x044 => protocolWrite n c s
  | 0x04C => protocolWrite n c s
  | 0x050 => protocolWrite n c s
  | 0x054 => protocolWrite n c s
  | 0x084 => portCommand s n (fld c.data 3 0)
  | 0x08C => latchedWrite n c s
  | 0x090 => latchedWrite n c s
  | 0x094 => latchedWrite n c s
  | 0x09C => latchedWrite n c s
  | _ => storeW s c

/-- Writes to the window page of port `n`. -/
def fgpWinWrite (n : Nat) (c : WCtx) (s : State) : State :=
  if c.off % 4096 = 0x044 then armWrite n c s
  else if c.off % 4096 = 0x048 then trimArms (storeW s c) n
  else if 0x100 ≤ c.off % 4096 then latchedWrite n c s
  else storeW s c

/-- Writes to the mailbox page of port `n`. -/
def fgpMbWrite (n : Nat) (c : WCtx) (s : State) : State :=
  if c.off % 4096 = 0x04C then publishWrite n c s else storeW s c

/-- Writes to the digest-unit page (R165). -/
def duWrite (c : WCtx) (s : State) : State :=
  let o := c.off % 4096
  if 0x100 ≤ o ∧ o < 0x200 then
    let n := (o - 0x100) / 16
    if (port s n).st ≠ .held then refuseW s .du 0 0x1007 c
    else if o % 16 = 0 ∧ !c.locked ∧ fld c.new 1 0 > 1 then refuseW s .du 0 0x1008 c
    else storeW s c
  else storeW s c

/-- Writes to the store control page (R163): scrubbing runs in every powered bank while scrub_en is 1. -/
def vstWrite (c : WCtx) (s : State) : State :=
  let s' := storeW s c
  if c.off % 4096 ≠ 0x040 then s' else
  (List.range s.part.banks).foldl (fun s k =>
    if !bit c.new 0 ∨ !domOn s (16 + k) then tstop s (.scrub k)
    else if (tget s (.scrub k)).isSome then s
    else tset s (.scrub k) (us (max 1 (fld c.new 19 4)))) s'

/-- The word a diagnostic read of VST_DIAG_DATA returns, and what it does (R163); `ecc` is what the read meets. -/
def vstDiag (s : State) (ecc : EccRes) : State × Word :=
  let f := rfld s (reg .vst 0 0x054) 14 0
  let w := rfld s (reg .vst 0 0x05C) 11 2
  let fr := frame s f
  if fr.st ≠ .valid ∨ f ≥ s.part.frames then (report s .vst 0 0x0F04 0x060 1, 0) else
  let word := wordAtLe fr.data w
  match ecc with
  | .clean => (s, word)
  | .corrected _ => (eccNote s f (w / 2) 3 false, word)
  | .uncorrectable _ => (eccScrub (eccNote s f (w / 2) 3 true) f, 0)

/-! ### Meanings -/

/-- RESPONSE_VISIBLE (R125): Pn_CS_N is deasserted and the accepted publish takes effect. -/
def execResponseVisible (n : Nat) (s : State) : Host.Outcome State Fault Refusal :=
  done (if portOn s n ∧ (port s n).live.isNone then publishNow s n else s)

/-- RELEASE_D1_EXPIRY (R179). -/
def execReleaseD1Expiry (n : Nat) (s : State) : Host.Outcome State Fault Refusal :=
  done (if portOn s n then relD1Ends s n else s)
/-- RELEASE_D2_EXPIRY (R179). -/
def execReleaseD2Expiry (n : Nat) (s : State) : Host.Outcome State Fault Refusal :=
  done (if portOn s n then relD2Ends s n else s)

/-- ACTIVATION_QUIESCED (R186): Pn_CS_N is deasserted and no block is open, so the counter raises start, then the flip; a
LOCKED device stops before them (R191). -/
def execActivationQuiesced (n : Nat) (s : State) : Host.Outcome State Fault Refusal :=
  done (
    let p := port s n
    if !portOn s n ∨ p.seq ≠ .actQuiesce ∨ p.live.isSome ∨ p.blocks ≠ [] ∨ s.locked then s
    else match p.next with
      | none => s
      | some m => if m.entries = [] then flipSides s n else startRaises s n m.entries)

end Sys2Proof.Machine
end

