-- ==== Sys2Proof/Machine/PortOwn.lean ====
section
/-! DEFINITION. Machine/PortOwn.lean: the port's own accesses to its flash (R28, R29, R97) and the commands that end them: leaf
fetches, tree loads, fills, refills, and golden recovery (R188, R189). -/
namespace Sys2Proof.Machine

/-! ### Golden blocks (R188) -/

/-- One verified block of the copy region: window, block, region block index, image and leaf. -/
structure GoldBlk where
  win : Nat
  blk : Nat
  idx : Nat
  image : Nat
  leaf : Nat
  deriving DecidableEq, Repr

/-- The verified blocks of the copy region, in window and address order. -/
def goldenBlocks (s : State) (n : Nat) (g : Golden) : List GoldBlk :=
  let base := flashAddr s n (port s n).sel g.dest / 4096
  let ws := wins s n
  (List.range ws.length).flatMap fun w =>
    match ws[w]? with
    | none => []
    | some d =>
      if !d.verified then [] else
      (List.range (d.l + 1 - d.b)).filterMap fun i =>
        let fb := flashAddr s n (port s n).sel ((d.b + i) * 4096) / 4096
        if base ≤ fb ∧ fb < base + g.length then some ⟨w, d.b + i, fb - base, d.img, d.lf + i⟩ else none

/-- The CS1 address of region block `b`: cs1_base with the block's place in the region (R174). -/
def goldFa (g : Golden) (b : Nat) : Nat := (g.cs1Base + 4096 * b) % 2 ^ 32
/-- The CS0 address the copy writes region block `b` to. -/
def copyFa (s : State) (n : Nat) (g : Golden) (b : Nat) : Nat :=
  (flashAddr s n (port s n).sel g.dest + 4096 * b) % 2 ^ 32

/-! ### The accesses of each purpose, in order, as chip select, address and length -/

/-- The reads of verified golden blocks: the leaf pair where it is not cached by then, and the block. -/
def goldReads (p : Port) (g : Golden) : List GoldBlk → List (Nat × Nat × Nat)
  | [] => []
  | v :: vs =>
    let c : CachePair := (cachedPair p v.image v.leaf).getD ⟨v.image, v.leaf / 2, zeros 64, zeros 64⟩
    let pair : List (Nat × Nat × Nat) :=
      if (cachedPair p v.image v.leaf).isSome then []
      else match treeOf p v.image with
        | some t => [(1, pairAt t v.leaf)]
        | none => []
    pair ++ (1, goldFa g v.idx, 4096) :: goldReads (cachePut p c) g vs

/-- The accesses a purpose still has to make from its start.  Those of the copy are the reads of a unit's first block; its others
wait for what is programmed before them. -/
def ownReads (s : State) (n : Nat) (k : Own) : List (Nat × Nat × Nat) :=
  let p := port s n
  let cs := if p.st = .recovering then 1 else 0
  match k with
  | .leaf => (p.leafReqs.take 1).filterMap fun r => (treeOf p r.image).map fun t => (cs, pairAt t r.leaf)
  | .tree => if p.seq = .treeLoad then (treesToLoad s n).map fun t => (cs, t.addr, dttLen t.leaves) else []
  | .fill => match p.seq with | .fill _ blk _ => [(0, flashAddr s n p.sel (blk * 4096), 4096)] | _ => []
  | .refill => if p.st.refills ∧ !p.filling then (p.refills.take 1).map fun f => (0, frameFa s n f, 4096) else []
  | .warm => (p.warm.take 1).map fun a => (0, a)
  | .verify =>
    if p.seq = .goldenVerify then
      (match p.golden with | some g => goldReads p g (goldenBlocks s n g) | none => []) else []
  | .copy =>
    if p.seq = .copy ∧ p.unitOn then
      (match p.golden with
       | some g =>
         let b := rfld s (reg .fgpCtl n 0x0A8) 15 0
         (match (goldenBlocks s n g).find? fun v => decide (v.idx = b) with
          | some v => goldReads p g [v]
          | none => [(1, goldFa g b, 4096)])
       | none => []) else []

/-- The order of R29 among the purposes beside block completion, which comes after the first two. -/
def Own.rank : Own → Nat
  | .leaf => 0 | .tree => 0 | .fill => 2 | .refill => 2 | .warm => 2 | .verify => 3 | .copy => 3
/-- The purposes, in the order of R29. -/
def Own.all : List Own := [.leaf, .tree, .fill, .refill, .warm, .verify, .copy]

/-- A purpose has an access to make that is not received yet. -/
def ownPending (s : State) (n : Nat) (k : Own) : Bool := decide ((ownAt (port s n) k).1 < (ownReads s n k).length)
/-- Work of a higher place in the order waits for the flash side (R29). -/
def ownBehind (s : State) (n rank : Nat) : Bool :=
  (Own.all.any fun k => decide (k.rank < rank) && ownPending s n k) ||
  (decide (1 < rank) && (completing (port s n)).isSome)
/-- The accesses of a purpose can end now: they have been received, or the flash side is free for the rest of them and no higher
work waits; and a hash lane takes the work they bring (R29, R32, R40). -/
def ownEnds (s : State) (n cs : Nat) (k : Own) : Bool :=
  portOn s n && driving s && (flashLane s).isSome &&
  (!ownPending s n k || (ownSide s n cs && !ownBehind s n k.rank))

/-- The accesses of a list not yet made are driven, the first from the byte after the last one received. -/
def driveFrom (s : State) (n got : Nat) : List (Nat × Nat × Nat) → State
  | [] => s
  | (cs, a, l) :: t => driveFrom (ownRead s n cs (a + got) (l - got)) n 0 t
/-- The first `m` accesses of a purpose have been received. -/
def ownTo (s : State) (n : Nat) (k : Own) (m : Nat) : State :=
  let (i, got) := ownAt (port s n) k
  if m ≤ i then s else ownPut (driveFrom s n got (((ownReads s n k).take m).drop i)) n k (m, 0)
/-- All accesses of a purpose have been received. -/
def ownWhole (s : State) (n : Nat) (k : Own) : State := ownTo s n k (ownReads s n k).length
/-- One access made in the course of a sequence: driven, unless it has been received already. -/
def ownNext (s : State) (n : Nat) (k : Own) (cs a l : Nat) : State :=
  let (i, got) := ownAt (port s n) k
  if 0 < i then ownPut s n k (i - 1, got) else ownPut (ownRead s n cs (a + got) (l - got)) n k (0, 0)

/-! ### Issue (R28, R29) -/

/-- The next access of a purpose is issued or resumed, and `data` bytes of it received before a forwarded command ends it at a byte
boundary. -/
def ownIssue (s : State) (n : Nat) (k : Own) (data : Bytes) : State :=
  let (i, got) := ownAt (port s n) k
  match (ownReads s n k)[i]? with
  | none => s
  | some (cs, a, l) =>
    if !ownSide s n cs then s else
    let s := ownRead s n cs (a + got) (l - got)
    let got := min l (got + data.length)
    let s := ownPut s n k (if got = l then (i + 1, 0) else (i, got))
    match k with
    | .refill => (match (port s n).refills with | f :: _ => setFrame s f { frame s f with st := .filling } | [] => s)
    | .warm => if got = l then ownClear (modPort s n fun p => { p with warm := p.warm.drop 1 }) n .warm else s
    | _ => s

/-- 0x06, an erase or a program on CS0, and the busy poll that ends it (R92, R188). -/
def driveWrite (s : State) (n op fa : Nat) (data : Bytes) : State :=
  flashOut (flashOut (flashOut s n 0 0x06 0 0 []) n 0 op fa 0 data) n 0 0x05 0 1 []

/-- The unit's erase, unless it has been made (R188). -/
def eraseUnit (s : State) (n : Nat) (g : Golden) : State :=
  if (port s n).own.any (·.1 == .copy) then s
  else ownPut (driveWrite s n 0xDC (copyFa s n g (rfld s (reg .fgpCtl n 0x0A8) 15 0)) []) n .copy (0, 0)

/-- OWN_ACCESS_ISSUE (R28, R29): the first pending work in the order of R29 is issued or resumed.  A block completion takes the bytes it
returns; the other accesses end in their own commands. -/
def execOwnAccessIssue (n : Nat) (data : Bytes) (s : State) : Host.Outcome State Fault Refusal :=
  done (if !flashQuiet s n ∨ !driving s then s else
    if ownPending s n .leaf then ownIssue s n .leaf data
    else if ownPending s n .tree then ownIssue s n .tree data
    else match completing (port s n) with
      | some b =>
        let at_ := b.comp.getD b.ptr
        if flashFree s n then completeWith (ownRead s n 0 (b.fa + at_) (4096 - at_)) n b data else s
      | none =>
        match Own.all.find? (ownPending s n) with
        | none => s
        | some .copy =>
          (match (port s n).golden with
           | some g => if flashFree s n then ownIssue (eraseUnit s n g) n .copy data else s
           | none => s)
        | some k => ownIssue s n k data)

/-! ### Leaf fetches, tree loads, fills and refills end -/

/-- LEAF_FETCH_DONE (R144). -/
def execLeafFetchDone (n : Nat) (data : Bytes) (ecc : EccRes) (s : State) : Host.Outcome State Fault Refusal :=
  done (
    let cs := if (port s n).st = .recovering then 1 else 0
    if ownReads s n .leaf = [] ∨ !ownEnds s n cs .leaf then s
    else leafFetched (flashHash (ownWhole s n .leaf) 2) n data ecc)

/-- FILL_BLOCK_DONE (R146). -/
def execFillBlockDone (n : Nat) (data : Bytes) (s : State) : Host.Outcome State Fault Refusal :=
  done (if ownReads s n .fill = [] ∨ !ownEnds s n 0 .fill then s
    else fillBlock (flashHash (ownWhole s n .fill) 33) n data)

/-- REFILL_DONE (R147). -/
def execRefillDone (n : Nat) (data : Bytes) (s : State) : Host.Outcome State Fault Refusal :=
  done (if ownReads s n .refill = [] ∨ !ownEnds s n 0 .refill then s
    else refillRead (flashHash (ownWhole s n .refill) 33) n data)

/-- TREE_LOAD_DONE (R142): the DTTs are read in order, up to the first that fails; their nodes are hashed on the flash path. -/
def execTreeLoadDone (n : Nat) (dtts : List Bytes) (s : State) : Host.Outcome State Fault Refusal :=
  done (
    let cs := if (port s n).st = .recovering then 1 else 0
    if (port s n).seq ≠ .treeLoad ∨ !ownEnds s n cs .tree then s else
    let ts := treesToLoad s n
    let good := ((List.range ts.length).takeWhile fun i =>
      match ts[i]? with | some t => (dttBad (dtts.getD i []) t).isNone | none => false).length
    let read := min ts.length (good + 1)
    let nodes := ((ts.take read).map fun t => ((treeSizes t.leaves).drop 1).foldl (· + ·) 0).foldl (· + ·) 0
    treeLoadEnds (ownClear (flashHash (ownTo s n .tree read) (2 * nodes)) n .tree) n dtts)

/-! ### Golden verification and the copy (R188, R189) -/

/-- The leaf of a golden block, from the node cache or by a leaf fetch from CS1; none where the fetch has failed its check (R144). -/
def goldLeaf (s : State) (n : Nat) (k : Own) (g : Golden) (v : GoldBlk) (b : BlkRead) : State × Option Bytes :=
  let s := needLeaf s n ⟨v.image, v.leaf, goldFa g v.idx, v.win⟩
  let s := match (port s n).leafReqs, treeOf (port s n) v.image with
    | _ :: _, some t =>
      let a := pairAt t v.leaf
      leafFetched (flashHash (ownNext s n k 1 a.1 a.2) 2) n b.pair b.ecc
    | _, _ => s
  (s, if (port s n).st = .recovering then cachedLeaf (port s n) v.image v.leaf else none)

/-- A golden block is read, and where it is verified checked against its leaf, once more on a mismatch: the bytes, none where the
check has failed (R188). -/
def goldBlock (s : State) (n : Nat) (k : Own) (g : Golden) (idx : Nat) (v : Option GoldBlk) (b : BlkRead) :
    State × Option Bytes :=
  let fa := goldFa g idx
  let d1 := sliceZ b.d1 0 4096
  let d2 := sliceZ b.d2 0 4096
  match v with
  | none => (ownNext s n k 1 fa 4096, some d1)
  | some v =>
    match goldLeaf s n k g v b with
    | (s, none) => (s, none)
    | (s, some want) =>
      let s := flashHash (ownNext s n k 1 fa 4096) 33
      if sha512 d1 = want then (s, some d1)
      else
        let s := flashHash (ownRead s n 1 fa 4096) 33
        if sha512 d2 = want then (s, some d2) else (seqFail s n 0x0E3E, none)

/-- Golden verification over the verified blocks and their reads; true where every block has passed. -/
def goldVerify (n : Nat) (g : Golden) : List GoldBlk → List BlkRead → State → State × Bool
  | [], _, s => (s, true)
  | v :: vs, bs, s =>
    match goldBlock s n .verify g v.idx (some v) (bs.headD ⟨[], [], [], .clean⟩) with
    | (s, none) => (s, false)
    | (s, some _) => goldVerify n g vs (bs.drop 1) s

/-- GOLDEN_VERIFY_DONE (R188). -/
def execGoldenVerifyDone (n : Nat) (blks : List BlkRead) (s : State) : Host.Outcome State Fault Refusal :=
  done (
    let p := port s n
    if p.seq ≠ .goldenVerify ∨ !ownEnds s n 1 .verify then s
    else match p.golden with
      | none => s
      | some g =>
        let vs := goldenBlocks s n g
        if blks.length < vs.length then s
        else match goldVerify n g vs blks s with
          | (s, true) => startCopy s n
          | (s, false) => s)

/-- A busy poll of the recovery copy exceeded busy_max (R92, R188). -/
def copyBusyFail (s : State) (n : Nat) : State :=
  let a := reg .fgpCtl n 0x06C
  let s := modPort s n fun p => { p with errInd := true }
  let s := if rbit s a 5 then s else irq (rsetb s a 5 true) .fgpCtl n 8
  quarantine (report s .fgpCtl n 0x0E05 0 0) n 0x0E05

/-- The sixteen pages of a block are programmed at flash address `fa`; `op` is the first one's number in the unit and `busyAt` the
write whose busy poll exceeds busy_max.  False where one did. -/
def progPages (n fa op : Nat) (busyAt : Option Nat) (data : Bytes) : Nat → Nat → State → State × Bool
  | 0, _, s => (s, true)
  | k + 1, i, s =>
    let s := driveWrite s n (progOp s n) (fa + 256 * i) (sliceZ data (256 * i) 256)
    if busyAt = some (op + i) then (copyBusyFail s n, false) else progPages n fa op busyAt data k (i + 1) s

/-- The blocks of a unit from its block `i` on: each read, checked, programmed and read back (R188).  Answers whether a read-back
differed; none where the copy has failed. -/
def copyBlocks (n : Nat) (g : Golden) (b op : Nat) (busyAt : Option Nat) (vs : List GoldBlk) : Nat → Nat → List BlkRead →
    List Bytes → State → State × Option Bool
  | 0, _, _, _, s => (s, some false)
  | k + 1, i, rs, rb, s =>
    let v := vs.find? fun v => decide (v.idx = b + i)
    match goldBlock s n .copy g (b + i) v (rs.headD ⟨[], [], [], .clean⟩) with
    | (s, none) => (s, none)
    | (s, some data) =>
      match progPages n (copyFa s n g (b + i)) (op + 1 + 16 * i) busyAt data 16 0 s with
      | (s, false) => (s, none)
      | (s, true) =>
        let s := ownRead s n 0 (copyFa s n g (b + i)) 4096
        match copyBlocks n g b op busyAt vs k (i + 1) (rs.drop 1) (rb.drop 1) s with
        | (s, some differs) => (s, some (decide (sliceZ (rb.headD []) 0 4096 ≠ data) || differs))
        | r => r

/-- One pass over a unit: erased, then its sixteen blocks (R188). -/
def copyPass (s : State) (n : Nat) (g : Golden) (b op : Nat) (busyAt : Option Nat) (rs : List BlkRead) (rb : List Bytes) :
    State × Option Bool :=
  let s := eraseUnit s n g
  if busyAt = some op then (copyBusyFail s n, none)
  else copyBlocks n g b op busyAt (goldenBlocks s n g) 16 0 rs rb s

/-- A unit ends: copied, once more where a read-back differed, and counted (R188, R189). -/
def unitEnds (s : State) (n : Nat) (g : Golden) (blks : List BlkRead) (rb1 : List Bytes) (again : List BlkRead)
    (rb2 : List Bytes) (busyAt : Option Nat) : State :=
  let b := rfld s (reg .fgpCtl n 0x0A8) 15 0
  let good (s : State) : State :=
    let s := ownClear (rsetf s (reg .fgpCtl n 0x0A8) 15 0 (b + 16)) n .copy
    if b + 16 ≥ g.length then cmdEnd (enterHeld (measureRecovery s n 0) n) n 0
    else if (port s n).hold then recoveryHeld s n
    else modPort s n fun p => { p with unitOn := !s.locked }
  match copyPass s n g b 0 busyAt blks rb1 with
  | (s, none) => s
  | (s, some false) => good s
  | (s, some true) =>
    match copyPass (ownClear s n .copy) n g b 257 busyAt again rb2 with
    | (s, none) => s
    | (s, some false) => good s
    | (s, some true) => quarantine s n 0x0E3F

/-- RECOVERY_UNIT_DONE (R188, R189). -/
def execRecoveryUnitDone (n : Nat) (blks : List BlkRead) (rb1 : List Bytes) (retry : UnitRetry)
    (busyAt : Option Nat) (s : State) : Host.Outcome State Fault Refusal :=
  done (
    let p := port s n
    if p.seq ≠ .copy ∨ !p.unitOn ∨ blks.length ≠ 16 ∨ !flashFree s n ∨ !ownEnds s n 1 .copy then s
    else match p.golden with
      | none => s
      | some g => unitEnds s n g blks rb1 retry.blks retry.back busyAt)

end Sys2Proof.Machine
end

