-- ==== Sys2Proof/Machine/PortManifest.lean ====
section
/-! DEFINITION. Machine/PortManifest.lean: the manifest check of R172 to R174 and R184, run on the bytes read from the flash.
The job that carries it (its descriptor, key slot and completion) is in Machine/JobSched.lean. -/
namespace Sys2Proof.Machine

/-- The parameters of a manifest check job (R173), its key slot already resolved: the Ed25519 public key, none where the slot
is unusable (0x0E35). -/
structure ManParams where
  port : Nat
  mode : Nat
  manifest : Nat
  pid : Bytes
  key : Option Bytes
  cs1Base : Nat := 0
  dest : Nat := 0
  length : Nat := 0
  start : Nat := 0
  deriving DecidableEq, Repr

/-- The job selection (R174). -/
def jobSel (s : State) (p : ManParams) : Bool :=
  if p.mode = 1 then !(port s p.port).sel else (port s p.port).sel

/-- A run of platform addresses maps contiguously: wholly below the density, within one view or none, and for GOLDEN inside
the region (R174). -/
def spanOk (s : State) (p : ManParams) (a len : Nat) : Bool :=
  let v (r : Nat) : Nat := viewOf (abMap s p.port) (abCtrl s p.port) r
  decide (0 < len) && decide (a + len ≤ 2 ^ density s p.port) &&
  (decide (p.mode ≠ 2) || (decide (p.dest ≤ a) && decide (a + len ≤ p.dest + 4096 * p.length))) &&
  (List.range ((a + len - 1) / 2 ^ 24 + 1 - a / 2 ^ 24)).all fun i => decide (v (a / 2 ^ 24 + i) = v (a / 2 ^ 24))

/-- The flash address a job uses for a platform address: on CS0, or for GOLDEN carried to CS1 (R174). -/
def jobFa (s : State) (p : ManParams) (a : Nat) : Nat :=
  let fa := flashAddr s p.port (jobSel s p) a
  if p.mode = 2 then (p.cs1Base + 2 ^ 32 + fa - flashAddr s p.port (jobSel s p) p.dest) % 2 ^ 32 else fa

/-- total_len where the header's image_count is 1 to 4 and total_len fits it, else the header's 64 bytes (R174). -/
def manExtent (man : Bytes) : Nat :=
  let count := fieldLe man 0x0C 1
  let total := fieldLe man 0x08 4
  if 1 ≤ count ∧ count ≤ 4 ∧ total = 0x80 + 0x60 * count then total else 64

/-- The manifest itself maps, its address a multiple of 512 (R174). -/
def manMapped (s : State) (p : ManParams) (man : Bytes) : Bool :=
  decide (p.manifest % 512 = 0) && spanOk s p p.manifest 64 && spanOk s p p.manifest (manExtent man)

/-- The header matches R172. -/
def manHeaderOk (man : Bytes) : Bool :=
  decide (64 < manExtent man) && decide (sliceZ man 0 4 = [0x57, 0x50, 0x4D, 0x46]) && decide (fieldLe man 4 2 = 1) &&
  decide (fieldLe man 6 2 = 0x40) && decide (fieldLe man 0x0D 1 < 2) && allZero (sliceZ man 0x0E 2) &&
  allZero (sliceZ man 0x18 40)

/-- The signature verifies under the key (R172). -/
def manSigned (key man : Bytes) : Bool :=
  let t := manExtent man
  ed25519Verify key (sliceZ man 0 (t - 64)) (sliceZ man (t - 64) 64)

/-- Offset of entry `e`. -/
def entryAt (e : Nat) : Nat := 0x40 + 0x60 * e

/-- Entry `e` matches R172; `prev` is the image of the entry before it. -/
def entryOk (man : Bytes) (e : Nat) (prev : Option Nat) : Bool :=
  let o := entryAt e
  let image := fieldLe man o 1
  let leaves := fieldLe man (o + 4) 4
  decide (image ≤ 3) && (match prev with | some q => decide (q < image) | none => true) &&
  allZero (sliceZ man (o + 1) 3) && allZero (sliceZ man (o + 0x1C) 4) &&
  decide (1 ≤ leaves) && decide (leaves ≤ 1048576) && decide (fieldLe man (o + 16) 8 ≤ fieldLe man (o + 8) 8)

/-- The DTT of entry `e` maps (R174): not asked of an entry whose leaf_count is out of range. -/
def entryMapped (s : State) (p : ManParams) (man : Bytes) (e : Nat) : Bool :=
  let leaves := fieldLe man (entryAt e + 4) 4
  decide (manExtent man ≤ entryAt e) || decide (leaves = 0) || decide (leaves > 1048576) ||
  spanOk s p (fieldLe man (entryAt e + 0x18) 4) (dttLen leaves)

/-- The recovery parameters lie within R173 and the copy region within the active view (R174). -/
def goldenParamsOk (s : State) (p : ManParams) : Bool :=
  let v (r : Nat) : Nat := viewOf (abMap s p.port) (abCtrl s p.port) r
  let want := if fld (abCtrl s p.port) 4 0 = 0 then 0 else 1
  decide (p.cs1Base % 0x10000 = 0) && decide (p.dest % 0x10000 = 0) && decide (p.length % 16 = 0) &&
  decide (16 ≤ p.length) && decide (p.length ≤ 16384) && decide (p.start % 16 = 0) && decide (p.start < p.length) &&
  (List.range ((p.dest + 4096 * p.length - 1) / 2 ^ 24 + 1 - p.dest / 2 ^ 24)).all fun i =>
    decide (v (p.dest / 2 ^ 24 + i) = want)

/-- The checks of one entry, in the order of R174: the first failing code. -/
def entryBad (s : State) (p : ManParams) (man : Bytes) (e : Nat) (prev : Option Nat) : Option Nat :=
  match p.key with
  | none => some 0x0E35
  | some key =>
    if !manMapped s p man ∨ !entryMapped s p man e then some 0x0E36
    else if !manHeaderOk man then some 0x0E30
    else if !manSigned key man then some 0x0E31
    else if !entryOk man e prev then some 0x0E32
    else if sliceZ man 0x10 8 ≠ p.pid then some 0x0E33
    else if fieldLe man (entryAt e + 8) 8 < counter s (4 + 4 * p.port + fieldLe man (entryAt e) 1) then some 0x0E34
    else if p.mode = 2 ∧ !goldenParamsOk s p then some 0x0E3D
    else none

/-- The entries checked in turn from entry `e`: the first failing code with its entry (R174). -/
def entriesBad (s : State) (p : ManParams) (man : Bytes) : Nat → Nat → Option Nat → Option (Nat × Nat)
  | 0, _, _ => none
  | k + 1, e, prev =>
    match entryBad s p man e prev with
    | some code => some (code, e)
    | none => entriesBad s p man k (e + 1) (some (fieldLe man (entryAt e) 1))

/-- The entries of an accepted manifest, their DTT addresses mapped (R141). -/
def manEntries (s : State) (p : ManParams) (man : Bytes) : List ManEntry :=
  (List.range (fieldLe man 0x0C 1)).map fun e =>
    let o := entryAt e
    { image := fieldLe man o 1, leaves := fieldLe man (o + 4) 4, version := fieldLe man (o + 8) 8,
      floor := fieldLe man (o + 16) 8, dtt := jobFa s p (fieldLe man (o + 0x18) 4), root := sliceZ man (o + 0x20) 64 }

/-- The manifest check (R174): the failing code with its entry, or the manifest and its raise flag. -/
def manCheck (s : State) (p : ManParams) (man : Bytes) : Except (Nat × Nat) (Manifest × Bool) :=
  let count := if manHeaderOk man then fieldLe man 0x0C 1 else 1
  match entriesBad s p man count 0 none with
  | some bad => .error bad
  | none =>
    .ok (⟨sha512 (sliceZ man 0 (manExtent man)), p.key.getD [], manEntries s p man⟩, decide (fieldLe man 0x0D 1 % 2 = 1))

/-- The job is expected by the port (R173). -/
def jobExpected (s : State) (p : ManParams) : Bool :=
  let q := port s p.port
  match p.mode with
  | 0 => decide (q.st = .measuring) && decide (q.seq = .waitJob)
  | 1 => decide (q.st = .updateStaged) && !q.act
  | _ => decide (q.st = .recovering) && decide (q.seq = .waitJob)

/-- FGPn_STATUS.wr_inflight (R130). -/
def wrInflight (s : State) (n : Nat) : Bool := (port s n).cs0Busy || (port s n).live.any (·.writes)

/-- The start of a manifest check job: it binds to its port, where it is expected and no other is bound; a STAGE job discards the
staged result and is refused while an arm bit is set or a write is in flight (R173, R184).  The code it completes with at
once, if any. -/
def manifestStart (s : State) (p : ManParams) : State × Option Nat :=
  let n := p.port
  if !portOn s n ∨ !jobExpected s p ∨ (s.jobs.any fun e => boundTo e.2 n) then (s, some 0x0E37)
  else if p.mode ≠ 1 then (s, none)
  else
    let s := modPort s n fun q => { q with staged := none }
    if arms s n ≠ 0 ∨ wrInflight s n then (s, some 0x0E38) else (s, none)

/-- Chip select of a job's reads (R174). -/
def jobCs (p : ManParams) : Nat := if p.mode = 2 then 1 else 0
/-- The reads of a manifest: its header, then the rest, where its address maps (R174). -/
def manReads (s : State) (p : ManParams) (man : Bytes) : List (Nat × Nat × Nat) :=
  let fa := jobFa s p p.manifest
  if p.key.isNone ∨ p.manifest % 512 ≠ 0 ∨ !spanOk s p p.manifest 64 then []
  else (jobCs p, fa, 64) :: (if 64 < manExtent man ∧ manMapped s p man then [(jobCs p, fa + 64, manExtent man - 64)] else [])
/-- The manifest is read. -/
def manifestRead (s : State) (p : ManParams) (man : Bytes) : State :=
  (manReads s p man).foldl (fun s r => ownRead s p.port r.1 r.2.1 r.2.2) s
/-- The DTTs of a STAGE job are read from CS0 up to the first that fails, and their nodes hashed (R142, R184). -/
def stageReads (s : State) (n : Nat) : List TreeCtx → List Bytes → State
  | [], _ => s
  | t :: ts, ds =>
    let s := flashHash (ownRead s n 0 t.addr (dttLen t.leaves)) (2 * ((treeSizes t.leaves).drop 1).foldl (· + ·) 0)
    if (dttBad (ds.headD []) t).isNone then stageReads s n ts (ds.drop 1) else s

/-- The tree checks of a STAGE job, with the staged contexts and the DTTs read (R184). -/
def stageTreesBad (s : State) (n : Nat) (m : Manifest) (dtts : List Bytes) : Option Nat :=
  let s := modPort s n fun p => { p with trees := contextsOf m }
  match treeConfigBad s n with
  | some code => some code
  | none => treesBad (treesToLoad s n) dtts

/-! ### What a unit that does not drive has snooped (R451) -/

/-- Where a byte of a chip is kept in a port's snooped bytes. -/
def snoopKey (cs fa : Nat) : Nat := cs * 2 ^ 32 + fa
/-- The byte snooped at a place, none while it has not been seen. -/
def seenAt (p : Port) (k : Nat) : Option Byte := Tbl.get (fun _ => none) p.snoop k
/-- How many bytes of an access, from its first, have been seen. -/
def seenLen (p : Port) (r : Nat × Nat × Nat) : Nat :=
  ((List.range r.2.2).takeWhile fun i => (seenAt p (snoopKey r.1 r.2.1 + i)).isSome).length
/-- An access has been seen whole. -/
def seenAll (p : Port) (r : Nat × Nat × Nat) : Bool := decide (seenLen p r = r.2.2)
/-- The bytes seen of an access. -/
def seenBytes (p : Port) (r : Nat × Nat × Nat) : Bytes := (List.range r.2.2).map fun i => (seenAt p (snoopKey r.1 r.2.1 + i)).getD 0
/-- An access forgotten: it has been satisfied. -/
def forget (s : State) (n : Nat) (r : Nat × Nat × Nat) : State :=
  modPort s n fun p => { p with snoop := p.snoop.clearRange (snoopKey r.1 r.2.1) (snoopKey r.1 r.2.1 + r.2.2) }
/-- An access has been seen whole and returned `data`. -/
def seenAs (p : Port) (r : Nat × Nat × Nat) (data : Bytes) : Bool := seenAll p r && seenBytes p r == sliceZ data 0 r.2.2
/-- The DTTs of a STAGE job have been seen up to the first that fails (R184). -/
def treesSeen (p : Port) : List TreeCtx → List Bytes → Bool
  | [], _ => true
  | t :: ts, ds =>
    seenAs p (0, t.addr, dttLen t.leaves) (ds.headD []) && ((dttBad (ds.headD []) t).isSome || treesSeen p ts (ds.drop 1))
/-- The trees a STAGE job reads, where its manifest passes and their frames suffice (R184). -/
def stageTrees (s : State) (p : ManParams) (man : Bytes) : List TreeCtx :=
  match p.mode, manCheck s p man with
  | 1, .ok (m, _) =>
    let t := modPort s p.port fun q => { q with trees := contextsOf m }
    if (treeConfigBad t p.port).isSome then [] else treesToLoad t p.port
  | _, _ => []
/-- What a manifest job reads has been snooped. -/
def manifestSeen (s : State) (p : ManParams) (man : Bytes) (dtts : List Bytes) : Bool :=
  let q := port s p.port
  let rs := manReads s p man
  let at0 := jobFa s p p.manifest
  (rs.all fun r => seenAs q r (man.drop (r.2.1 - at0))) && treesSeen q (stageTrees s p man) dtts
/-- The job's reads of the flash can be made now: the flash side is free for them (R29, R92, R98), or in a unit that does not drive they
have been snooped (R451); and not while LOCKED, which stops before a manifest check (R169). -/
def manifestCan (s : State) (p : ManParams) (man : Bytes) (dtts : List Bytes) : Bool :=
  !s.locked && portOn s p.port && (if driving s then ownSide s p.port (jobCs p) else manifestSeen s p man dtts)

/-- A manifest check job runs: its completion code and result (the failing entry), and the port as it leaves it (R167, R184,
R188).  A job that is not expected completes with 0x0E37 and changes nothing. -/
def manifestRun (s : State) (p : ManParams) (man : Bytes) (dtts : List Bytes) : State × Nat × Nat :=
  let n := p.port
  if !jobExpected s p then (s, 0x0E37, 0) else
  let s := if p.mode = 2 then modPort s n fun q => { q with recBase := p.cs1Base } else
    modPort s n fun q => { q with manAt := (jobFa s p p.manifest, manExtent man) }
  let s := manifestRead s p man
  match manCheck s p man with
  | .error (code, e) =>
    let s := match p.mode with
      | 0 => measureResult s n code default false
      | 1 => s
      | _ => goldenResult s n code 0 default default
    (s, code, e)
  | .ok (m, raise) =>
    match p.mode with
    | 0 => (measureResult s n 0 m raise, 0, 0)
    | 1 =>
      let bad := stageTreesBad s n m dtts
      let s := stageReads s n (stageTrees s p man) dtts
      let s := irq s .du 0 n
      (match bad with
       | some code => (duReport s code, code, 0)
       | none => (stageResult s n 0 m, 0, 0))
    | _ => (goldenResult s n 0 p.start m ⟨p.cs1Base, p.dest, p.length, m.digest⟩, 0, 0)

end Sys2Proof.Machine
end

