-- ==== Sys2Proof/Machine/JobSched.lean ====
section
/-! DEFINITION. Machine/JobSched.lean: rings and doorbells (R194), fetch (R195), dispatch (R205), pre-emption and resumption
(R207, R208), self-tests (R214 to R216), and the meaning of each job row. -/
namespace Sys2Proof.Machine

/-! ### Register writes of the CJE pages (R194, R206, R217 to R219) -/

/-- A ring's configuration register written: a change of size while enabled, or an enable that fails its checks, is ignored as a
whole; enabling resets the indices and the phase (R194).  `sMax` is the largest size. -/
def ringCfgWrite (s : State) (r : RingId) (c : WCtx) (sMax : Nat) (bad : Nat → State) : State :=
  let sizesChange := fld c.old 7 0 ≠ fld c.new 7 0
  if bit c.old 8 then (if sizesChange then bad 0x0C18 else storeW s c)
  else if !bit c.new 8 then storeW s c
  else
    let sq := fld c.new 3 0
    let cq := fld c.new 7 4
    if sq < 4 ∨ sq > 12 ∨ cq < 4 ∨ cq > 12 ∨ sq > sMax ∨ cq > sMax then bad 0x0C18
    else
      let outside : Bool := match r with
        | .core _ => !sramOk (sqBase s r) (64 * 2 ^ sq) || !sramOk (cqBase s r) (32 * 2 ^ cq)
        | .inst _ => false
      if outside then bad 0x0C06
      else
        let s := storeW s c
        let s := rset (rset (rset (rset s (ringSqHead r) 0) (ringCqTail r) 0) (ringSqTail r) 0) (ringCqHead r) 0
        setPhase s r true

/-- A doorbell value of 2^s or more is ignored (R194). -/
def doorbellStore (s : State) (r : RingId) (sq : Bool) (c : WCtx) (bad : Nat → State) : State :=
  if fld c.new 11 0 ≥ 2 ^ (if sq then rfld s (ringCfg r) 3 0 else rfld s (ringCfg r) 7 4) then bad 0x0C18 else storeW s c

/-- A write to the CJE control page (R194, R211, R217). -/
def cjeWrite (c : WCtx) (s : State) : State :=
  let off := c.off % 4096
  let bad (code : Nat) : State := refuseW s .cje 0 code c
  if 0x080 ≤ off ∧ off < 0x100 then
    let q := (off - 0x080) / 32
    let r : RingId := .core q
    match (off - 0x080) % 32 with
    | 0x0C => ringCfgWrite s r c 12 bad
    | 0x10 => doorbellStore s r true c bad
    | 0x14 => doorbellStore s r false c bad
    | _ => if rbit s (ringCfg r) 8 ∧ c.new ≠ c.old then bad 0x0C18 else storeW s c
  else if off = 0x040 then retimeJobs (storeW s c)
  else storeW s c

/-- A write to a ring register of instance page `i` (R194, R218, R379). -/
def instRingWrite (i : Nat) (c : WCtx) (s : State) : State :=
  let r : RingId := .inst i
  let bad (code : Nat) : State := refuseW s .inst i code c
  if c.off % 4096 = 0x058 then
    (if fld c.new 17 16 ≥ rfld s (reg .inst i 0x08C) 18 16 ∧ fld c.new 17 16 ≠ 0 then bad 0x0C18
     else ringCfgWrite s r c (rfld s (reg .inst i 0x08C) 15 12) bad)
  else if rbit s (ringCfg r) 8 ∧ c.new ≠ c.old then bad 0x0C18 else storeW s c

/-- A write to doorbell page `i` (R194, R378). -/
def doorbellWrite (i : Nat) (c : WCtx) (s : State) : State :=
  let bad (code : Nat) : State := refuseW s .doorbell i code c
  match (inst s i).st with
  | .none => bad 0x0C1B
  | .awaitRestore => bad 0x0C1B
  | .saved => bad 0x0C1B
  | _ => doorbellStore s (.inst i) (decide (c.off % 4096 = 0x044)) c bad

/-- A port that needs a reserved lane: an enabled STREAM window while it is RUNNING or UPDATE_STAGED (R35, R206). -/
def needsReserved (s : State) : Bool :=
  (List.range s.part.ports).any fun n => portOn s n &&
    (decide ((port s n).st = .running) || decide ((port s n).st = .updateStaged)) &&
    (wins s n).any fun w => decide (w.pol = 2)

/-- A write to a hash lane page (R206). -/
def laneWrite (m : Nat) (c : WCtx) (s : State) : State :=
  if c.off % 4096 = 0x040 ∧ bit c.old 0 ∧ !bit c.new 0 ∧ needsReserved s ∧ lanesReserved (storeW s c) = 0 then
    refuseW s .lane m 0x0C10 c
  else storeW s c

/-! ### Fetch (R195, R202) -/

/-- Jobs a submitter holds. -/
def jobsOf (s : State) (sub : Sub) : List (Nat × Job) := jobsWith s fun j => decide (j.sub = sub)
/-- Tags of all instances' quotas. -/
def quotaSum (s : State) : Nat :=
  ((List.range 65).map fun i => if (inst s i).st = .none then 0 else rfld s (reg .inst i 0x08C) 8 0).foldl (· + ·) 0
/-- A tag is free within the submitter's quota (R195, R202, R380). -/
def quotaLeft (s : State) : Sub → Bool
  | .core _ => decide ((jobsWith s fun j => decide (j.cls = 0)).length <
      1024 - rfld s (reg .cje 0 0x048) 26 16 - quotaSum s)
  | .inst i => decide ((jobsWith s fun j => decide (j.sub = .inst i)).length < rfld s (reg .inst i 0x08C) 8 0)
  | .remote _ _ _ _ => decide ((jobsWith s fun j => decide (j.cls = 2)).length < rfld s (reg .cje 0 0x048) 26 16)
/-- The lowest free context slot of a submitter (R202). -/
def freeSlot (s : State) (sub : Sub) : Nat :=
  let used := (jobsOf s sub).map (·.2.slot)
  ((List.range 1024).find? fun k => !used.contains k).getD 0
/-- The submitter of a ring. -/
def ringSub : RingId → Sub | .core q => .core q | .inst i => .inst i
/-- The ring fetches: enabled, its instance ACTIVE and its queue not parked (R195, R378). -/
def ringFetches (s : State) (r : RingId) : Bool :=
  ringOn s r && decide (rfld s (ringSqHead r) 11 0 ≠ rfld s (ringSqTail r) 11 0) &&
  (match r with
   | .core _ => true
   | .inst i => decide ((inst s i).st = .active) && !rbit s (reg .inst i 0x064) 22)

/-- A new job in a tag (R195). -/
def newJob (s : State) (tag : Nat) (sub : Sub) (gen : Nat) (desc : Bytes) : State :=
  let j : Job := { sub := sub, ord := s.jobOrd, desc := sliceZ desc 0 64, slot := freeSlot s sub, gen := gen }
  setJob { s with jobOrd := s.jobOrd + 1 } tag j

/-- SQ_HEAD moves on and the descriptor becomes a QUEUED job. -/
def fetched (s : State) (r : RingId) (tag : Nat) (desc : Bytes) : State :=
  let gen := match r with | .core _ => 0 | .inst i => (inst s i).gen
  newJob (rsetf s (ringSqHead r) 11 0 ((rfld s (ringSqHead r) 11 0 + 1) % 2 ^ rfld s (ringCfg r) 3 0)) tag (ringSub r) gen desc

/-- The queue of instance `i` parks on its descriptor (R195, R218). -/
def parkQueue (s : State) (i : Nat) : State := irq (rsetb s (reg .inst i 0x064) 22 true) .inst i 1

/-- DESCRIPTOR_FETCH (R195). -/
def execDescriptorFetch (r : RingId) (tag : Nat) (desc : Bytes) (w : Walk) (s : State) :
    Host.Outcome State Fault Refusal :=
  done (
    if !ringFetches s r ∨ tag ≥ 1024 ∨ (job? s tag).isSome ∨ !quotaLeft s (ringSub r) ∨ saveFree s < 10 then s else
    let at0 := sqBase s r + 64 * rfld s (ringSqHead r) 11 0
    match r with
    | .core _ => fetched s r tag (sramRead s at0 64)
    | .inst i =>
      match translate s i at0 5 false none (inst s i).gen w with
      | (s, .ok _) => fetched s r tag desc
      | (s, _) => parkQueue s i)

/-! ### Dispatch (R32, R196, R205) -/

/-- A fence holds a job back (R196). -/
def fenced (s : State) (j : Job) : Bool :=
  (dFlags j.desc).testBit 1 && s.jobs.any fun e => decide (e.2.sub = j.sub) && decide (e.2.ord < j.ord)
/-- The job waits for a unit. -/
def waits (s : State) (j : Job) : Bool :=
  (decide (j.st = .queued) && !fenced s j) || decide (j.st = .preempted)
/-- Where a class-1 source counts its starts: instance `i` at `i`, remote at 128 (R205). -/
def wrrKey (j : Job) : Nat := match j.sub with | .inst i => i | _ => 128
/-- Weight of a source; 0 counts as 1. -/
def wrrWeight (s : State) (k : Nat) : Nat :=
  max 1 (if k = 128 then rfld s (reg .cje 0 0x04C) 3 0 else rfld s (reg .inst k 0x058) 15 12)
/-- Starts of a source in this round. -/
def wrrUsed (s : State) (k : Nat) : Nat := Tbl.get (fun _ => 0) s.wrr k

/-- The unit a SELF_TEST is for, by the KAT bit it tests: none for the entropy source and, on any lane, for the KDF. -/
def katUnit (b : Nat) : Option (Nat × Nat) :=
  if b < 8 then some (0, b) else if b < 12 then some (1, b - 8) else if b < 14 then some (2, b - 12)
  else if b = 15 then some (3, 0) else none
/-- The SELF_TEST's target: the KAT bits it tests, none where it is absent or invalid (R215). -/
def testTargets (s : State) (d : Bytes) : Option (List Nat) :=
  let i := dParam d 1
  match dParam d 0 with
  | 0 => if i < s.part.lanes then some [i] else none
  | 1 => if i < s.part.curves then some [8 + i] else none
  | 2 => if i < s.part.aes then some [12 + i] else none
  | 3 => some [14]
  | 4 => some [15]
  | 5 => some [16]
  | 6 => some (List.range s.part.lanes ++ (List.range s.part.curves).map (8 + ·) ++
      (List.range s.part.aes).map (12 + ·) ++ [14, 15, 16])
  | _ => none
/-- The KAT bit a SELF_TEST takes next: its target, or of every unit the one it has reached. -/
def testNext (s : State) (j : Job) : Option Nat := ((testTargets s j.desc).getD [])[j.pos]?
/-- A test for KAT bit `b` needs unit `m` of kind `k`. -/
def testWants (b k m : Nat) : Bool := decide (katUnit b = some (k, m)) || (decide (b = 14) && decide (k = 0))
/-- A job waits for unit `m` of kind `k`: a test for its target, a curve job for a lane once a curve unit is free for it (R205,
R216). -/
def waitsFor (s : State) (x : Job) (k m : Nat) : Bool :=
  if x.tests then
    (waits s x || (decide (x.st = .running) && x.done.isNone && decide (dParam x.desc 0 = 6))) &&
      (testNext s x).any fun b => testWants b k m
  else waits s x && (decide (unitKind s x.desc = some k) ||
    (decide (k = 0) && needsLane x.desc && (List.range s.part.curves).any (unitFree s 1)))

/-- The class order lets a job start on the units `us` now: no core job waits for one of them before an instance or remote job, and
within these the round robin has starts left for its source, or for no waiting source (R205). -/
def mayStart (s : State) (j : Job) (us : List (Nat × Nat)) : Bool :=
  let others := jobsWith s fun x => us.any fun u => waitsFor s x u.1 u.2
  if j.cls = 0 then true
  else if others.any fun e => decide (e.2.cls = 0) then false
  else
    decide (wrrUsed s (wrrKey j) < wrrWeight s (wrrKey j)) ||
    others.all fun e => decide (wrrWeight s (wrrKey e.2) ≤ wrrUsed s (wrrKey e.2))
/-- A start is counted; a new round begins where no waiting source had starts left. -/
def countStart (s : State) (j : Job) : State :=
  if j.cls = 0 then s else
  let k := wrrKey j
  let t : Tbl Nat := if wrrUsed s k < wrrWeight s k then s.wrr else []
  { s with wrr := Tbl.set (fun _ => 0) t k (Tbl.get (fun _ => 0) t k + 1) }

/-- The unit a SELF_TEST holds while it runs: its target, or the lane it was given for the KDF. -/
def testUnit (d : Bytes) (lane : Nat) : Option (Nat × Nat) :=
  match dParam d 0 with
  | 0 => some (0, dParam d 1) | 1 => some (1, dParam d 1) | 2 => some (2, dParam d 1)
  | 3 => some (0, lane) | 4 => some (3, 0) | _ => none
/-- A test of unit `m` of kind `k` can start a vector now: no job holds the unit, and no flash-path work an unreserved lane; on a reserved
lane it is flash-path work, which waits while a port has a chunk ready (R216). -/
def testReady (s : State) (k m : Nat) : Bool :=
  (unitJob s k m).isNone &&
    (decide (k ≠ 0) || (if laneReserved s m then !(List.range 16).any (chunkReady s) else !laneTaken s m))
/-- A SELF_TEST that is given lane `lane` can start: its unit is drained; the KDF's test takes a free unreserved lane (R215, R216). -/
def testFree (s : State) (d : Bytes) (lane : Nat) : Bool :=
  match testUnit d lane with
  | some (k, m) => if dParam d 0 = 3 then unitFree s 0 lane else testReady s k m
  | none => true
/-- A SELF_TEST starts; on a reserved lane it has 10 ms (R216). -/
def startTest (s : State) (tag : Nat) (j : Job) (start : State → Job → State) : State :=
  let own := decide (dParam j.desc 0 = 0) && laneReserved s (dParam j.desc 1)
  let s := start s { j with onRes := own }
  if own then tset s (.selfTest tag) (ms 10) else s
/-- The Completion Timeout of the endpoint in TBCLK cycles, none while it is disabled: 50 ms, or a time within the range selected (R355;
assumption log 117). -/
def completionTimeout (s : State) : Option Nat :=
  let f := pciFn s 0
  let within (lo hi : Nat) : Nat := max (us lo) (min (us hi) (Config.ctoCycles f.cto))
  if f.ctoOff then none
  else some (match f.cto with
    | 1 => within 50 100 | 2 => within 1000 10000 | 5 => within 16000 55000 | 6 => within 65000 210000 | _ => ms 50)
/-- The job starts on a unit: RUNNING, timed where job_timeout is set (R208, R211); the reads an instance's job makes of host memory wait
for their completions (R355, R361). -/
def startJob (s : State) (tag : Nat) (j : Job) (u : Option (Nat × Nat)) : State :=
  let s := setJob s tag { j with st := .running, unit := u, last := u.getD j.last, since := 0, since0 := s.tbTime,
                                 gens := j.copies.map fun c => (c.1, c.2.gen), recSaved := false }
  let limit := rfld s (reg .cje 0 0x040) 23 8
  let s := if (u.isSome ∨ j.tests) ∧ limit ≠ 0 then tset s (.job tag) (ms limit + 1 - j.used) else s
  match j.sub, completionTimeout s with
  | .inst _, some t => if u.isSome then tset s (.pcieRead tag) t else s
  | _, _ => s

/-- A finish whose entry, for an instance, waits for COMPLETION_WRITE. -/
def finishLater (s : State) (tag : Nat) (x : JobRes) : State :=
  match job? s tag with
  | none => s
  | some j => if j.cls = 1 then
      (let s := leaveUnit s tag
       match job? s tag with
       | some j => setJob s tag { j with st := .running, done := some x, buf := false, pos := 0 }
       | none => s)
    else finish s tag x []

/-- The instance has its jobs of this type executed at another node (R394). -/
def forwards (s : State) (j : Job) : Option Nat :=
  match j.sub with
  | .inst i =>
    let w := rget s (reg .inst i 0x098)
    let t := dType j.desc
    if bit w 8 ∧ (t = 0x00 ∨ t = 0x01 ∨ (t = 0x11 ∧ dKey j.desc = 0xFFFF)) then some (fld w 5 0) else none
  | _ => none

/-- A job is forwarded: every page of src, aux and dst is translated first; a fault parks it at home (R394). -/
def forwardJob (s : State) (tag : Nat) (j : Job) (i node : Nat) (ws : List Walk) : State :=
  let d := j.desc
  let writes := (pieces (dDst d) (dDstLen d)).length
  let (s, _, ws, stop) := translateAll s i 1 false tag j.gen (pieces (dSrc d) (dSrcLen d) ++ pieces (dAux d) (dAuxLen d)) ws
  let (s, ws, stop) := match stop with
    | some r => (s, ws, some r)
    | none =>
      let (s, _, ws, stop) := if writes = 0 then (s, [], ws, none)
        else translateAll s i 3 true tag j.gen (pieces (dDst d) (dDstLen d)) ws
      (s, ws, stop)
  match stop with
  | some (.err code) => finish s tag { status := code, ran := false } ws
  | some _ => setJob s tag { j with st := .faultFetch, faulted := true }
  | none =>
    let s := setJob s tag { j with st := .running, fwd := some node }
    let s := { s with issued := (i, j.gen, s.tbTime, tag) :: s.issued }
    tset (sendFrame s node 0x30 (leBytes 2 tag ++ leBytes 1 i ++ leBytes 1 j.gen ++ d)) (.remJob tag) (ms 1000)

/-- The parameters of a manifest check from its descriptor; none where they are invalid (0x0C03). -/
def manParams (s : State) (j : Job) : Option ManParams :=
  let d := j.desc
  let mode := fieldLe d 0x35 1
  let n := fieldLe d 0x34 1
  if n ≥ s.part.ports ∨ mode > 2 ∨ (mode ≠ 2 ∧ !allZero (sliceZ d 0x14 12)) then none else
  let k := dKey d
  let x := kslot s k
  let ok := decide (k < 512) && decide (x.st = .live) && decide (x.ktype = 2) && x.may 1 &&
    ((decide (x.ownerKind = 2) && decide (x.owner = n)) || (decide (x.ownerKind = 0) && decide (x.owner = 0))) &&
    (chainCheck s k).2
  some { port := n, mode := mode, manifest := fieldLe d 0x10 4, pid := sliceZ d 0x20 8, key := if ok then some x.key else none,
         cs1Base := fieldLe d 0x14 4, dest := fieldLe d 0x18 4, length := fieldLe d 0x1C 2, start := fieldLe d 0x1E 2 }

/-- A manifest check job at its start: the code it completes with at once, if any (R173, R184, R197). -/
def startRefusal (s : State) (j : Job) : State × Option Nat :=
  if dType j.desc ≠ 0x1F then (s, none)
  else match manParams s j with
    | none => (s, some 0x0C03)
    | some p => manifestStart s p

/-- JOB_DISPATCH of a QUEUED job: refused, forwarded, or started on `unit` (R198, R201, R205, R394). -/
def dispatch (s : State) (tag unit lane : Nat) (ws : List Walk) : State :=
  match job? s tag with
  | none => s
  | some j =>
    if j.st ≠ .queued ∨ j.done.isSome ∨ fenced s j then s else
    let d := j.desc
    match refusal s j.sub j.slot d with
    | some code => finish s tag { status := code, ran := false } ws
    | none =>
      match forwards s j, j.sub with
      | some node, .inst i => forwardJob (countStart s j) tag j i node ws
      | _, _ =>
        match keyRefusal s j.sub d with
        | (s, some code, _) => finish s tag { status := code, ran := false } ws
        | (s, none, copies) =>
          let j := { j with copies := copies }
          if (dType d = 0x00 ∨ dType d = 0x30) ∧ (dFlags d).testBit 2 then finish s tag { status := 0x0C09, ran := false } ws
          else if dType d = 0x30 then
            (match testTargets s d with
             | none => finish s tag { status := 0x0C13, ran := false } ws
             | some _ => if testFree s d unit then startTest s tag j fun s j => startJob s tag j (testUnit d unit) else s)
          else match unitKind s d with
            | none => startJob s tag j none
            | some k =>
              let noUnit : Bool := !(List.range (unitCount s k)).any (fun m => unitEnabled s k m) ||
                (needsLane d && !(List.range s.part.lanes).any fun m => unitEnabled s 0 m) ||
                (katBits d k unit lane).any fun b => decide (14 ≤ b) && katFail s b
              let appr := approvedService d && (katBits d k unit lane).all fun b => katPass s b
              if noUnit then finish s tag { status := 0x0C0B, ran := false } ws
              else if !unitFree s k unit ∨ (needsLane d ∧ !unitFree s 0 lane) ∨
                  !mayStart s j ((k, unit) :: (if needsLane d then [(0, lane)] else [])) ∨
                  ((j.onLane ∨ j.onAes) ∧ saveFree s < 10) then s
              else if (dFlags d).testBit 2 ∧ !appr then finish s tag { status := 0x0C09, ran := false } ws
              else
                let j := { j with approved := appr, lane := if needsLane d then some lane else none }
                match startRefusal s j with
                | (s, some code) => finish s tag { status := code, ran := false } ws
                | (s, none) => startJob (countStart s j) tag j (some (k, unit))

/-- JOB_DISPATCH. -/
def execJobDispatch (tag unit lane : Nat) (ws : List Walk) (s : State) : Host.Outcome State Fault Refusal :=
  done (dispatch s tag unit lane ws)

/-! ### Running a job -/

/-- The pages of a job's inputs are read: auxiliary buffer first, then the source from the job's position.  Answers the walks left,
or parks or ends the job (R208, R387). -/
def fetchInputs (s : State) (tag : Nat) (j : Job) (io : JobIO) : State × Option (List Walk) :=
  match j.sub with
  | .core _ => (s, some io.walks)
  | .remote _ _ _ _ => (s, some io.walks)
  | .inst i =>
    let d := j.desc
    let (s, _, ws, stop) := if j.mid = [] then
        translateAll s i 1 false tag j.gen (pieces (dAux d) (auxLen d)) io.walks
      else (s, [], io.walks, none)
    match stop with
    | some (.err code) => (finish s tag { status := code } ws, none)
    | some _ => (park s tag .faultFetch ws, none)
    | none =>
      let (s, hs, ws, stop) := translateAll s i 1 false tag j.gen
        (pieces (dSrc d + j.pos) (dSrcLen d - j.pos)) ws
      let n := (hs.map (·.2)).foldl (· + ·) 0
      match stop with
      | some (.err code) => (finish s tag { status := code } ws, none)
      | some _ =>
        let s := if j.onLane then countLane s j (n / 128) else s
        let j := if j.onLane then advance j (jobSrc s j io) (jobAux s j io) (n / 128)
          else if j.onAes then { j with pos := j.pos + n / 16 * 16 } else j
        (park (setJob s tag j) tag .faultFetch ws, none)
      | none => (s, some ws)

/-- A remote job has all its inputs (R421). -/
def inputsIn (j : Job) : Bool :=
  match j.sub with
  | .remote _ _ _ _ => decide (dSrcLen j.desc ≤ j.rsrc.length) && decide (auxLen j.desc ≤ j.raux.length)
  | _ => true

/-- A lane the job holds has been reserved meanwhile: the job leaves it by pre-emption (R33, R206). -/
def laneLost (s : State) (j : Job) : Bool :=
  (match j.unit with | some (0, m) => laneReserved s m | _ => false) ||
  (match j.lane with | some m => laneReserved s m | none => false)
/-- The bytes a job signs on its lane that its descriptor does not give: a WMS but for its signature, a certificate's signed part. -/
def signedLen (s : State) (j : Job) (x : JobRes) : Nat :=
  if dType j.desc = 0x29 then x.outLen - 64 else if dType j.desc = 0x2C then rfld s (reg .atu 0 0x04C) 26 16 - 78 else 0

/-- A RUNNING job of the row's type runs to its verdict: inputs read, the result computed, outputs and entry written (R198,
R208).  Nothing where the tag's job is not such a job. -/
def runJob (s : State) (tag : Nat) (isRow : Bytes → Bool) (io : JobIO)
    (run : State → Job → Bytes → Bytes → State × JobRes) : State :=
  match job? s tag with
  | none => s
  | some j =>
    if j.st ≠ .running ∨ j.done.isSome ∨ j.fwd.isSome ∨ !isRow j.desc ∨ !inputsIn j ∨ laneLost s j then s else
    match fetchInputs s tag j io with
    | (s, none) => s
    | (s, some ws) =>
      let (s, x) := run s j (jobSrc s j io) (jobAux s j io)
      finish (if x.ran then countUnit s j j.pos (signedLen s j x) else s) tag x ws

/-- The row's type code. -/
def isType (t : Nat) (d : Bytes) : Bool := decide (dType d = t)
/-- The row's type code with param[0]. -/
def isTypeP (t p : Nat) (d : Bytes) : Bool := decide (dType d = t) && decide (dParam d 0 = p)

/-- NOP. -/
def execNop (tag : Nat) (io : JobIO) (s : State) : Host.Outcome State Fault Refusal :=
  done (runJob s tag (isType 0x00) io fun s _ _ _ => (s, { status := 0, ran := false }))
/-- HASH. -/
def execHash (tag : Nat) (io : JobIO) (s : State) : Host.Outcome State Fault Refusal :=
  done (runJob s tag (isType 0x01) io runHash)
/-- HMAC_GENERATE. -/
def execHmacGenerate (tag : Nat) (io : JobIO) (s : State) : Host.Outcome State Fault Refusal :=
  done (runJob s tag (isTypeP 0x02 0) io runHmacGen)
/-- HMAC_VERIFY. -/
def execHmacVerify (tag : Nat) (io : JobIO) (s : State) : Host.Outcome State Fault Refusal :=
  done (runJob s tag (isTypeP 0x02 1) io runHmacVerify)
/-- KDF. -/
def execKdf (tag : Nat) (io : JobIO) (s : State) : Host.Outcome State Fault Refusal :=
  done (runJob s tag (isType 0x03) io runKdf)
/-- DRBG: held while a SELF_TEST of the DRBG runs, which holds the key vault unit (R216). -/
def execDrbg (tag : Nat) (io : JobIO) (s : State) : Host.Outcome State Fault Refusal :=
  done (runJob s tag (isType 0x04) io runDrbg)
/-- ED25519_SIGN. -/
def execEd25519Sign (tag : Nat) (io : JobIO) (s : State) : Host.Outcome State Fault Refusal :=
  done (runJob s tag (isType 0x10) io runSign)
/-- ED25519_VERIFY. -/
def execEd25519Verify (tag : Nat) (io : JobIO) (s : State) : Host.Outcome State Fault Refusal :=
  done (runJob s tag (isType 0x11) io runVerify)
/-- X25519. -/
def execX25519 (tag : Nat) (io : JobIO) (s : State) : Host.Outcome State Fault Refusal :=
  done (runJob s tag (isType 0x12) io runX25519)
/-- A SELF_TEST of the DRBG is running: it holds generate requests (R216). -/
def drbgTested (s : State) : Bool :=
  s.jobs.any fun e => isTypeP 0x30 4 e.2.desc && decide (e.2.st = .running) && e.2.done.isNone
/-- GCM_ENC; one with iv_internal draws from the DRBG and waits for its test (R216). -/
def execGcmEnc (tag : Nat) (io : JobIO) (s : State) : Host.Outcome State Fault Refusal :=
  done (runJob s tag (fun d => isType 0x18 d && !((dFlags d).testBit 3 && drbgTested s)) io runGcmEnc)
/-- GCM_DEC. -/
def execGcmDec (tag : Nat) (io : JobIO) (s : State) : Host.Outcome State Fault Refusal :=
  done (runJob s tag (isType 0x19) io runGcmDec)
/-- KEY_GEN. -/
def execKeyGen (tag : Nat) (io : JobIO) (s : State) : Host.Outcome State Fault Refusal :=
  done (runJob s tag (isType 0x20) io runKeyGen)
/-- KEY_PUB. -/
def execKeyPub (tag : Nat) (io : JobIO) (s : State) : Host.Outcome State Fault Refusal :=
  done (runJob s tag (isType 0x21) io runKeyPub)
/-- KEY_IMPORT. -/
def execKeyImport (tag : Nat) (io : JobIO) (s : State) : Host.Outcome State Fault Refusal :=
  done (runJob s tag (isType 0x22) io runKeyImport)
/-- KEY_WRAP. -/
def execKeyWrap (tag : Nat) (io : JobIO) (s : State) : Host.Outcome State Fault Refusal :=
  done (runJob s tag (isType 0x23) io runKeyWrap)
/-- KEY_UNWRAP. -/
def execKeyUnwrap (tag : Nat) (io : JobIO) (s : State) : Host.Outcome State Fault Refusal :=
  done (runJob s tag (isType 0x24) io runKeyUnwrap)
/-- A KEY_INVALIDATE whose slot has ended completes once no unit holds a copy taken from it (R232). -/
def invalidateEnds (s : State) (tag : Nat) (ws : List Walk) : State :=
  match job? s tag with
  | none => s
  | some j =>
    if s.jobs.any fun e => e.2.copies.any fun c => j.gens.contains (c.1, c.2.gen) then s
    else finish s tag (verdict 0) ws
/-- KEY_INVALIDATE: it ends the slot at once (R229, R230), and completes once every copy taken from it has been zeroised (R232). -/
def execKeyInvalidate (tag : Nat) (io : JobIO) (s : State) : Host.Outcome State Fault Refusal :=
  done (
    match job? s tag with
    | none => s
    | some j =>
      let x := kslot s (dKey j.desc)
      if j.st ≠ .running ∨ j.done.isSome ∨ !isType 0x25 j.desc then s
      else if j.gens ≠ [] then invalidateEnds s tag io.walks
      else if x.st ≠ .live ∧ x.st ≠ .orphaned then finish s tag (verdict 0x0C05) io.walks
      else invalidateEnds (setJob (endSlot s (dKey j.desc)) tag { j with gens := [(dKey j.desc, x.gen)] }) tag io.walks)
/-- MEAS_EXTEND. -/
def execMeasExtend (tag : Nat) (io : JobIO) (s : State) : Host.Outcome State Fault Refusal :=
  done (runJob s tag (isType 0x28) io runMeasExtend)
/-- WMS_BUILD; its snapshot waits for a reconcile to end (R321). -/
def execWmsBuild (tag : Nat) (io : JobIO) (s : State) : Host.Outcome State Fault Refusal :=
  if s.reconciling then done s else done (runJob s tag (isType 0x29) io runWms)
/-- POLICY_COMMIT. -/
def execPolicyCommit (tag : Nat) (io : JobIO) (s : State) : Host.Outcome State Fault Refusal :=
  done (runJob s tag (isType 0x2A) io runPolicy)
/-- FW_RECORD. -/
def execFwRecord (tag : Nat) (io : JobIO) (s : State) : Host.Outcome State Fault Refusal :=
  done (runJob s tag (isType 0x2B) io runFwRecord)
/-- ALIAS_CREATE. -/
def execAliasCreate (tag : Nat) (io : JobIO) (s : State) : Host.Outcome State Fault Refusal :=
  done (runJob s tag (isType 0x2C) io runAlias)

/-! ### MANIFEST_CHECK (R173, R174, R199) -/

/-- A MANIFEST_CHECK job of mode `mode` runs on the bytes read from the flash once its reads can be made; one that has been ended
meanwhile completes with its code (R98, R169, R171, R173, R184, R199, R201). -/
def manifestJob (s : State) (tag mode : Nat) (man : Bytes) (dtts : List Bytes) : State :=
  match job? s tag with
  | none => s
  | some j =>
    let isRow := dType j.desc = 0x1F ∧ fieldLe j.desc 0x35 1 = mode
    if j.st ≠ .running ∨ j.done.isSome ∨ !decide isRow ∨ s.reconciling ∨ laneLost s j then s
    else if j.early ≠ 0 then finish s tag { status := j.early, ran := decide (j.early ≠ 0x0E37) } []
    else match manParams s j with
    | none => s
    | some p =>
      if !manifestCan s p man dtts then s else
      let s := if p.key.isNone then (chainCheck s (dKey j.desc)).1 else s
      let (s, code, result) := manifestRun (countUnit s j 0 (manExtent man)) p man dtts
      finish s tag { status := code, result := result, ran := decide (code ≠ 0x0E37) } []

/-- MANIFEST_CHECK_MEASURE. -/
def execManifestCheckMeasure (tag : Nat) (man : Bytes) (s : State) : Host.Outcome State Fault Refusal :=
  done (manifestJob s tag 0 man [])
/-- MANIFEST_CHECK_STAGE. -/
def execManifestCheckStage (tag : Nat) (man : Bytes) (dtts : List Bytes) (s : State) : Host.Outcome State Fault Refusal :=
  done (manifestJob s tag 1 man dtts)
/-- MANIFEST_CHECK_GOLDEN. -/
def execManifestCheckGolden (tag : Nat) (man : Bytes) (s : State) : Host.Outcome State Fault Refusal :=
  done (manifestJob s tag 2 man [])

/-! ### Pre-emption, yield, resumption (R205, R207, R208) -/

/-- The job on a lane gives it up after more whole blocks: the pages it hashed are read, then it parks as PREEMPTED, unless the
next fetch faults (R207, R209). -/
def giveUpLane (s : State) (lane tag : Nat) (j : Job) (blocks : Nat) (io : JobIO) : State :=
  let s := rcount s (reg .lane lane 0x04C) 31 0 1
  let n := min (128 * blocks) (dSrcLen j.desc - j.pos)
  let (s, hs, ws, stop) := match j.sub with
    | .inst i => translateAll s i 1 false tag j.gen (pieces (dSrc j.desc + j.pos) n) io.walks
    | _ => (s, [(0, n)], io.walks, none)
  let got := (hs.map (·.2)).foldl (· + ·) 0
  let j' := advance j (jobSrc s j io) (jobAux s j io) (got / 128)
  let s := rcount s (reg .lane lane 0x048) 31 0 (got / 128)
  match stop with
  | some (.err code) => finish s tag { status := code } ws
  | some _ => park (setJob s tag j') tag .faultFetch ws
  | none => park (setJob s tag j') tag .preempted ws

/-- A SELF_TEST waits for lane `lane` itself (R216). -/
def testWaits (s : State) (lane : Nat) : Bool :=
  s.jobs.any fun e => e.2.tests && waitsFor s e.2 0 lane && decide (testNext s e.2 = some lane)
/-- Port `n` has flash-path work pending: a chunk ready, leaves to fetch, frames to refill, or a sequence that hashes blocks (R31). -/
def flashPending (s : State) (n : Nat) : Bool :=
  let p := port s n
  portOn s n && (chunkReady s n || !p.leafReqs.isEmpty || !p.refills.isEmpty ||
    (match p.seq with
     | .treeLoad => true
     | .fill _ _ _ => true
     | .goldenVerify => true
     | .copy => true
     | _ => false))

/-- PREEMPTION (R32, R206, R207, R209, R216): for flash-path work that finds no idle lane, the lowest-priority job running on any lane;
or the job on a lane that has been reserved or is to be tested.  The test of a reserved lane is flash-path work itself. -/
def execPreemption (lane blocks : Nat) (io : JobIO) (s : State) : Host.Outcome State Fault Refusal :=
  done (
    match unitJob s 0 lane with
    | none => s
    | some (tag, j) =>
      let low (x : Job) : Nat := if x.cls = 0 then 0 else 1
      let lowest := (s.jobs.filter fun e => (List.range 8).any e.2.holdsLane).all fun e => e.2.onRes || decide (low e.2 ≤ low j)
      let wanted := (List.range 16).any (flashPending s) && (flashLane s).isNone && !schedulerHeld s
      if j.st ≠ .running ∨ j.onRes ∨ !((wanted && lowest) || laneReserved s lane || testWaits s lane) then s
      else giveUpLane s lane tag j blocks io)

/-- YIELD (R205): a hash job that has hashed slice KiB since it last started, while a job of its own or a higher class waits
for a lane. -/
def execYield (lane blocks : Nat) (io : JobIO) (s : State) : Host.Outcome State Fault Refusal :=
  done (
    match unitJob s 0 lane with
    | none => s
    | some (tag, j) =>
      let slice := rfld s (reg .cje 0 0x040) 7 0
      let low (x : Job) : Nat := if x.cls = 0 then 0 else 1
      let hashed := min (128 * blocks) (dSrcLen j.desc - j.pos) / 128
      let waiting := s.jobs.any fun e => waitsFor s e.2 0 lane && decide (low e.2 ≤ low j)
      if slice = 0 ∨ hashed < 8 * slice ∨ !waiting ∨ !j.onLane ∨ j.st ≠ .running then s
      else giveUpLane s lane tag j blocks io)

/-- The keys of a resuming job are checked again: one whose slot has ended meanwhile, filled again or not, ends it (R232). -/
def resumeKeys (s : State) (tag : Nat) (j : Job) (ws : List Walk) (k : State → Job → State) : State :=
  if j.gens.any fun g => decide ((kslot s g.1).gen ≠ g.2) then finish s tag { status := 0x0C05 } ws else
  match takeKeys s j.sub (keysOf s j.sub j.desc) with
  | (s, some _, _) => finish s tag { status := 0x0C05 } ws
  | (s, none, cs) => k s { j with copies := cs }

/-- The context record is read and checked (R204); an instance's lies at an address the ITU translates (access 6). -/
def readRecord (s : State) (tag : Nat) (j : Job) (rec : Bytes) (ws : List Walk) (k : State → Job → List Walk → State) : State :=
  let use (s : State) (r : Bytes) (ws : List Walk) : State :=
    if (hmac s.ctxKey (sliceZ r 0 0xF0)).take 16 ≠ sliceZ r 0xF0 16 then finish s tag { status := 0x0C0A } ws
    else k s { j with mid := if j.hashes then sliceZ r 0 80 else [], pos := if j.hashes then fieldLe r 0x50 8 else 0 } ws
  match j.sub with
  | .core q => use s (sramRead s (ctxBase s (.core q) + 256 * j.slot) 256) ws
  | .inst i =>
    (match translate s i (ctxBase s (.inst i) + 256 * j.slot) 6 false (some tag) j.gen (nextWalk ws) with
     | (s, .ok _) => use s (sliceZ rec 0 256) (ws.drop 1)
     | (s, .park) => setJob s tag { j with st := .faultFetch, faulted := true }
     | (s, .err code) => finish s tag { status := code } (ws.drop 1))
  | .remote _ _ _ _ => k s j ws

/-- JOB_RESUME (R203, R204, R207, R208): a PREEMPTED job on a free unit of its kind, from its context record or its save buffer, a curve
job beside it on the first free lane.  While LOCKED a job that uses a key slot completes with 0x0C19 (R238). -/
def execJobResume (tag unit : Nat) (rec : Bytes) (ws : List Walk) (s : State) : Host.Outcome State Fault Refusal :=
  done (
    match job? s tag with
    | none => s
    | some j =>
      if j.st ≠ .preempted then s
      else if s.locked ∧ usesSlot j.desc then finish s tag { status := 0x0C19, ran := false } ws else
      match (if j.recSaved ∨ j.buf then none else forwards s j), j.sub with
      | some node, .inst i => forwardJob s tag j i node ws
      | _, _ =>
      if dType j.desc = 0x30 then
        (if testFree s j.desc unit then startTest s tag j fun s j => startJob s tag j (testUnit j.desc unit) else s)
      else match unitKind s j.desc with
      | none => startJob s tag { j with buf := false } none
      | some k =>
        let lane := if needsLane j.desc then (List.range s.part.lanes).find? (unitFree s 0) else none
        let j := { j with lane := lane }
        if !unitFree s k unit ∨ (needsLane j.desc ∧ lane = none) ∨ !mayStart s j ((k, unit) :: lane.toList.map fun m => (0, m)) ∨
            ((j.onLane ∨ j.onAes) ∧ saveFree s < 10) then s
        else if j.onLane ∧ j.recSaved then
          readRecord s tag j rec ws fun s j ws => resumeKeys s tag j ws fun s j =>
            startJob s tag { j with buf := false } (some (k, unit))
        else resumeKeys s tag j ws fun s j => startJob s tag { j with buf := false } (some (k, unit)))

/-- COMPLETION_WRITE (R200, R208): a finished job's outputs and entry are written. -/
def execCompletionWrite (tag : Nat) (ws : List Walk) (s : State) : Host.Outcome State Fault Refusal :=
  done (
    match job? s tag with
    | none => s
    | some j => if j.st = .running ∧ j.done.isSome then deliver s tag ws else s)

/-- JOB_TIMEOUT (R211). -/
def execJobTimeout (tag : Nat) (ws : List Walk) (s : State) : Host.Outcome State Fault Refusal :=
  done (fire s (.job tag) fun s =>
    match job? s tag with
    | none => s
    | some _ => finish s tag { status := 0x0C0C } ws)

/-! ### Self-tests (R214 to R216) -/

/-- The page of a unit's KAT bit, if it has one. -/
def katPage (b : Nat) : Option (PageKind × Nat) :=
  if b < 8 then some (.lane, b) else if b < 12 then some (.curve, b - 8) else if b < 14 then some (.aes, b - 12) else none
/-- The result of a unit's test (R214, R216, R219). -/
def setKat (s : State) (b : Nat) (ok : Bool) : State :=
  let was := katFail s b
  let s := rsetb (rsetb s (reg .cje 0 0x050) b ok) (reg .cje 0 0x054) b (!ok)
  if ok ∨ was then s
  else
    let s := irq s .cje 0 5
    match katPage b with | some (k, i) => irq s k i 0 | none => s

/-- The tests of a SELF_TEST of every unit from its next one: up to a unit that is busy, with those that failed (R216). -/
def testAll (s : State) (bad : Word) (j : Job) : List Nat → State × Job
  | [] => (s, j)
  | b :: t =>
    let ready : Bool := match katUnit b with
      | some (k, m) => testReady s k m
      | none => decide (b ≠ 14) || (List.range s.part.lanes).any (unitFree s 0)
    if ready then testAll (setKat s b (!bit bad b)) bad { j with pos := j.pos + 1, fails := j.fails + (if bit bad b then 2 ^ b else 0) } t
    else (s, j)

/-- SELF_TEST (R215, R216): the vectors of its target, a set bit of `bad` for each unit that mismatches; of every unit one after the
other, as far as none of them is busy. -/
def execSelfTest (tag : Nat) (bad : Word) (s : State) : Host.Outcome State Fault Refusal :=
  done (
    match job? s tag with
    | none => s
    | some j =>
      if j.st ≠ .running ∨ j.done.isSome ∨ dType j.desc ≠ 0x30 then s else
      match testTargets s j.desc with
      | none => s
      | some bs =>
        if dParam j.desc 0 = 6 then
          (let (s, j) := testAll s bad j (bs.drop j.pos)
           if j.pos < bs.length then setJob s tag j
           else finish s tag { status := if j.fails = 0 then 0 else 0x0C12, result := j.fails } [])
        else if j.onRes ∧ (List.range 16).any (chunkReady s) then s
        else
          let fails := bs.filter fun b => bit bad b
          let s := bs.foldl (fun s b => setKat s b (!bit bad b)) s
          finish (tstop s (.selfTest tag)) tag
            { status := if fails = [] then 0 else 0x0C12, result := b2n (decide (fails ≠ [])) } [])
/-- SELF_TEST_TIMEOUT (R216): the lane's state is unchanged. -/
def execSelfTestTimeout (tag : Nat) (s : State) : Host.Outcome State Fault Refusal :=
  done (fire s (.selfTest tag) fun s =>
    match job? s tag with
    | none => s
    | some _ => finish s tag { status := 0x0C14 } [])
/-- ENTROPY_HEALTH_FAILURE (R214, R248). -/
def execEntropyHealthFailure (s : State) : Host.Outcome State Fault Refusal := done (irq (setKat s 16 false) .kv 0 2)

end Sys2Proof.Machine
end

