-- ==== Sys2Proof/Machine/SvcBase.lean ====
section
/-! DEFINITION. Machine/SvcBase.lean: the end of a service-port session (R372), which LOCKED causes too. -/
namespace Sys2Proof.Machine

/-- A register of the SVC page. -/
def svcReg (off : Nat) : Nat := reg .svc 0 off
/-- A session ends: stg_enable clears (R372); `code` is 0 after SESSION_CLOSE. -/
def endSession (s : State) (code : Nat) : State :=
  if !s.svc.session then s else
  let s := tstop { s with svc := { s.svc with session := false, erased := [] } } .svcSession
  let s := irq (rsetb s (svcReg 0x044) 0 false) .svc 0 1
  if code = 0 then s else report s .svc 0 code 0 3
/-- Entry to LOCKED ends a session (R372). -/
def lockSession (s : State) : State := endSession s 0x013C

end Sys2Proof.Machine
end

