-- ==== Sys2Proof/Machine/Tem.lean ====
section
/-! DEFINITION. Machine/Tem.lean: the tamper and environment monitor (R327 to R341). -/
namespace Sys2Proof.Machine

/-- A D5 record (R337). -/
def d5Record (s : State) (kind src : Nat) (signer : Bytes) : Bytes :=
  leBytes 1 kind ++ leBytes 1 src ++ leBytes 2 (tamperNow s) ++ leBytes 2 ((ackCount s).getD 0xFFFF) ++ zeros 2 ++
  leBytes 8 s.tbTime ++ (if kind = 2 then (sha512 signer).take 16 else zeros 16)

/-- HOLD to every port that is not in HELD or QUARANTINED, under reset_all (R331). -/
def holdAll (s : State) : State :=
  if !rbit s (temReg 0x044) 0 then s else
  (List.range s.part.ports).foldl (fun s n =>
    let st := (port s n).st
    if portOn s n ∧ st ≠ .held ∧ st ≠ .quarantined then holdPort s n else s) s

/-- The job holds a copy of a key: one it took from a slot it names, or the key that its type implies (R232, R238). -/
def Job.keyed (j : Job) : Bool :=
  decide (j.copies ≠ []) || (j.unit.isSome && (dType j.desc = 0x1F || dType j.desc = 0x29 || dType j.desc = 0x2C))
/-- Jobs that hold a key copy stop (R331). -/
def stopKeyJobs (s : State) : State :=
  (jobsWith s fun j => decide (j.st = .running) && j.done.isNone && j.keyed).foldl
    (fun s e => finishLater s e.1 (verdict 0x0C19)) s

/-- The device enters LOCKED at the first alarm of a period (R329, R331, R332). -/
def enterLocked (s : State) (src : Nat) : State :=
  let info := mk 7 0 src ||| mk 17 8 (tamperNow s) ||| mk 31 31 1
  let s := { s with locked := true, tem := { s.tem with info := info } }
  holdAll (irq (hwExtend (lockSession (stopKeyJobs s)) 5 (d5Record s 1 src [])) .tem 0 0)

/-- An alarm of source `src` (R329). -/
def alarm (s : State) (src : Nat) : State :=
  let s := irq (rcount s (temReg 0x040) 31 16 1) .tem 0 1
  let s := if s.tem.observe then s
    else { s with tem := { s.tem with latch := true }, tamperDue := if tamperNow s ≥ 512 then s.tamperDue else s.tamperDue + 1 }
  let s := rset s (temReg 0x054) (mk 7 0 src ||| mk 17 8 (tamperNow s) ||| mk 31 31 1)
  wakeSource (if s.tem.observe ∨ s.locked then s else enterLocked s src) 6

/-! ### Samples and the N-of-M rule (R327, R328) -/

/-- The rule of a class: N and the window in cycles. -/
def classRule (s : State) (c : Nat) : Nat × Nat :=
  let w := rget s (temReg (0x060 + 4 * c))
  if c ∈ [0, 1, 2, 4] then (fld w 3 0, 100 * fld w 23 4) else (1, 100)

/-- A source meets its condition: an alarm, and its excursions count again only after one sample without one (R328). -/
def meetsCondition (s : State) (src : Nat) : State :=
  alarm { s with tem := { s.tem with excs := s.tem.excs.erase src, met := src :: s.tem.met.filter (· != src) } } src
/-- A sample of source `src`: an excursion or not.  At N excursions within the window the source meets its condition, and its
excursions count again after one sample without one (R328). -/
def sample (s : State) (src : Nat) (exc : Bool) : State :=
  if !exc then { s with tem := { s.tem with met := s.tem.met.filter (· != src) } }
  else if s.tem.met.contains src then s
  else
    let (n, m) := classRule s (src / 32)
    let old := (Tbl.get (fun _ => []) s.tem.excs src).filter fun t => decide (s.tbTime ≤ t + m)
    let now := s.tbTime :: old
    if now.length < n then { s with tem := { s.tem with excs := Tbl.set (fun _ => ([] : List Nat)) s.tem.excs src now } }
    else meetsCondition s src

/-- The TEM runs: its block is out of reset. -/
def temUp (s : State) : Bool := decide (s.rst = .none)

/-- A conversion of analog sensor `k`: whether its code is an excursion, and the sample register loaded. -/
def convert (s : State) (k code : Nat) : State × Bool :=
  let w := rget s (temReg (0x080 + 4 * k))
  let c := code % 2 ^ 14
  let exc := decide (c < fld w 13 0) || decide (fld w 29 16 < c)
  (rset s (temReg (0x0C0 + 4 * k)) (mk 13 0 c ||| mk 31 31 (b2n exc)), exc)

/-- SUPPLY_SAMPLE (R327): supply sensor `i` converts `code`. -/
def execSupplySample (i code : Nat) (s : State) : Host.Outcome State Fault Refusal :=
  done (if !temUp s ∨ i > 6 then s else let (s, exc) := convert s i code; sample s i exc)

/-- TEMPERATURE_SAMPLE (R327): junction sensor `i` converts `code`. -/
def execTemperatureSample (i code : Nat) (s : State) : Host.Outcome State Fault Refusal :=
  done (if !temUp s ∨ i > 3 then s else let (s, exc) := convert s (7 + i) code; sample s (0x20 + i) exc)

/-- TBCLK_GLITCH (R327): at a TBCLK edge the detector finds a short period or phase, or (`bad` false) none. -/
def execTbclkGlitch (bad : Bool) (s : State) : Host.Outcome State Fault Refusal :=
  done (if !temUp s ∨ s.tbLoss then s else sample s 0x40 bad)

/-- MESH_PASS (R327): a pass ends, with a break or short found or not. -/
def execMeshPass (bad : Bool) (s : State) : Host.Outcome State Fault Refusal :=
  done (if temUp s then sample s 0x60 bad else s)

/-- CASE_INPUT_CHANGE (R327): the filtered level of CASE_N[i] is `level`; the filter keeps its level during timebase loss (R55). -/
def execCaseInputChange (i : Nat) (level : Bool) (s : State) : Host.Outcome State Fault Refusal :=
  done (if !temUp s ∨ s.tbLoss ∨ i > 3 ∨ !rbit s (temReg 0x048) i then s
    else sample s (0x80 + i) (level == rbit s (temReg 0x048) (4 + i)))

/-- The battery window closes with a fresh canary (R336). -/
def closeWindow (s : State) : State :=
  let s := tstop (tstop s .battWin) .battOk
  irq (freshCanary { s with tem := { s.tem with window := false, dipped := false } }) .tem 0 3

/-- VBAT_SAMPLE (R327, R336): the VBAT monitor converts `code`; in a battery window it makes no excursion. -/
def execVbatSample (code : Nat) (s : State) : Host.Outcome State Fault Refusal :=
  done (
    if !temUp s then s else
    let w := rget s (temReg (0x080 + 4 * 11))
    let c := code % 2 ^ 14
    let low := decide (c < fld w 13 0)
    let inside := !low && decide (c ≤ fld w 29 16)
    let s := rset s (temReg (0x0C0 + 4 * 11)) (mk 13 0 c ||| mk 31 31 (b2n (low && !s.tem.window)))
    let s := sample s 0xA0 (low && !s.tem.window)
    if !s.tem.window then s
    else if low then tstop { s with tem := { s.tem with dipped := true } } .battOk
    else if !inside then tstop s .battOk
    else if s.tem.dipped ∧ (tget s .battOk).isNone then tset s .battOk (ms 1000)
    else s)

/-- BATTERY_WINDOW_CLOSE (R336): VBAT has been in limits for 1 s after its dip. -/
def execBatteryWindowClose (s : State) : Host.Outcome State Fault Refusal := done (fire s .battOk closeWindow)

/-- BATTERY_WINDOW_EXPIRY (R336): the window's time runs out. -/
def execBatteryWindowExpiry (s : State) : Host.Outcome State Fault Refusal :=
  done (fire s .battWin fun s =>
    let low := decide (sampleCode s 11 < rfld s (temReg (0x080 + 4 * 11)) 13 0)
    let s := closeWindow s
    if low then meetsCondition s 0xA0 else s)

/-- The codes a monitored state register may hold (R327): the index of class 6 and its set. -/
def stateCodes (i : Nat) : List Nat :=
  if i < 16 then [0x3C, 0x5A, 0x66, 0x96, 0xA5, 0xC3, 0x99]
  else match i with
    | 16 => [0x3C, 0x55, 0x5A, 0x69, 0x96, 0x33, 0x99, 0xA5, 0xAA, 0xCC, 0xC3]
    | 17 => [0x0F, 0x33, 0x55, 0x66]
    | 18 => [0x0F, 0x33, 0x55, 0x66]
    | 19 => [0x0F, 0x33, 0x55, 0x66]
    | 20 => [0x99, 0xAA, 0xCC]
    | _ => [0x55, 0x33, 0xCC]

/-- STATE_CODE_CHECK (R327): the register of source index `i` is found to hold `code`. -/
def execStateCodeCheck (i code : Nat) (s : State) : Host.Outcome State Fault Refusal :=
  done (if !temUp s ∨ i > 21 ∨ (i < 16 ∧ !pagePresent s.part .fgpCtl i) then s
    else sample s (0xC0 + i) (!(stateCodes i).contains code))

/-- TIMEBASE_LOSS_PERSISTS (R56): the loss meets the clock-class condition whatever N is. -/
def execTimebaseLossPersists (s : State) : Host.Outcome State Fault Refusal :=
  done (if !temUp s ∨ !s.tbLoss ∨ s.tem.met.contains 0x41 then s
    else meetsCondition s 0x41)

/-! ### The fuse sense and unlock (R333, R334, R336, R339) -/

/-- The TEM's state after a fuse sense (R339); `por` at the end of POR, when canary and acknowledged count are checked (R333). -/
def temSense (s : State) (por : Bool) : State :=
  let lc := (lifeCycle s).1
  if lc = 0 ∨ lc = 3 then { s with locked := false, tem := { s.tem with observe := true } }
  else
    let s := { s with tem := { s.tem with observe := false } }
    if por ∧ (!canaryOk s ∨ (ackCount s).isNone) then
      let s := { s with tem := { s.tem with ack := 0 }, locked := s.tem.latch }
      alarm (if s.locked then holdAll s else s) 0xA1
    else if lockCondition s then holdAll { s with locked := true }
    else { s with locked := false }

/-- An accepted unlock token ends LOCKED (R335, R336, R339). -/
def unlock (s : State) (signer : Bytes) : State :=
  let s := { freshBackup s with locked := false }
  let s := hwExtend s 5 (d5Record s 2 0 signer)
  (List.range s.part.ports).foldl portUnlocked s

/-- An accepted battery-service token opens the window (R336). -/
def openWindow (s : State) : State :=
  let m := max 1 (rfld s (temReg 0x044) 13 8)
  irq (tset { s with tem := { s.tem with window := true, dipped := false } } .battWin (ms (60000 * m))) .tem 0 2

/-! ### Register writes (R336, R340) -/

/-- BOOT_TOKEN_STATUS. -/
def tokenStatus : Nat := reg .rom 0 0x064
/-- A complete token enters the token buffer (R265, R336). -/
def loadToken (s : State) (t : Bytes) : State := rsetb { s with token := t } tokenStatus 16 true

/-- Writes to the TEM page. -/
def temWrite (s : State) (c : WCtx) : State :=
  let o := c.off % 4096
  if o = 0x058 then
    if fld c.data 31 16 ≠ 0xA5C3 then refuseW s .tem 0 0x0705 c
    else if bit c.data 0 then loadToken s ((rbytes s (reg .rom 0 0x400) 44).take 176) else s
  else if 0x060 ≤ o ∧ o < 0x07C then
    if c.locked ∨ c.new = c.old then storeW s c
    else if fld c.new 3 0 = 0 ∨ fld c.new 23 4 = 0 ∨ fld c.new 23 4 > 1000000 then refuseW s .tem 0 0x0704 c
    else storeW s c
  else if 0x080 ≤ o ∧ o < 0x0B0 then
    if !c.locked ∧ fld c.new 29 16 < fld c.new 13 0 then refuseW s .tem 0 0x0704 c else storeW s c
  else storeW s c

end Sys2Proof.Machine
end

