-- ==== Sys2Proof/Machine/Wd.lean ====
section
/-! DEFINITION. Machine/Wd.lean: boot and task watchdogs (R342 to R354). -/
namespace Sys2Proof.Machine

/-- A register of the boot watchdog page. -/
def bwdReg (off : Nat) : Nat := reg .bwd 0 off
/-- A register of the task watchdog page. -/
def twdReg (off : Nat) : Nat := reg .twd 0 off
/-- BWD_STATUS.state (R342). -/
def bwdState (s : State) : Nat := rfld s (bwdReg 0x040) 7 0

/-- The boot watchdog's count loaded (R342); it warns at half only outside the ROM. -/
def bwdLoad (s : State) (cycles : Nat) (warns : Bool) : State :=
  let s := tset (tstop s .bwdHalf) .bwd cycles
  if warns then tset s .bwdHalf (cycles - cycles / 2) else s
/-- A reset that covers the block: state ROM, 1 s (R342). -/
def bwdReset (s : State) : State := bwdLoad s (ms 1000) false
/-- The boot watchdog is retired: DONE (R342). -/
def bwdRetire (s : State) : State :=
  irq (rsetf (tstop (tstop s .bwd) .bwdHalf) (bwdReg 0x040) 7 0 0x66) .bwd 0 1

/-- Writes to the boot watchdog page (R342, R343). -/
def bwdWrite (s : State) (c : WCtx) : State :=
  let o := c.off % 4096
  let ok := decide (c.acc.master = 0) && c.acc.priv && decide (bwdState s = 0x0F)
  let keyed := ok && decide (fld c.data 31 16 = 0xA5C3)
  if o = 0x048 then
    if !keyed then refuseW s .bwd 0 0x0501 c else if bit c.data 0 then bwdLoad s (ms 1000) false else s
  else if o = 0x04C then
    if !ok then refuseW s .bwd 0 0x0501 c
    else if fld c.new 21 0 < 1000 ∨ fld c.new 21 0 > 3600000 then refuseW s .bwd 0 0x0502 c
    else storeW s c
  else if o = 0x050 then
    if !keyed then refuseW s .bwd 0 0x0501 c
    else if !bit c.data 0 then s
    else
      let s := rsetf s (bwdReg 0x040) 7 0 (if bit c.data 1 then 0x55 else 0x33)
      let s := rsetf s (reg .rom 0 0x040) 23 16 0
      bwdLoad s (ms (rfld s (bwdReg 0x04C) 21 0)) true
  else storeW s c

/-- BWD_HALF_PERIOD (R342). -/
def execBwdHalfPeriod (s : State) : Host.Outcome State Fault Refusal :=
  done (fire s .bwdHalf fun s => irq (rsetb s (bwdReg 0x040) 8 true) .bwd 0 0)

/-! ### Task watchdog (R346 to R351) -/

/-- TWD_STATUS.state. -/
def twdState (s : State) : Nat := rfld s (twdReg 0x040) 7 0
/-- The task watchdog is ON or in PREBITE. -/
def twdOn (s : State) : Bool := decide (twdState s ≠ 0x99)
/-- The binding of slot `k` (R347). -/
def twdBinding (s : State) (k : Nat) : Nat := rfld s (twdReg (0x080 + 4 * k)) 7 0
/-- Slot `k` is armed. -/
def twdArmed (s : State) (k : Nat) : Bool := rbit s (twdReg 0x04C) k
/-- The count stands still under R351: a halted core is bound to an armed slot and dbg_freeze is set. -/
def twdStops (s : State) : Bool :=
  rbit s (twdReg 0x044) 0 && (List.range 32).any fun k => twdArmed s k && bit s.halted (twdBinding s k)
/-- The count stopped or resumed as R351 now says. -/
def twdFreeze (s : State) : State :=
  if !twdOn s then s
  else match s.twdHeld, twdStops s with
    | none, true =>
      (match tget s .twd with
       | some p =>
         let g := tget s .twdGrace
         rsetb (tstop (tstop { s with twdHeld := some (p, g) } .twd) .twdGrace) (twdReg 0x040) 8 true
       | none => s)
    | some (p, g), false =>
      let s := rsetb (tset { s with twdHeld := none } .twd p) (twdReg 0x040) 8 false
      (match g with | some n => tset s .twdGrace n | none => s)
    | _, _ => s

/-- A period's length in cycles. -/
def twdPeriod (s : State) : Nat := us (rfld s (twdReg 0x048) 23 0)

/-- TWD_ARM: slots armed; the first bit turns the task watchdog on and retires the boot watchdog in FIRST_STAGE (R342, R346).  Period 1
starts at the next TBCLK edge (R348). -/
def twdArm (s : State) (c : WCtx) : State :=
  let fresh := c.data &&& ~~~ c.old
  if c.data = 0 then s
  else if twdOn s then twdFreeze { storeW s c with twdNew := s.twdNew ||| fresh }
  else
    let s := tset (rsetf (storeW s c) (twdReg 0x040) 7 0 0xAA) .twd (twdPeriod s + 1)
    twdFreeze (if bwdState s = 0x33 then bwdRetire s else s)

/-- A foreign check-in of slot `k` is recorded (R349). -/
def twdForeign (s : State) (a : Acc) (k : Nat) : State :=
  let n := rfld s (twdReg 0x060) 31 24
  irq (rset s (twdReg 0x060) (mk 4 0 k ||| mk 15 8 a.master.toNat ||| mk 16 16 (b2n a.priv) ||| mk 31 24 (satAdd n 1 255))) .twd 0 2
/-- A check-in (R348, R349). -/
def twdCheckin (s : State) (c : WCtx) : State :=
  let k := fld c.data 4 0
  if fld c.data 31 16 ≠ 0xA5C3 then refuseW s .twd 0 0x0601 c
  else if !twdArmed s k then refuseW s .twd 0 0x0604 c
  else if c.acc.master.toNat ≠ twdBinding s k ∨ !c.acc.priv then
    twdForeign (busLog s c.acc true c.off 4 c.data .rights) c.acc k
  else if rbit s (twdReg 0x054) k then irq (rsetb s (twdReg 0x058) k true) .twd 0 1
  else rsetb s (twdReg 0x054) k true

/-- Writes to the task watchdog page (R346, R347). -/
def twdWrite (s : State) (c : WCtx) : State :=
  let o := c.off % 4096
  if o = 0x04C then twdArm s c
  else if o = 0x050 then twdCheckin s c
  else if o = 0x048 then
    if twdOn s then refuseW s .twd 0 0x0602 c
    else if c.locked then s
    else if fld c.new 23 0 < 100 ∨ fld c.new 23 0 > 10000000 then refuseW s .twd 0 0x0603 c
    else storeW s c
  else if 0x080 ≤ o ∧ o < 0x100 then
    if twdOn s ∧ twdArmed s ((o - 0x080) / 4) then refuseW s .twd 0 0x0602 c
    else if c.locked then s
    else if fld c.new 7 0 > 3 then refuseW s .twd 0 0x0603 c
    else storeW s c
  else if o = 0x044 then twdFreeze (storeW s c)
  else storeW s c

/-- What a write to the watchdogs that its master has no right to make does beside its record: a boot-watchdog write is not accepted
(R343), and a check-in is a foreign one, or names an unarmed slot or a wrong key (R349). -/
def wdRefused (s : State) (k : PageKind) (a : Acc) (o : Nat) (data : Word) : State :=
  let c : WCtx := ⟨a, reg k 0 o, data, 0, 0, false⟩
  if k = .bwd ∧ o ∈ [0x048, 0x04C, 0x050] then refuseW s .bwd 0 0x0501 c
  else if k = .twd ∧ o = 0x050 then
    if fld data 31 16 ≠ 0xA5C3 then refuseW s .twd 0 0x0601 c
    else if !twdArmed s (fld data 4 0) then refuseW s .twd 0 0x0604 c
    else twdForeign s a (fld data 4 0)
  else s

/-- TWD_PERIOD_END (R350): missing slots, the pre-bite interrupt and the grace time; the next period starts at once. -/
def execTwdPeriodEnd (s : State) : Host.Outcome State Fault Refusal :=
  done (fire s .twd fun s =>
    let missing := rget s (twdReg 0x04C) &&& ~~~ rget s (twdReg 0x054) &&& ~~~ s.twdNew
    let s := tset { rset (rcount s (twdReg 0x064) 31 0 1) (twdReg 0x054) 0 with twdNew := 0 } .twd (twdPeriod s)
    if missing = 0 then s
    else if twdState s = 0xCC then irq (rset s (twdReg 0x05C) (rget s (twdReg 0x05C) ||| missing)) .twd 0 0
    else
      let s := irq (rset (rsetf s (twdReg 0x040) 7 0 0xCC) (twdReg 0x05C) missing) .twd 0 0
      tset s .twdGrace (10000 * max 1 (rfld s (twdReg 0x044) 31 16)))

end Sys2Proof.Machine
end

