-- ==== Sys2Proof/Machine/Boot.lean ====
section
/-! DEFINITION. Machine/Boot.lean: the boot flash port, the push window, the release of Dill 0 to 2 and the TAP (R265 to R270, R276 to
R278, R295, R300, R301). -/
namespace Sys2Proof.Machine

/-- A register of the ROM interface page. -/
def romReg (off : Nat) : Nat := reg .rom 0 off
/-- An error of the BOOT block at a page offset. -/
def bootErr (s : State) (code off : Nat) : State := report s .rom 0 code off 1
/-- BOOT_NONCE. -/
def bootNonce (s : State) : Bytes := rbytes s (romReg 0x080) 8

/-! ### The boot flash port (R276 to R278, R300) -/

/-- Settings blocks 2 to 63 of the protected region (R283). -/
def inSettings (a n : Nat) : Bool := decide (a < 0x02040000) && decide (0x02002000 < a + n)
/-- The flash bytes a program or an erase changes: start and length. -/
def bfSpan (op addr len : Nat) : Nat × Nat :=
  match op with
  | 3 => (addr / 4096 * 4096, 4096)
  | 4 => (addr / 65536 * 65536, 65536)
  | _ => (addr, len)
/-- A BOOT_BF_CMD command is refused (R278, R286, R300, R331). -/
def bfBad (s : State) (op addr buf len : Nat) : Bool :=
  let sp := bfSpan op addr len
  let badBuf := !sramOk buf len
  if op = 0 ∨ op > 4 ∨ addr % 4 ≠ 0 then true
  else if op = 1 then decide (len = 0) || decide (len > 4096) || decide (addr + len > 0x02100000) || badBuf
  else
    s.locked || decide (sp.1 < 0x02000000) || decide (sp.1 + sp.2 > 0x02100000) ||
    (rbit s (romReg 0x100) 8 && inSettings sp.1 sp.2) ||
    (op == 2 && (decide (len = 0) || decide (len > 256) || decide (addr % 256 + len > 256) || badBuf))

/-- The boot flash command ends with a code (R300). -/
def bfEnd (s : State) (code : Nat) : State :=
  let s := { tstop (tstop s .bfPoll) .bfMax with bf := none }
  let s := rset s (romReg 0x12C) (mk 31 16 code)
  irq (if code = 0 then s else bootErr s code 0x128) .rom 0 3

/-- The command in progress goes out to the chip, its polls starting (R277). -/
def bfIssue (s : State) (b : BfRun) : State :=
  let s := { s with bf := some { b with sent := true } }
  if b.op = 1 then emit s (.bootFlash 0x6C b.addr b.len [])
  else
    let s := emit s (.bootFlash 0x06 0 0 [])
    let s := tset (tset s .bfPoll (us 2)) .bfMax (if b.op = 2 then ms 10 else ms 2000)
    match b.op with
    | 2 => emit s (.bootFlash 0x34 b.addr 0 (sramRead s b.buf b.len))
    | 3 => emit s (.bootFlash 0x21 b.addr 0 [])
    | _ => emit s (.bootFlash 0xDC b.addr 0 [])
/-- A command accepted during timebase loss goes out when TBCLK has returned (R55). -/
def bfResume (s : State) : State :=
  match s.bf with
  | some b => if b.sent then s else bfIssue s b
  | none => s

/-- A write of BOOT_BF_CMD (R300). -/
def bfCmdWrite (s : State) (c : WCtx) : State :=
  if rbit s (romReg 0x12C) 0 then busyW s c else
  let op := fld c.data 3 0
  let len := fld c.data 28 16
  let addr := (rget s (romReg 0x120)).toNat
  let buf := (rget s (romReg 0x124)).toNat
  if bfBad s op addr buf len then bfEnd s 0x013C
  else
    let b : BfRun := ⟨op, addr, buf, len, false, false⟩
    let s := rset { s with bf := some b } (romReg 0x12C) 1
    if s.tbLoss then s else bfIssue s b

/-- BF_BUSY_POLL (R277): the poll that is due; `wip` is the chip's busy bit. -/
def execBfBusyPoll (wip : Bool) (s : State) : Host.Outcome State Fault Refusal :=
  done (fire s .bfPoll fun s =>
    let s := emit s (.bootFlash 0x05 0 1 [])
    match s.bf with
    | some b => if wip then tset s .bfPoll (us 2) else { tstop s .bfMax with bf := some { b with ready := true } }
    | none => s)

/-! ### The push window (R295, R296, R301, R363) -/

/-- The push window is open. -/
def pushOpen (s : State) : Bool := rbit s (romReg 0x118) 0
/-- Its owner: 0 none, 1 PCIe, 2 Lomes, 3 service port. -/
def pushSource (s : State) : Nat := rfld s (romReg 0x118) 4 3
/-- Source `src` may write: the window is open, and its owner is none or `src`; the service port in RECOVERY only (R295). -/
def mayPush (s : State) (src : Nat) : Bool :=
  pushOpen s && (decide (pushSource s = 0) || decide (pushSource s = src)) &&
  (decide (src ≠ 3) || decide (s.sage = .window true))
/-- The source that writes first becomes the owner (R295). -/
def ownPush (s : State) (src : Nat) : State := rsetf s (romReg 0x118) 4 3 src
/-- Enabled bytes written to boot SRAM. -/
def bootWriteBytes (m : Tbl Byte) (off : Nat) : List (Option Byte) → Tbl Byte
  | [] => m
  | b :: t => bootWriteBytes (match b with | some v => Tbl.set zeroByte m off v | none => m) (off + 1) t
/-- A push write by a source that may push. -/
def pushBytes (s : State) (src off : Nat) (bs : List (Option Byte)) : State :=
  ownPush { s with bootSram := bootWriteBytes s.bootSram off bs } src
/-- The ROM kicks the boot watchdog (R343). -/
def romKick (s : State) : State := if bwdState s = 0x0F then bwdLoad s (ms 1000) false else s
/-- The window opens with no owner (R295, R296); the step register says RECOVERY or FW_SELECT. -/
def openPush (s : State) (recovery : Bool) : State :=
  let s := romKick s
  let s := rsetf (rsetf (rsetb s (romReg 0x118) 0 true) (romReg 0x118) 2 2 0) (romReg 0x118) 4 3 0
  let s := rsetb s (romReg 0x118) 1 (!rbit s (romReg 0x050) 3)
  rsetf { s with sage := .window recovery, bootLock := false } (romReg 0x048) 7 0 (if recovery then 0xC3 else 0x69)
/-- Ownership by PCIe is released, the pushed bytes are zeroed and the window reopens with no owner (R362). -/
def releasePush (s : State) : State :=
  if pushOpen s ∧ pushSource s = 1 then ownPush { s with bootSram := [] } 0 else s

/-- What a read of the push aperture returns (R301, R363): PUSH_LEN, PUSH_STATUS, and 0 in the window onto boot SRAM, of PUSH_GO and of
the reserved rest. -/
def pushRead (s : State) (off : Nat) : Word :=
  if off = 0x400000 then s.pushLen else if off = 0x400008 then rget s (romReg 0x118) else 0
/-- PUSH_APERTURE_WRITE (R363, R301): a write of the PF at `off` of the push aperture; bytes not enabled are none.  PUSH_GO is a row
of its own; PUSH_STATUS ignores its write, which is recorded (R16, assumption log 23). -/
def execPushApertureWrite (off : Nat) (bs : List (Option Byte)) (s : State) : Host.Outcome State Fault Refusal :=
  done (
    let word := BitVec.ofNat 32 (leNat (bs.map (·.getD 0)))
    if !pciUp s then s else
    let s := wakeFor s 2
    if off = 0x400008 ∧ bs.length = 4 then
      (if word = pushRead s off then s else busLog s ⟨0x10, false⟩ true 0 bs.length word .readOnly)
    else if off ≥ 0x400008 ∨ off + bs.length > 0x400008 then busLog s ⟨0x10, false⟩ true 0 bs.length word .reserved
    else if mayPush s 1 ∧ off + bs.length ≤ 0x400000 then pushBytes s 1 off bs
    else if mayPush s 1 ∧ off = 0x400000 then ownPush { s with pushLen := word &&& 0x007FFFFF } 1
    else if off = 0x400004 then s
    else report (rcount s (reg .pci 0 0x058) 15 0 1) .pci 0 0x1103 0 3)

/-! ### Dill 0 to 2 (R270) -/

/-- Dill `q` runs. -/
def dillRuns (s : State) (q : Nat) : Bool := rbit s (romReg 0x058) (8 + q)
/-- Sage's stores to the image memory of Dill q, which only a held Dill's memory takes. -/
def dillStore (s : State) (st : Nat × Nat × Bytes) : State :=
  if st.1 < 3 ∧ !dillRuns s st.1 ∧ st.2.1 + st.2.2.length ≤ 0x30000 ∧ domOn s 24 then
    { s with dillMem := memWrite s.dillMem (st.1 * 0x40000 + st.2.1) st.2.2 } else s
/-- The code with which the release of Dill `q` is refused, if any. -/
def releaseBad (s : State) (q : Nat) : Option Nat :=
  let dig := rbytes s (romReg (0x600 + 64 * q)) 16
  let len := (rget s (romReg (0x068 + 4 * q))).toNat
  if dillRuns s q then some 0x0104
  else if allZero dig ∨ len = 0 ∨ len % 4 ≠ 0 ∨ len > 196608 then some 0x0103
  else if !domOn s 24 ∨ sha512 (memRead s.dillMem (q * 0x40000) len) ≠ dig then some 0x0102
  else none
/-- One bit of a release write. -/
def releaseDill (s : State) (q : Nat) : State :=
  match releaseBad s q with
  | some code => irq (bootErr (rsetf s (romReg 0x058) 31 16 code) code 0x058) .rom 0 1
  | none => rsetb s (romReg 0x058) (8 + q) true
/-- A write of BOOT_CORE_RELEASE. -/
def coreReleaseWrite (s : State) (c : WCtx) : State :=
  ((List.range 3).filter fun q => bit c.data q).foldl releaseDill s

/-- BOOT_HEALTH_CONFIRM (R294). -/
def healthWrite (s : State) (c : WCtx) : State :=
  if fld c.data 31 16 ≠ 0xA5C3 then bootErr s 0x0101 0x114
  else if !bit c.data 0 then s
  else if !rbit s (romReg 0x100) 3 then bootErr s 0x013D 0x114
  else if bwdState s = 0x55 then bwdRetire s
  else s

/-! ### The TAP (R265, R266) -/

/-- An instruction scanned into the TAP, which shifts out what the instruction register captured, 0b00001 (R265). -/
def tapScan (s : State) (code : Nat) : State := emit { s with tapIr := code } (.tapIr 1)
/-- A command of the TAP; while POR lasts no pin but XOUT drives (R51), and the TAP stays in test-logic reset. -/
def tapCmd (s : State) (k : State → State) : Host.Outcome State Fault Refusal := done (if s.rst = .por then s else k s)
/-- BYPASS selected: its 1-bit register captures 0 (assumption log 112). -/
def tapBypassed (s : State) : State := emit (tapScan s 0x1F) (.tapBit false)
/-- TAP_EXTEST: `cells` are shifted into the boundary-scan register, `pins` is what it captured; the cells then drive every output.
Closed, the code selects BYPASS. -/
def execTapExtest (cells pins : Bytes) (s : State) : Host.Outcome State Fault Refusal :=
  tapCmd s fun s =>
    if debugOpen s 0 then emit (emit { tapScan s 0x00 with boundary := cells } (.tap pins)) (.cells cells) else tapBypassed s
/-- TAP_SAMPLE_PRELOAD. -/
def execTapSamplePreload (cells pins : Bytes) (s : State) : Host.Outcome State Fault Refusal :=
  tapCmd s fun s => emit { tapScan s 0x01 with boundary := cells } (.tap pins)
/-- TAP_IDCODE. -/
def execTapIdcode (s : State) : Host.Outcome State Fault Refusal :=
  tapCmd s fun s => emit (tapScan s 0x02) (.tap (leBytes 4 (s.part.number * 4096 + 0x5AF)))
/-- TAP_NONCE. -/
def execTapNonce (s : State) : Host.Outcome State Fault Refusal :=
  tapCmd s fun s => emit (tapScan s 0x08) (.tap (bootNonce s))
/-- TAP_TOKEN. -/
def execTapToken (t : Bytes) (s : State) : Host.Outcome State Fault Refusal :=
  tapCmd s fun s =>
    let s := tapScan s 0x09
    if s.rst = .none ∧ t.length = 176 then loadToken s t else s
/-- TAP_TOKEN_STATUS. -/
def execTapTokenStatus (s : State) : Host.Outcome State Fault Refusal :=
  tapCmd s fun s => emit (tapScan s 0x0A) (.tap (leBytes 4 (rget s tokenStatus).toNat))
/-- TAP_DTMCS: the register is the RISC-V Debug Specification's. -/
def execTapDtmcs (s : State) : Host.Outcome State Fault Refusal :=
  tapCmd s fun s => emit (tapScan s 0x10) (.tap (leBytes 4 Config.dtmcs.toNat))
/-- TAP_BYPASS, and any code that R265 does not list. -/
def execTapBypass (s : State) : Host.Outcome State Fault Refusal := tapCmd s tapBypassed
/-- TEST_LOGIC_RESET. -/
def execTestLogicReset (s : State) : Host.Outcome State Fault Refusal := done { s with tapIr := 0x02 }
/-- TOKEN_RESET is accepted (R266). -/
def tokenResetOk (s : State) : Bool :=
  decide (s.rst = .none) && rbit s tokenStatus 16 && decide (s.token.length = 176) &&
  decide (sliceZ s.token 0x08 32 = devidPub s) && decide (sliceZ s.token 0x28 32 = bootNonce s) &&
  decide ((tget s .tokenReset).getD 0 = 0)

end Sys2Proof.Machine
end

