-- ==== Sys2Proof/Machine/I3c.lean ====
section
/-! DEFINITION. Machine/I3c.lean: the I3C target and its MCTP packets (R365 to R367). -/
namespace Sys2Proof.Machine

/-- A register of the I3C page. -/
def i3cReg (off : Nat) : Nat := reg .i3c 0 off
/-- The target answers on the bus: its block is out of reset, the hardware phase of one included (R376). -/
def i3cUp (s : State) : Bool := decide (s.rst = .none) && s.hw.isNone
/-- The dynamic address, none while it is not assigned. -/
def dynAddr (s : State) : Option Nat := if rbit s (i3cReg 0x044) 7 then some (rfld s (i3cReg 0x044) 6 0) else none
/-- Maximum write and read lengths. -/
def i3cMwl (s : State) : Nat := rfld s (i3cReg 0x044) 17 9
/-- Maximum read length. -/
def i3cMrl (s : State) : Nat := rfld s (i3cReg 0x044) 26 18

/-- One bit of the PEC's shift register: CRC-8, polynomial 0x07 (DSP0233, PRESUMED, assumption log 24). -/
def pecBit (c : Byte) : Byte := if c.getLsbD 7 then (c <<< 1) ^^^ 0x07 else c <<< 1
/-- The PEC of bytes. -/
def pec (bs : Bytes) : Byte :=
  bs.foldl (fun c b => pecBit (pecBit (pecBit (pecBit (pecBit (pecBit (pecBit (pecBit (c ^^^ b))))))))) 0
/-- The address byte of a write (`rd` false) or a read. -/
def addrByte (a : Nat) (rd : Bool) : Byte := BitVec.ofNat 8 (2 * a + b2n rd)

/-- The head packet as I3C_RX_STATUS and I3C_RXw show it. -/
def rxView (s : State) : State :=
  let h := s.i3c.rx.headD []
  let s := rsetf (rsetf s (i3cReg 0x048) 2 0 s.i3c.rx.length) (i3cReg 0x048) 12 4 h.length
  rsetBytes s (i3cReg 0x100) 64 h

/-- MCTP_PACKET_WRITE (R366): a private write to the dynamic address; `bytes` ends with the PEC. -/
def execMctpPacketWrite (bytes : Bytes) (s : State) : Host.Outcome State Fault Refusal :=
  done (
    match dynAddr s with
    | none => s
    | some a =>
      if !i3cUp s then s
      else if !rbit s (i3cReg 0x040) 0 ∨ s.i3c.rx.length ≥ 4 then rcount s (i3cReg 0x048) 31 16 1
      else
        let p := bytes.dropLast
        if bytes.length > i3cMwl s ∨ bytes.length < 2 then report s .i3c 0 0x1201 0 3
        else if bytes.getLast? ≠ some (pec (addrByte a false :: p)) then
          report (rcount s (i3cReg 0x05C) 15 0 1) .i3c 0 0x1201 0 3
        else irq (rxView { s with i3c := { s.i3c with rx := s.i3c.rx ++ [p] } }) .i3c 0 0)

/-- The pending transmit packet is withdrawn (R366). -/
def withdraw (s : State) : State :=
  let s := tstop { s with i3c := { s.i3c with tx := none } } .i3cTx
  irq (report (rset s (i3cReg 0x054) (mk 31 16 0x1202)) .i3c 0 0x1202 0 0) .i3c 0 2
/-- MCTP_PACKET_READ (R366). -/
def execMctpPacketRead (s : State) : Host.Outcome State Fault Refusal :=
  done (
    match s.i3c.tx, dynAddr s with
    | some n, some a =>
      if !i3cUp s then s else
      let p := (rbytes s (i3cReg 0x200) 64).take n
      let s := emit s (.i3c (p ++ [pec (addrByte a true :: p)]))
      irq (rsetf (tstop { s with i3c := { s.i3c with tx := none } } .i3cTx) (i3cReg 0x054) 1 0 0) .i3c 0 1
    | _, _ => s)
/-- IBI (R366): at a bus-free condition; `acked` says that the controller acknowledges it. -/
def execIbi (acked : Bool) (s : State) : Host.Outcome State Fault Refusal :=
  done (
    if !i3cUp s ∨ s.i3c.tx.isNone ∨ (dynAddr s).isNone ∨ !rbit s (i3cReg 0x044) 8 ∨ rbit s (i3cReg 0x054) 1 then s
    else
      let s := emit s (.ibi 0xAE)
      if acked then rsetb s (i3cReg 0x054) 1 true else s)
/-- I3C_TX_TIMEOUT (R366). -/
def execI3cTxTimeout (s : State) : Host.Outcome State Fault Refusal := done (fire s .i3cTx withdraw)

/-- A write of I3C_TX_CTRL (R366, R367). -/
def i3cTxWrite (s : State) (c : WCtx) : State :=
  let n := fld c.data 8 0
  let s := if bit c.data 17 ∧ s.i3c.tx.isSome then withdraw s else s
  if !bit c.data 16 then s
  else if s.i3c.tx.isSome ∨ n = 0 ∨ n > i3cMrl s - 1 then refuseW s .i3c 0 0x1203 c
  else
    let s := rsetf { s with i3c := { s.i3c with tx := some n } } (i3cReg 0x054) 1 0 1
    let t := rfld s (i3cReg 0x058) 15 0
    if t = 0 then s else tset s .i3cTx (ms t)
/-- Writes to the I3C page. -/
def i3cWrite (s : State) (c : WCtx) : State :=
  let o := c.off % 4096
  if o = 0x04C then
    if bit c.data 0 then rxView { s with i3c := { s.i3c with rx := s.i3c.rx.drop 1 } } else s
  else if o = 0x050 then i3cTxWrite s c
  else if 0x200 ≤ o ∧ o < 0x300 ∧ s.i3c.tx.isSome then refuseW s .i3c 0 0x1203 c
  else storeW s c

/-! ### CCCs (R365) -/

/-- A CCC acts while the target is out of reset. -/
def ccc (s : State) (k : State → State) : Host.Outcome State Fault Refusal := done (if i3cUp s then k s else s)
/-- A directed CCC: it is addressed to the dynamic address. -/
def directed (s : State) (k : State → State) : Host.Outcome State Fault Refusal := ccc s fun s => if (dynAddr s).isSome then k s else s
/-- A CCC that has a broadcast and a directed form: `all` for the broadcast, which needs no dynamic address (R365). -/
def cccOf (all : Bool) (s : State) (k : State → State) : Host.Outcome State Fault Refusal := if all then ccc s k else directed s k
/-- The dynamic address assigned or, with none, reset. -/
def setDynAddr (s : State) (a : Option Nat) : State :=
  irq (rsetf (rsetb s (i3cReg 0x044) 7 a.isSome) (i3cReg 0x044) 6 0 (a.getD 0)) .i3c 0 3
/-- The static address (R271, R365). -/
def staticAddr (s : State) : Nat := 0x50 + rfld s (romReg 0x050) 12 10
/-- The 48-bit provisional ID (R365). -/
def provisionalId (s : State) : Nat := 0x1E7B * 2 ^ 33 + s.part.number % 256 * 2 ^ 24 + myNode s
/-- ENEC. -/
def execEnec (events : Ccc Byte) (s : State) : Host.Outcome State Fault Refusal :=
  cccOf events.all s fun s => if events.arg.getLsbD 0 then rsetb s (i3cReg 0x044) 8 true else s
/-- DISEC. -/
def execDisec (events : Ccc Byte) (s : State) : Host.Outcome State Fault Refusal :=
  cccOf events.all s fun s => if events.arg.getLsbD 0 then rsetb s (i3cReg 0x044) 8 false else s
/-- RSTDAA. -/
def execRstdaa (s : State) : Host.Outcome State Fault Refusal :=
  ccc s fun s => if (dynAddr s).isSome then setDynAddr s none else s
/-- ENTDAA: the controller assigns `a` to this target, which has no dynamic address. -/
def execEntdaa (a : Nat) (s : State) : Host.Outcome State Fault Refusal :=
  ccc s fun s =>
    if (dynAddr s).isSome then s
    else setDynAddr (emit s (.i3c (beBytes 6 (provisionalId s) ++ [0x06, 0x00]))) (some (a % 128))
/-- SETDASA, addressed to static address `sa`. -/
def execSetdasa (sa a : Nat) (s : State) : Host.Outcome State Fault Refusal :=
  ccc s fun s => if sa = staticAddr s ∧ (dynAddr s).isNone then setDynAddr s (some (a % 128)) else s
/-- SETNEWDA. -/
def execSetnewda (a : Nat) (s : State) : Host.Outcome State Fault Refusal := directed s fun s => setDynAddr s (some (a % 128))
/-- A length within 69 to 256 (R367). -/
def lenOk (n : Nat) : Bool := decide (69 ≤ n) && decide (n ≤ 256)
/-- SETMWL. -/
def execSetmwl (n : Ccc Nat) (s : State) : Host.Outcome State Fault Refusal :=
  cccOf n.all s fun s => if lenOk n.arg then rsetf s (i3cReg 0x044) 17 9 n.arg else s
/-- SETMRL. -/
def execSetmrl (n : Ccc Nat) (s : State) : Host.Outcome State Fault Refusal :=
  cccOf n.all s fun s => if lenOk n.arg then rsetf s (i3cReg 0x044) 26 18 n.arg else s
/-- GETMWL. -/
def execGetmwl (s : State) : Host.Outcome State Fault Refusal := directed s fun s => emit s (.i3c (beBytes 2 (i3cMwl s)))
/-- GETMRL; a target with in-band interrupt data returns its length too. -/
def execGetmrl (s : State) : Host.Outcome State Fault Refusal := directed s fun s => emit s (.i3c (beBytes 2 (i3cMrl s) ++ [1]))
/-- GETPID. -/
def execGetpid (s : State) : Host.Outcome State Fault Refusal := directed s fun s => emit s (.i3c (beBytes 6 (provisionalId s)))
/-- GETBCR. -/
def execGetbcr (s : State) : Host.Outcome State Fault Refusal := directed s fun s => emit s (.i3c [0x06])
/-- GETDCR. -/
def execGetdcr (s : State) : Host.Outcome State Fault Refusal := directed s fun s => emit s (.i3c [0x00])
/-- GETSTATUS: pending interrupt number in [3:0] of the MIPI status word; the rest is not stated. -/
def execGetstatus (s : State) : Host.Outcome State Fault Refusal :=
  directed s fun s => emit s (.i3c (beBytes 2 (Config.i3cStatus s.i3c.tx.isSome).toNat))
/-- RSTACT: `act` 0 is no reset, 1 resets the MCTP queues; other values are not accepted. -/
def execRstact (act : Ccc Byte) (s : State) : Host.Outcome State Fault Refusal :=
  cccOf act.all s fun s =>
    if act.arg ≠ 1 then s
    else
      let s := tstop { s with i3c := {} } .i3cTx
      rsetf (rxView s) (i3cReg 0x054) 1 0 0

end Sys2Proof.Machine
end

