-- ==== Sys2Proof/Machine/Svc.lean ====
section
/-! DEFINITION. Machine/Svc.lean: the service port (R368 to R374) and the staging engine (R289). -/
namespace Sys2Proof.Machine

/-- The context of HELLO (R370). -/
def svcContext (s : State) : Nat :=
  match s.sage with | .rom _ => 0 | .copying _ => 0 | .window _ => 1 | .run => 2 | .stop => 3
/-- The port works: its block is out of reset and TBCLK is there (R55). -/
def svcUp (s : State) : Bool := decide (s.rst = .none) && s.hw.isNone && !s.tbLoss
/-- A payload with its CRC-32C. -/
def withCrc (p : Bytes) : Bytes := p ++ leBytes 4 (crc32c p).toNat
/-- The payload's CRC holds. -/
def crcOk (p : Bytes) : Bool := decide (4 ≤ p.length) && decide (withCrc (p.take (p.length - 4)) = p)
/-- A request is answered (R369 to R371); the two latest answers are kept.  During timebase loss the answer waits (R55). -/
def answer (s : State) (r : SvcReq) (status : Nat) (data : Bytes) : State :=
  let p := withCrc (leBytes 2 status ++ zeros 2 ++ data)
  let s := { s with svc := { s.svc with answered := ((r.type, r.seq, p) :: s.svc.answered).take 2 } }
  if s.tbLoss then { s with svc := { s.svc with held := s.svc.held ++ [(r.type, r.seq, p)] } }
  else emit s (.svc (r.type + 0x80) r.seq p)

/-- HELLO's response data (R370). -/
def helloData (s : State) : Bytes :=
  let lc := (lifeCycle s).1
  leBytes 4 s.part.cap ++ leBytes 1 (rfld s (romReg 0x04C) 7 0) ++ leBytes 1 (rfld s (romReg 0x04C) 11 8) ++
  leBytes 1 (svcContext s) ++ leBytes 1 (myNode s) ++ bootNonce s ++ (if lc = 0 ∨ lc = 3 then zeros 32 else devidPub s)

/-- The staging engine writes block `i` (R289): erase of a unit's first block, 16 pages, read-back. -/
def stageBlock (s : State) (i : Nat) (block : Bytes) : State :=
  let a := 0x01800000 + 4096 * i
  let s := if s.svc.erased.contains (i / 16) then s
    else emit (emit { s with svc := { s.svc with erased := i / 16 :: s.svc.erased } } (.bootFlash 0x06 0 0 []))
      (.bootFlash 0xDC (a / 65536 * 65536) 0 [])
  let s := (List.range 16).foldl (fun s p =>
    emit (emit s (.bootFlash 0x06 0 0 [])) (.bootFlash 0x34 (a + 256 * p) 0 (sliceZ block (256 * p) 256))) s
  emit s (.bootFlash 0x6C a 4096 [])
/-- The staging engine refuses a block with a code. -/
def refuseBlock (s : State) (r : SvcReq) (code : Nat) : State := answer (irq s .rom 0 4) r code []
/-- A DATA request (R289, R372); a block to be written waits at the head of the queue while BOOT_BF_CMD has the boot flash port. -/
def svcData (s : State) (r : SvcReq) : State :=
  let i := fieldLe r.payload 0 2
  let block := sliceZ r.payload 4 4096
  if !s.svc.session ∨ r.payload.length ≠ 4104 then answer s r 0x1303 []
  else if fieldLe r.payload 2 2 ≠ 0xFFFF - i ∨ i > 2047 then answer s r 0x1304 []
  else if wordAtLe r.payload 1025 ≠ crc32c block then refuseBlock (rcount s (romReg 0x134) 31 16 1) r 0x1302
  else if s.bf.isSome then { s with svc := { s.svc with queue := r :: s.svc.queue } }
  else
    let s := stageBlock s i block
    if r.readBack ≠ some block then refuseBlock s r 0x013A
    else answer (rcount s (romReg 0x134) 11 0 1) r 0 (leBytes 2 i ++ zeros 2)

/-- SESSION_OPEN (R372). -/
def svcOpen (s : State) (r : SvcReq) : State :=
  if s.locked then answer s r 0x013C []
  else if svcContext s ≠ 2 ∨ !rbit s (svcReg 0x044) 0 ∨ s.svc.session then answer s r 0x1303 []
  else
    let s := tset { s with svc := { s.svc with session := true, erased := [] } } .svcSession (ms 10000)
    answer (irq s .svc 0 0) r 0 []
/-- BAUD (R370); `alone` says that no other request is unanswered. -/
def svcBaud (s : State) (r : SvcReq) (alone : Bool) : State :=
  let div := fieldLe r.payload 0 2
  if !alone ∨ r.payload.length ≠ 8 ∨ fieldLe r.payload 2 2 ≠ 0 ∨ div < 133 then answer s r 0x1303 []
  else tset (answer { s with svc := { s.svc with newDiv := some div } } r 0 []) .svcBaud (ms 1)
/-- PUSH_WRITE (R370). -/
def svcPush (s : State) (r : SvcReq) : State :=
  let off := fieldLe r.payload 0 4
  let n := r.payload.length - 8
  if !mayPush s 3 then answer s r 0x1303 []
  else if off % 4 ≠ 0 ∨ n % 4 ≠ 0 ∨ n < 4 ∨ n > 4096 ∨ off + n > 0x400000 then answer s r 0x1305 []
  else answer (pushBytes s 3 off ((sliceZ r.payload 4 n).map some)) r 0 []
/-- A firmware request (R373): it waits at the head of the queue for firmware's answer. -/
def svcFirmware (s : State) (r : SvcReq) : State :=
  let n := r.payload.length - 4
  if svcContext s ≠ 2 ∨ !rbit s (svcReg 0x044) 1 ∨ n > 256 then answer s r 0x1303 []
  else
    let s := rset s (svcReg 0x050) (mk 8 0 n ||| mk 23 16 r.type ||| mk 31 24 r.seq)
    let s := rsetBytes s (svcReg 0x100) 64 (r.payload.take n)
    irq { s with svc := { s.svc with queue := r :: s.svc.queue } } .svc 0 2

/-- A request whose turn has come is executed (R370). -/
def svcExecute (s : State) (r : SvcReq) (alone : Bool) : State :=
  if r.type ≠ 0x11 ∧ !crcOk r.payload then answer (rcount s (svcReg 0x04C) 15 8 1) r 0x1301 []
  else if 0x40 ≤ r.type ∧ r.type ≤ 0x7F then svcFirmware s r
  else match r.type with
    | 0x01 => if r.payload.length = 4 then answer s r 0 (helloData s) else answer s r 0x1303 []
    | 0x02 => svcBaud s r alone
    | 0x10 => if r.payload.length = 4 then svcOpen s r else answer s r 0x1303 []
    | 0x11 => svcData s r
    | 0x12 =>
      if r.payload.length ≠ 4 ∨ !s.svc.session then answer s r 0x1303 []
      else endSession (answer s r 0 (leBytes 4 (rfld s (romReg 0x134) 11 0))) 0
    | 0x20 => svcPush s r
    | _ => answer s r 0x1303 []

/-- A frame with a valid header has arrived (R369 to R371): a retransmission gets its stored answer, a third unanswered request is
discarded, a request behind an unanswered one waits, and any other is executed by `run`. -/
def svcArrive (s : State) (r : SvcReq) (run : State → State) : State :=
  if !svcUp s then s else
  let s := wakeSource s 4
  let s := tstop { s with svc := { s.svc with oldDiv := none } } .svcRevert
  let s := if s.svc.session ∧ (r.type = 0x11 ∨ crcOk r.payload) then tset s .svcSession (ms 10000) else s
  match s.svc.answered.find? fun a => decide (a.1 = r.type) && decide (a.2.1 = r.seq) with
  | some a => emit s (.svc (r.type + 0x80) r.seq a.2.2)
  | none =>
    if s.svc.queue.length ≥ 2 then rcount s (svcReg 0x04C) 31 24 1
    else if s.svc.queue ≠ [] then { s with svc := { s.svc with queue := s.svc.queue ++ [r] } }
    else run s
/-- A request of a known type. -/
def svcRequest (s : State) (r : SvcReq) : State := svcArrive s r fun s => svcExecute s r true

/-- HELLO. -/
def execHello (seq : Nat) (payload : Bytes) (s : State) : Host.Outcome State Fault Refusal :=
  done (svcRequest s { type := 0x01, seq := seq, payload := payload })
/-- BAUD. -/
def execBaud (seq : Nat) (payload : Bytes) (s : State) : Host.Outcome State Fault Refusal :=
  done (svcRequest s { type := 0x02, seq := seq, payload := payload })
/-- BAUD_SWITCH (R370). -/
def execBaudSwitch (s : State) : Host.Outcome State Fault Refusal :=
  done (fire s .svcBaud fun s =>
    match s.svc.newDiv with
    | some d =>
      let old := rfld s (svcReg 0x048) 15 0
      let s := rsetf { s with svc := { s.svc with newDiv := none, oldDiv := some old } } (svcReg 0x048) 15 0 d
      irq (tset s .svcRevert (ms 2000)) .svc 0 3
    | none => s)
/-- BAUD_REVERT (R370). -/
def execBaudRevert (s : State) : Host.Outcome State Fault Refusal :=
  done (fire s .svcRevert fun s =>
    match s.svc.oldDiv with
    | some d => irq (rsetf { s with svc := { s.svc with oldDiv := none } } (svcReg 0x048) 15 0 d) .svc 0 3
    | none => s)
/-- SESSION_OPEN. -/
def execSessionOpen (seq : Nat) (payload : Bytes) (s : State) : Host.Outcome State Fault Refusal :=
  done (svcRequest s { type := 0x10, seq := seq, payload := payload })
/-- DATA; `readBack` is what the programmed block reads back as, none where a busy limit was exceeded. -/
def execData (seq : Nat) (payload : Bytes) (readBack : Option Bytes) (s : State) : Host.Outcome State Fault Refusal :=
  done (svcRequest s { type := 0x11, seq := seq, payload := payload, readBack := readBack })
/-- SESSION_CLOSE. -/
def execSessionClose (seq : Nat) (payload : Bytes) (s : State) : Host.Outcome State Fault Refusal :=
  done (svcRequest s { type := 0x12, seq := seq, payload := payload })
/-- SESSION_TIMEOUT (R372). -/
def execSessionTimeout (s : State) : Host.Outcome State Fault Refusal := done (fire s .svcSession fun s => endSession s 0x1306)
/-- SVC_PUSH_WRITE. -/
def execSvcPushWrite (seq : Nat) (payload : Bytes) (s : State) : Host.Outcome State Fault Refusal :=
  done (svcRequest s { type := 0x20, seq := seq, payload := payload })
/-- SVC_FIRMWARE_REQUEST: type `k` of 0x40 to 0x7F. -/
def execSvcFirmwareRequest (k seq : Nat) (payload : Bytes) (s : State) : Host.Outcome State Fault Refusal :=
  done (svcRequest s { type := 0x40 + k % 64, seq := seq, payload := payload })
/-- SVC_FRAME_ABORT (R369). -/
def execSvcFrameAbort (s : State) : Host.Outcome State Fault Refusal :=
  done (if svcUp s then rcount (wakeSource s 4) (svcReg 0x04C) 23 16 1 else s)
/-- The types of R370. -/
def svcKnown (t : Nat) : Bool := t ∈ [0x01, 0x02, 0x10, 0x11, 0x12, 0x20, 0x21] || (decide (0x40 ≤ t) && decide (t ≤ 0x7F))
/-- SVC_INVALID_FRAME: a header whose CRC fails, or a request of a type that is not defined, or one past the limit of two. -/
def execSvcInvalidFrame (hdrOk : Bool) (type seq : Nat) (payload : Bytes) (s : State) : Host.Outcome State Fault Refusal :=
  done (
    if !svcUp s then s
    else if !hdrOk then rcount (wakeSource s 4) (svcReg 0x04C) 7 0 1
    else if svcKnown type ∧ s.svc.queue.length < 2 then s
    else svcRequest s { type := type, seq := seq, payload := payload })

/-- Waiting requests take their turn until one waits for firmware again; during timebase loss they wait for TBCLK (R55). -/
def svcDrain (s : State) : Nat → State
  | 0 => s
  | k + 1 =>
    if s.tbLoss then { s with svc := { s.svc with stalled := true } } else
    match s.svc.queue with
    | [] => s
    | r :: rest =>
      let s := svcExecute { s with svc := { s.svc with queue := rest } } r false
      if s.svc.queue.length > rest.length then s else svcDrain s k
/-- TBCLK has returned: the answers that waited go out, and requests take their turn (R55). -/
def svcResume (s : State) : State :=
  let held := s.svc.held
  let stalled := s.svc.stalled
  let s := held.foldl (fun s a => emit s (.svc (a.1 + 0x80) a.2.1 a.2.2)) { s with svc := { s.svc with held := [], stalled := false } }
  if stalled then svcDrain s 2 else s
/-- The boot flash port has become free: a block that waits for it takes its turn (R289). -/
def svcPortFree (s : State) : State :=
  match s.svc.queue with
  | r :: _ => if r.type = 0x11 ∧ s.bf.isNone then svcDrain s 2 else s
  | [] => s
/-- BF_BUSY_TIMEOUT (R277). -/
def execBfBusyTimeout (s : State) : Host.Outcome State Fault Refusal :=
  done (fire s .bfMax fun s => svcPortFree (bfEnd s 0x013A))
/-- BF_COMMAND_DONE (R300): a READ ends with its data, a program or an erase once the chip has been polled ready; `ok` is false where
it failed. -/
def execBfCommandDone (data : Bytes) (ok : Bool) (s : State) : Host.Outcome State Fault Refusal :=
  done (
    match s.bf with
    | none => s
    | some b =>
      if s.tbLoss ∨ (b.op ≠ 1 ∧ !b.ready) then s
      else if !ok then svcPortFree (bfEnd s 0x013A)
      else svcPortFree (bfEnd (if b.op = 1 then sramWrite s b.buf (sliceZ data 0 b.len) else s) 0))
/-- A write of SVC_FW_TX_CTRL (R373). -/
def svcAnswerWrite (s : State) (c : WCtx) : State :=
  let n := fld c.data 8 0
  match s.svc.queue with
  | [] => refuseW s .svc 0 0x1307 c
  | r :: rest =>
    if r.type < 0x40 then refuseW s .svc 0 0x1307 c
    else if n > 256 then refuseW s .svc 0 0x1303 c
    else
      let s := answer { s with svc := { s.svc with queue := rest } } r (fld c.data 31 16) ((rbytes s (svcReg 0x200) 64).take n)
      svcDrain s 2
/-- Writes to the SVC page (R374). -/
def svcWrite (s : State) (c : WCtx) : State := if c.off % 4096 = 0x054 then svcAnswerWrite s c else storeW s c

end Sys2Proof.Machine
end

