-- ==== Sys2Proof/Machine/Pair.lean ====
section
/-! DEFINITION. Machine/Pair.lean: the pairing unit: claims and the output rule, requests, grants and leases, beats, mirroring, health
reports and the witness functions (R433 to R459). -/
namespace Sys2Proof.Machine

/-- The pairing unit changed. -/
def modPair (s : State) (f : PairSt → PairSt) : State := { s with pair := f s.pair }
/-- The PAIR block runs. -/
def pairUp (s : State) : Bool := pageOn s .pair 0 && paired s

/-! ### The output rule (R435 to R439) -/

/-- What a port has snooped of its pending accesses counts as received: they go on from their first unseen byte (R451). -/
def takeSeen (s : State) (n : Nat) : State :=
  let p := port s n
  let s := [Own.leaf, .tree, .fill, .refill, .warm].foldl (fun s k =>
    let rs := ownReads s n k
    let m := (rs.takeWhile (seenAll p)).length
    let got := match rs[m]? with | some r => seenLen p r | none => 0
    if m = 0 ∧ got = 0 then s else ownPut s n k (m, got)) s
  modPort s n fun p => { p with snoop := [] }
/-- A unit begins to drive: every port in RUNNING or UPDATE_STAGED drives its resets low and replays the release sequence (R439); a
busy chip is polled again and open blocks have their deferral limit (R451). -/
def portBeginsDrive (s : State) (n : Nat) : State :=
  if !portOn s n then s else
  let p := port s n
  let replays : Bool := p.st.deciding && (match p.seq with | .idle => true | .relD1 => true | .relD2 => true | _ => false)
  let s := if replays then startRelease (holdPins (tstop (tstop s (.relD1 n)) (.relD2 n)) n) n else s
  let b := rfld s (reg .fgpCtl n 0x04C) 23 16
  let s := if p.cs0Busy then tset (tset s (.busyPoll n) 200) (.busyMax n) (ms (if b = 0 then 255 else b)) else s
  let d := rfld s (reg .du 0 (0x100 + 16 * n)) 31 16
  p.blocks.foldl (fun s b => if d = 0 then s else tset s (.defer n b.fa) (us d + 1)) (takeSeen s n)

/-- A unit stops driving: its ports wait for snoop, for every byte of the accesses that are pending (R451). -/
def portStopsDrive (s : State) (n : Nat) : State :=
  let s := if portOn s n then modPort s n fun p => { p with own := p.own.filter fun e => e.1 == .copy } else s
  { s with timers := s.timers.filter fun e =>
      match e.1 with
      | .busyPoll m => m != n
      | .busyMax m => m != n
      | .defer m _ => m != n
      | _ => true }

/-- The D6 record of R448. -/
def claimRecord (s : State) (gained : Bool) (x claim : Nat) : Bytes :=
  leBytes 1 (if gained then 1 else 2) ++ leBytes 1 x ++ leBytes 1 (b2n (pairSide s == 2)) ++ zeros 1 ++ leBytes 4 claim ++
  leBytes 8 s.tbTime ++ leBytes 4 (peerClaim s) ++ leBytes 4 s.pair.lease ++ zeros 8

/-- The outputs follow the rule as it now stands (R435). -/
def followRule (s : State) : State :=
  let ports := List.range s.part.ports
  if driving s ∧ !s.pair.drove then
    irq (ports.foldl portBeginsDrive (modPair s fun p => { p with drove := true })) .pair 0 3
  else if !driving s ∧ s.pair.drove then ports.foldl portStopsDrive (modPair s fun p => { p with drove := false })
  else s

/-- The claim ends with a cause (R436, R448). -/
def endClaim (s : State) (cause : Nat) : State :=
  if s.pair.claim = 0 then s else
  let r := claimRecord s false cause s.pair.claim
  let s := modPair (tstop (tstop s .lease) .holdoff) fun p => { p with claim := 0, mayDrive := false }
  followRule (irq (hwExtend s 6 r) .pair 0 4)

/-- The output rule evaluated after a frame, a grant, a lease expiry or the end of a hold-off (R435, R437). -/
def pairEval (s : State) : State :=
  if sameSideTie s then endClaim (irq (report s .pair 0 0x150E 0 3) .pair 0 11) 2
  else if s.pair.claim ≠ 0 ∧ s.pair.claim < peerClaim s then endClaim s 2
  else followRule s

/-- A raise or increment by the pairing unit (R319): whether the counter store takes it. -/
def pairCount (s : State) (raise : Bool) (c v : Nat) : State × Bool :=
  let r := cstApply s ⟨.pairing, raise, c, v⟩ false false
  (r.1, decide (r.2.1 = 0))

/-! ### The claim link (R440, R441) -/

/-- The frame the claim-link transmitter repeats, none while it stops: POR, DEVICE reset, or timebase loss (R55, R440, R457). -/
def claimFrame (s : State) : Option Bytes :=
  let body := leBytes 3 s.pair.claim ++ leBytes 3 (peerClaim s) ++ leBytes 1 (linkFlags s)
  if !pairUp s ∨ s.tbLoss ∨ higherPhase s then none else some (0xD5 :: body ++ leBytes 2 (crc16 body).toNat)
/-- CLAIM_LINK_FRAME (R441): a frame has arrived: its claim number, echo and flags byte, and whether sync and CRC are valid.  It is fresh
for 200 cycles from the next TBCLK edge. -/
def execClaimLinkFrame (claim echo flags : Nat) (ok : Bool) (s : State) : Host.Outcome State Fault Refusal :=
  done (
    if !pairUp s ∨ s.tbLoss then s
    else if !ok then rcount s (pairReg 0x07C) 31 16 1
    else
      let was := s.pair.fresh
      let s := rcount s (pairReg 0x07C) 15 0 1
      let s := tset (modPair s fun p => { p with fresh := true, peerClaim := claim, peerFlags := flags }) .clStale 201
      let s := if was then s else irq s .pair 0 10
      let s := if s.reconciling then modPair s fun p => { p with claimSeen := max p.claimSeen claim }
        else if claim > counter s 133 then (pairCount s true 133 claim).1 else s
      let shake : Bool := s.pair.claim ≠ 0 && decide (echo = s.pair.claim) && decide (flags % 2 = 0)
      pairEval (if shake then modPair s fun p => { p with mayDrive := true } else s))

/-- CLAIM_LINK_STALE (R441). -/
def execClaimLinkStale (s : State) : Host.Outcome State Fault Refusal :=
  done (fire s .clStale fun s => pairEval (irq (modPair s fun p => { p with fresh := false }) .pair 0 10))

/-! ### Requests (R443) -/

/-- A request of kind 1 RENEW or 2 CLAIM is sent to the witness or held for the host (R443). -/
def pairRequest (s : State) (kind : Nat) : State :=
  let (nonce, s) := draw s 16
  let s := rsetBytes s (pairReg 0x060) 4 nonce
  let s := rset (rset s (pairReg 0x070) (BitVec.ofNat 32 s.tbTime)) (pairReg 0x074) (BitVec.ofNat 32 (s.tbTime / 2 ^ 32))
  let s := rsetf (rsetb s (pairReg 0x05C) 16 true) (pairReg 0x05C) 17 17 0
  let s := tset s .pairReq (ms 10000)
  if witnessMode s then
    sendPair s (arbNode s) (leBytes 1 1 ++ leBytes 1 kind ++ leBytes 1 (b2n (pairSide s == 2)) ++ zeros 1 ++
      leBytes 4 s.pair.claim ++ nonce ++ leBytes 8 s.tbTime ++ devidPub s ++ leBytes 2 s.incarnation ++ zeros 2)
  else irq s .pair 0 0

/-- A write of PAIR_REQ_CMD (R443). -/
def reqCmdWrite (s : State) (c : WCtx) : State :=
  let k := fld c.data 1 0
  if fld c.data 31 16 ≠ 0xA5C3 ∨ k = 0 ∨ k = 3 then refuseW s .pair 0 0x150C c
  else if !paired s then refuseW s .pair 0 0x1501 c
  else pairRequest s k

/-- REQUEST_EXPIRY (R443): 10 s have passed. -/
def execRequestExpiry (s : State) : Host.Outcome State Fault Refusal :=
  done (fire s .pairReq fun s => rsetb s (pairReg 0x05C) 16 false)

/-! ### Grants (R444 to R448) -/

/-- A claim number of the unit's parity: even on side A, odd on side B (R434). -/
def ownParity (s : State) (c : Nat) : Bool := decide (c % 2 = b2n (pairSide s == 2))
/-- Header, kind, flags, reserved fields and ranges of a grant (R444). -/
def grantFormOk (g : Bytes) : Bool :=
  let kind := fieldLe g 6 1
  let fl := fieldLe g 7 1
  let l := fieldLe g 0x40 4
  let h := fieldLe g 0x44 4
  decide (g.take 4 = ascii "WPGR") && decide (fieldLe g 4 2 = 1) && decide (1 ≤ kind) && decide (kind ≤ 4) &&
  decide (fl < 8) && (decide (fl / 2 = 0) || (decide (kind = 2) && decide (fl / 2 ≠ 3))) &&
  decide (fieldLe g 8 4 < 2 ^ 24) && (decide (kind ≤ 2) || decide (fieldLe g 8 4 = 0)) &&
  decide (fieldLe g 0x0E 2 = 0) && allZero (sliceZ g 0x48 8) &&
  (if kind ≤ 2 then decide (1000 ≤ l) && decide (l ≤ 60000000) else decide (l = 0)) &&
  (if kind = 2 then decide (h ≤ 60000000) else decide (h = 0))
/-- The request time (R443). -/
def reqTime (s : State) : Nat := (rget s (pairReg 0x070)).toNat + 2 ^ 32 * (rget s (pairReg 0x074)).toNat

/-- The counter changes an accepted grant makes: raise or increment, counter, value (R448). -/
def grantRaises (s : State) (g : Bytes) : List (Bool × Nat × Nat) :=
  let fl := fieldLe g 7 1
  match fieldLe g 6 1 with
  | 2 => [(true, 132, fieldLe g 8 4), (true, 133, peerClaim s)] ++
      (if fl.testBit 2 then [(false, 134, 0)] else []) ++ (if fl.testBit 1 then [(false, 135, 0)] else [])
  | 4 => [(true, 136, counter s 134)]
  | _ => []

/-- The code a grant is refused with, in the order of R445. -/
def grantBad (s : State) (g : Bytes) : Option Nat :=
  let kind := fieldLe g 6 1
  let fl := fieldLe g 7 1
  let claim := fieldLe g 8 4
  if !paired s then some 0x1501
  else if !grantFormOk g then some 0x1502
  else if !rbit s (pairReg 0x05C) 16 ∨ sliceZ g 0x10 16 ≠ rbytes s (pairReg 0x060) 4 ∨
      (kind ≤ 2 ∧ reqTime s + us (fieldLe g 0x40 4) ≤ s.tbTime) then some 0x1503
  else if fieldLe g 0x0C 1 ≠ b2n (pairSide s == 2) ∨ fieldLe g 0x0D 1 ≠ myNode s ∨ sliceZ g 0x20 32 ≠ devidPub s then
    some 0x1504
  else if !ed25519Verify (rbytes s (pairReg 0x080) 8) (ascii "WDX-PAIR-GRNT-V1" ++ g.take 0x50) (sliceZ g 0x50 64) then
    some 0x1505
  else if kind ≤ 2 ∧ (claim = 0 ∨ !ownParity s claim) then some 0x1506
  else if kind = 1 ∧ claim ≠ s.pair.claim then some 0x1507
  else if kind = 2 ∧ (claim ≤ counter s 132 ∨ claim ≤ counter s 133 ∨ claim ≤ peerClaim s) then some 0x1508
  else if kind = 2 ∧ fl.testBit 1 ∧ !s.pair.fresh then some 0x1509
  else if kind = 2 ∧ fl.testBit 1 ∧ !fl.testBit 0 ∧ (swapHold s ∨ s.pair.peerFlags.testBit 2) then some 0x150A
  else if (grantRaises s g).any (fun r => (cstBad s ⟨.pairing, r.1, r.2.1, r.2.2⟩).isSome) then some 0x150B
  else none

/-- The effect of an accepted grant (R445, R446, R448). -/
def applyGrant (s : State) (g : Bytes) : State :=
  let l := fieldLe g 0x40 4
  let h := fieldLe g 0x44 4
  let left := reqTime s + us l - s.tbTime
  let s := (grantRaises s g).foldl (fun s r => (pairCount s r.1 r.2.1 r.2.2).1) s
  match fieldLe g 6 1 with
  | 1 => tset (modPair s fun p => { p with lease := l }) .lease left
  | 2 =>
    let c := fieldLe g 8 4
    let s := modPair s fun p => { p with claim := c, mayDrive := decide (h = 0), lease := l }
    let s := tset (tstop s .holdoff) .lease left
    let s := if h = 0 then s else tset s .holdoff (us h)
    pairEval (hwExtend s 6 (claimRecord s true (fieldLe g 7 1) c))
  | 3 => endClaim s 4
  | _ => s

/-- A grant is checked and applied or refused (R445); `origin` is that of PAGE_ERR_INFO. -/
def grantArrives (s : State) (g : Bytes) (origin : Nat) : State :=
  let st := pairReg 0x05C
  let s := rsetf s st 20 18 (fieldLe g 6 1)
  match grantBad s g with
  | some code => irq (report (rsetf s st 15 0 code) .pair 0 code (if origin = 1 then 0x130 else 0) origin) .pair 0 2
  | none =>
    let s := rsetb (rsetb (rsetf s st 15 0 0) st 16 false) st 17 true
    applyGrant (irq (tstop s .pairReq) .pair 0 1) g

/-- The grant in PAIR_GRANTw. -/
def heldGrant (s : State) : Bytes := rbytes s (pairReg 0x0A0) 36
/-- The grant in PAIR_GRANTw is checked, after a reconcile in progress (R321) and once TBCLK is there: during timebase loss no claim is
valid (R55, assumption log 119). -/
def grantGo (s : State) (origin : Nat) : State :=
  if s.reconciling ∨ s.tbLoss then modPair s fun p => { p with grantWaits := some origin } else grantArrives s (heldGrant s) origin

/-- The grant that has waited is checked (R55, R321). -/
def grantResume (s : State) : State :=
  match s.pair.grantWaits with
  | some origin => if s.reconciling ∨ s.tbLoss then s else grantArrives (modPair s fun p => { p with grantWaits := none }) (heldGrant s) origin
  | none => s
/-- LEASE_EXPIRY (R446). -/
def execLeaseExpiry (s : State) : Host.Outcome State Fault Refusal := done (fire s .lease fun s => endClaim s 1)
/-- HOLDOFF_END (R446). -/
def execHoldoffEnd (s : State) : Host.Outcome State Fault Refusal :=
  done (fire s .holdoff fun s => pairEval (modPair s fun p => { p with mayDrive := true }))

/-! ### Beats (R450) -/

/-- The beat period in cycles (R450). -/
def beatCycles : Nat := 1000
/-- The beat timeout in cycles. -/
def beatTimeout (s : State) : Nat := beatCycles * rfld s (pairReg 0x044) 23 16
/-- The health-report interval in cycles (R454). -/
def healthCycles (s : State) : Nat := ms (10 * rfld s (pairReg 0x044) 31 24)
/-- The pairing unit starts at the end of a hardware phase (R440, R450, R454, R457). -/
def pairStart (s : State) : State :=
  if paired s ∧ pagePresent s.part .pair 0 then
    tset (tset (tset s .beatSend beatCycles) .beatPeer (beatTimeout s)) .health (healthCycles s)
  else modPair s fun p => { p with drove := true }

/-- PAIR_BEAT_SEND (R450). -/
def execPairBeatSend (s : State) : Host.Outcome State Fault Refusal :=
  done (fire s .beatSend fun s =>
    let b := leBytes 1 (pairState s) ++ leBytes 1 (linkFlags s) ++ zeros 2 ++ leBytes 4 s.pair.claim
    let s := sendFrame s (peerNode s) 0x51 b
    tset (if witnessMode s then sendFrame s (arbNode s) 0x51 b else s) .beatSend beatCycles)

/-- BEAT_TIMEOUT (R450). -/
def execBeatTimeout (s : State) : Host.Outcome State Fault Refusal :=
  done (fire s .beatPeer fun s =>
    let s := irq (modPair s fun p => { p with beatsLost := true }) .pair 0 9
    if s.pair.claim = 0 ∧ rbit s (pairReg 0x044) 14 then tset (pairRequest s 2) .claimAgain (ms 100) else s)

/-- CLAIM_REQUEST_REPEAT (R450). -/
def execClaimRequestRepeat (s : State) : Host.Outcome State Fault Refusal :=
  done (fire s .claimAgain fun s =>
    if s.pair.beatsLost ∧ s.pair.claim = 0 ∧ rbit s (pairReg 0x044) 14 then tset (pairRequest s 2) .claimAgain (ms 100) else s)

/-- A beat of node `src` arrives (R449, R450). -/
def beatIn (s : State) (src : Nat) : State :=
  let s := if paired s ∧ src = peerNode s then
      tset (tstop (modPair s fun p => { p with beatsLost := false, peerNode := src }) .claimAgain) .beatPeer (beatTimeout s)
    else s
  if !rbit s (pairReg 0x044) 6 then s
  else if s.pair.wbeats.any fun e => decide (e.1 = src) then
    modPair s fun p => { p with wbeats := p.wbeats.map fun e => if e.1 = src then (src, s.tbTime) else e }
  else if s.pair.wbeats.length < 16 then modPair s fun p => { p with wbeats := p.wbeats ++ [(src, s.tbTime)] }
  else s

/-! ### Health reports (R454) -/

/-- The data frames of port `n`'s RESIDENT windows. -/
def residentFrames (s : State) (n : Nat) : List Nat :=
  ((wins s n).filter fun d => decide (d.pol = 1)).flatMap fun d => (List.range (d.l + 1 - d.b)).map fun i => d.frm + i
/-- Port `n` is filled: every block of its RESIDENT windows is in a VALID frame. -/
def portFilled (s : State) (n : Nat) : Bool :=
  (match (port s n).st with | .releasePending => true | .running => true | .updateStaged => true | _ => false) &&
  (residentFrames s n).all fun f => decide ((frame s f).st = .valid)
/-- The health report (R454). -/
def healthReport (s : State) : Bytes :=
  let ports := List.range s.part.ports
  let allFilled := ports.all fun n => !(decide ((port s n).st = .running)) || portFilled s n
  let head := leBytes 1 (pairState s) ++
    leBytes 1 (b2n (s.pair.claim != 0) + 2 * b2n s.pair.fresh + 4 * b2n (driving s) + 8 * b2n (swapHold s) + 16 * b2n s.locked +
      32 * b2n allFilled) ++
    leBytes 1 (myNode s) ++ leBytes 1 (b2n (pairSide s == 2)) ++ leBytes 4 s.pair.claim ++ leBytes 4 (peerClaim s) ++
    leBytes 4 (((tget s .lease).getD 0 + 99) / 100) ++ leBytes 4 (rget s (reg .cje 0 0x054)).toNat ++
    leBytes 4 (rget s (reg .cje 0 0x050)).toNat ++ leBytes 8 s.tbTime
  let one (n : Nat) : Bytes :=
    if n < s.part.ports then
      let p := port s n
      leBytes 1 p.st.code ++ leBytes 1 (b2n (p.st == .quarantined) + 2 * b2n (portFilled s n)) ++ leBytes 2 p.fillCount ++ p.fillFold
    else zeros 12
  head ++ (List.range 16).flatMap one ++ rbytes s (pairReg 0x180) 8

/-- A health report is built, held and sent (R454). -/
def sendHealth (s : State) : State :=
  let r := healthReport s
  let s := rsetBytes s (pairReg 0x400) 64 r
  if witnessMode s then sendPair s (arbNode s) (leBytes 1 2 ++ zeros 3 ++ r) else irq s .pair 0 0

/-- HEALTH_REPORT_TIMER (R454). -/
def execHealthReportTimer (s : State) : Host.Outcome State Fault Refusal :=
  done (fire s .health fun s => tset (sendHealth s) .health (healthCycles s))

/-! ### Mirroring (R453) -/

/-- A record a standby unit refuses. -/
def mirrorRefused (s : State) : State := report s .pair 0 0x150D 0 3
/-- A record of node `src` may be applied: this unit is standby and `src` its peer; kind and data. -/
def mirrorParse (s : State) (src : Nat) (p : Bytes) : Option (Nat × Bytes) :=
  let n := fieldLe p 2 2
  if pairState s = 0x33 ∧ src = peerNode s ∧ 1 ≤ n ∧ n ≤ 256 ∧ p.length = 8 + n then some (fieldLe p 1 1, p.drop 8) else none
/-- A record waits for firmware, in a queue of eight (R453). -/
def queueMirror (s : State) (kind : Nat) (d : Bytes) : State :=
  if s.pair.mrx.length ≥ 8 then mirrorRefused s
  else irq (modPair s fun p => { p with mrx := p.mrx ++ [(kind, d)] }) .pair 0 5

/-- The port of a counter of R319. -/
def portOfCtr (c : Nat) : Nat := (c - 4) / 4
/-- Every mirrored raise still to succeed is asked of the counter store again (R453, R457). -/
def requeueApplies (s : State) : State :=
  if s.locked then s else
  s.pair.applies.foldl (fun s a =>
    let o : CstOp := ⟨.port (portOfCtr a.1), true, a.1, a.2⟩
    if s.cstOps.any fun x => decide (x = o) then s else { s with cstOps := s.cstOps ++ [o] }) s
/-- A COUNTER record arrives: a raise of the port's counter, or a record for firmware (R453). -/
def mirrorCounter (s : State) (src : Nat) (p : Bytes) : State :=
  match mirrorParse s src p with
  | some (1, d) =>
    let c := fieldLe d 0 1
    if d.length ≠ 16 ∨ !allZero (sliceZ d 1 7) then mirrorRefused s
    else if 4 ≤ c ∧ c ≤ 67 then
      requeueApplies (modPair s fun p => { p with applies := p.applies ++ [(c, fieldLe d 8 8)] })
    else queueMirror s 1 d
  | _ => mirrorRefused s
/-- A QUARANTINE record arrives: a failed check of the standby's port with the recorded cause (R453). -/
def mirrorQuarantineIn (s : State) (src : Nat) (p : Bytes) : State :=
  match mirrorParse s src p with
  | some (2, d) =>
    let n := fieldLe d 0 1
    let r := sliceZ d 4 80
    if d.length ≠ 84 ∨ !allZero (sliceZ d 1 3) ∨ !portOn s n then mirrorRefused s
    else if (port s n).st = .held ∨ (port s n).st = .quarantined then s
    else failedWith s n (fieldLe r 0 2) (fieldLe r 2 1) (fieldLe r 3 1) (fieldLe r 4 4) (fieldLe r 8 4) r
  | _ => mirrorRefused s
/-- A record for firmware arrives (R453). -/
def mirrorFirmware (s : State) (src : Nat) (p : Bytes) : State :=
  match mirrorParse s src p with
  | some (k, d) => if 0x10 ≤ k ∧ k ≤ 0x1F then queueMirror s k d else mirrorRefused s
  | none => mirrorRefused s

/-- A write of PAIR_MTX_CTRL (R453, R458). -/
def mtxWrite (s : State) (c : WCtx) : State :=
  let k := fld c.data 7 0
  let n := fld c.data 16 8
  let st := pairReg 0x138
  if !bit c.data 31 then s
  else if s.pair.mtxBusy.isSome then busyW s c
  else if pairState s ≠ 0x66 ∨ n = 0 ∨ n > 256 ∨ !(k == 1 || (decide (0x10 ≤ k) && decide (k ≤ 0x1F))) then
    irq (rsetf (refuseW s .pair 0 0x150D c) st 31 16 0x150D) .pair 0 6
  else
    let q := s.pair.mtxSeq
    sendMirror (modPair s fun p => { p with mtxBusy := some q }) k ((rbytes s (pairReg 0x200) 64).take n)

/-- A reliable PAIR frame to `node` has been acknowledged (code 0) or given up with a code: the send that waits for it ends. -/
def pairFrameDone (s : State) (node : Nat) (payload : Bytes) (code : Nat) : State :=
  if fieldLe payload 0 1 = 4 ∧ s.pair.mtxBusy = some (fieldLe payload 4 4) then
    irq (rsetf (modPair s fun p => { p with mtxBusy := none }) (pairReg 0x138) 31 16 code) .pair 0 6
  else if fieldLe payload 0 1 = 3 ∧ s.pair.woutBusy = some node then
    irq (rsetf (modPair s fun p => { p with woutBusy := none }) (pairReg 0x154) 31 16 code) .pair 0 8
  else s

/-! ### The witness (R449) -/

/-- A request or health report of node `src` enters the inbox of four (R449). -/
def witnessIn (s : State) (src : Nat) (p : Bytes) : State :=
  if !rbit s (pairReg 0x044) 6 then s
  else if s.pair.win.length ≥ 4 then report s .pair 0 0x150F 0 3
  else irq (modPair s fun q => { q with win := q.win ++ [(src, p.take 264)] }) .pair 0 7

/-- A write of PAIR_WOUT_CTRL (R449). -/
def woutWrite (s : State) (c : WCtx) : State :=
  let n := fld c.data 5 0
  if !bit c.data 31 then s
  else if s.pair.woutBusy.isSome then busyW s c
  else if !rbit s (pairReg 0x044) 6 ∨ n = myNode s then
    irq (rsetf (refuseW s .pair 0 0x150F c) (pairReg 0x154) 31 16 0x150F) .pair 0 8
  else sendPair (modPair s fun p => { p with woutBusy := some n }) n (leBytes 1 3 ++ zeros 3 ++ rbytes s (pairReg 0x700) 36)

/-- A GRANT frame arrives: it is loaded into PAIR_GRANTw, checked and applied (R449, R458). -/
def grantIn (s : State) (p : Bytes) : State :=
  if p.length ≠ 148 then s else grantGo (rsetBytes s (pairReg 0x0A0) 36 (p.drop 4)) 3

/-! ### Warming (R452) -/

/-- The flash ranges a deciding port re-reads. -/
def warmList (s : State) (n : Nat) : List (Nat × Nat) :=
  let p := port s n
  [p.manAt] ++ ((p.trees.filter (·.loaded)).map fun t => (t.addr, dttLen t.leaves)) ++
  ((wins s n).filter fun d => decide (d.pol = 1)).flatMap fun d =>
    (List.range (d.l + 1 - d.b)).map fun i => (flashAddr s n p.sel ((d.b + i) * 4096), 4096)
/-- A write of PAIR_WARM. -/
def warmWrite (s : State) (c : WCtx) : State :=
  if fld c.data 31 16 ≠ 0xA5C3 then refuseW s .pair 0 0x150C c
  else (List.range s.part.ports).foldl (fun s n =>
    if bit c.data n ∧ portOn s n ∧ (port s n).st.deciding then modPort s n fun p => { p with warm := warmList s n } else s) s

/-! ### Register writes (R458) -/

/-- A valid write of PAIR_CFG: a running beat timeout and report interval have the new limits (R450, R454, assumption log 100). -/
def pairCfgWrite (s : State) (c : WCtx) : State :=
  let t := storeW s c
  tlimit (tlimit t .beatPeer (beatTimeout s) (beatTimeout t)) .health (healthCycles s) (healthCycles t)
/-- Writes to the PAIR page. -/
def pairWrite (s : State) (c : WCtx) : State :=
  let o := c.off % 4096
  if o = 0x044 then
    if !c.locked ∧ (fld c.new 23 16 = 0 ∨ fld c.new 31 24 = 0) then refuseW s .pair 0 0x150C c else pairCfgWrite s c
  else if o = 0x058 then reqCmdWrite s c
  else if o = 0x078 then warmWrite s c
  else if o = 0x130 then
    if fld c.data 31 16 ≠ 0xA5C3 then refuseW s .pair 0 0x150C c else if bit c.data 0 then grantGo s 1 else s
  else if o = 0x134 then mtxWrite s c
  else if o = 0x140 then
    if !bit c.data 0 then s
    else if s.pair.mrx = [] then busyW s c else modPair s fun p => { p with mrx := p.mrx.drop 1 }
  else if o = 0x144 then
    if !bit c.data 0 then s else if paired s then sendHealth s else refuseW s .pair 0 0x1501 c
  else if o = 0x14C then
    if !bit c.data 0 then s
    else if s.pair.win = [] then busyW s c else modPair s fun p => { p with win := p.win.drop 1 }
  else if o = 0x150 then woutWrite s c
  else storeW s c

/-! ### Standby operation (R451) -/

/-- The manifest a running check job of port `n` reads, and once its manifest has been seen the DTTs of a STAGE job. -/
def manifestWants (s : State) (n : Nat) : List (Nat × Nat × Nat) :=
  (jobsWith s fun j => boundTo j n && decide (j.st = .running) && j.unit.isSome).flatMap fun e =>
    match manParams s e.2 with
    | none => []
    | some p =>
      let whole := (jobCs p, jobFa s p p.manifest, 512)
      let man := seenBytes (port s n) whole
      if manReads s p man = [] then []
      else whole :: (if seenAll (port s n) (whole.1, whole.2.1, manExtent man) then
        (stageTrees s p man).map fun t => (0, t.addr, dttLen t.leaves) else [])
/-- The accesses that port `n` waits for, as chip select, address and length. -/
def wanted (s : State) (n : Nat) : List (Nat × Nat × Nat) :=
  let p := port s n
  let cs := if p.st = .recovering then 1 else 0
  manifestWants s n ++
  (p.leafReqs.filterMap fun r => (treeOf p r.image).map fun t => (cs, pairAt t r.leaf)) ++
  ownReads s n .tree ++ ownReads s n .fill ++
  (match completing p with | some b => [(0, b.fa + b.comp.getD b.ptr, 4096 - b.comp.getD b.ptr)] | none => []) ++
  (p.refills.map fun f => (0, frameFa s n f, 4096)) ++ p.warm.map fun a => (0, a)

/-- The only access of a purpose, seen whole. -/
def seenOne (s : State) (n : Nat) (k : Own) : Option (Nat × Nat × Nat) :=
  (ownReads s n k).head?.filter fun r => seenAll (port s n) r
/-- The first pending own access whose bytes have all been seen is satisfied, in the order of R29, where a hash lane takes its work. -/
def snoopServe (s : State) (n : Nat) : Option State :=
  let p := port s n
  let trees := ownReads s n .tree
  if (flashLane s).isNone then none
  else match seenOne s n .leaf with
  | some r => some (leafFetched (flashHash (forget s n r) 2) n (seenBytes p r) .clean)
  | none =>
    if p.seq = .treeLoad ∧ trees.all (seenAll p) then
      some (treeLoadEnds (trees.foldl (fun s r => forget s n r) (flashHash s (2 * (((treesToLoad s n).map fun t =>
        ((treeSizes t.leaves).drop 1).foldl (· + ·) 0).foldl (· + ·) 0)))) n (trees.map (seenBytes p)))
    else match completing p with
    | some b =>
      let at_ := b.comp.getD b.ptr
      let r := (0, b.fa + at_, seenLen p (0, b.fa + at_, 4096 - at_))
      if r.2.2 = 0 then none else some (completeWith (forget s n r) n b (seenBytes p r))
    | none =>
      match seenOne s n .fill, seenOne s n .refill, seenOne s n .warm with
      | some r, _, _ => some (fillBlock (flashHash (forget s n r) 33) n (seenBytes p r))
      | none, some r, _ => some (refillRead (flashHash (forget s n r) 33) n (seenBytes p r))
      | none, none, some r => some (modPort (forget s n r) n fun p => { p with warm := p.warm.drop 1 })
      | none, none, none => none

/-- Own accesses satisfied one after another, at most `k`. -/
def snoopAll (n : Nat) : Nat → State → State
  | 0, s => s
  | k + 1, s => match snoopServe s n with | some s => snoopAll n k s | none => s

/-- SNOOPED_FLASH_COMMAND (R451): a unit that does not drive decodes a read from flash address `fa` with its data; `poll` is
the WIP bit of a snooped busy poll of CS0. -/
def execSnoopedFlashCommand (n : Nat) (fa : ChipAddr) (data : Bytes) (poll : Option Bool) (s : State) : Host.Outcome State Fault Refusal :=
  done (
    if !portOn s n ∨ !pairUp s ∨ driving s then s else
    let s := match poll with
      | some b => modPort s n fun p => { p with cs0Busy := b }
      | none => s
    let want := wanted s n
    let bytes := ((List.range data.length).map fun i => (snoopKey fa.cs (fa.addr + i), data.getD i 0)).filter fun e =>
      want.any fun r => decide (snoopKey r.1 r.2.1 ≤ e.1) && decide (e.1 < snoopKey r.1 r.2.1 + r.2.2)
    let s := modPort s n fun p =>
      { p with snoop := bytes.foldl (fun t e => Tbl.set (fun _ => (none : Option Byte)) t e.1 (some e.2)) p.snoop }
    snoopAll n 64 s)

end Sys2Proof.Machine
end

