-- ==== Sys2Proof/Machine/CstDone.lean ====
section
/-! DEFINITION. Machine/CstDone.lean: a counter-store operation ends, and its requester is told; the reconcile ends (R320 to R324). -/
namespace Sys2Proof.Machine

/-- An instance's counter operation ends (R382): code and whether the value changed, in INSTi_CTR_RESULT. -/
def instCtrEnds (s : State) (i code : Nat) (changed : Bool) : State :=
  let a := reg .inst i 0x0BC
  let s := rset s a (mk 15 0 code ||| mk 17 17 (b2n changed))
  irq s .inst i 3

/-- The requester of an ended operation is told (R320). -/
def tellRequester (s : State) (o : CstOp) (code : Nat) (changed : Bool) : State :=
  match o.req with
  | .core q => coreCstEnds s q code changed
  | .inst i => instCtrEnds s i code changed
  | .pairing => s
  | .port n =>
    let ok := decide (code = 0)
    let s := if ok then mirrorRaise s o.ctr o.arg else s
    let s := modPair s fun p => { p with applies := if ok then p.applies.filter fun a => !(a.1 == o.ctr && a.2 == o.arg) else p.applies }
    requeueApplies (portRaised s n (o.ctr, o.arg) ok)

/-- COUNTER_OPERATION_DONE (R320, R322): the waiting operation `k`, counted from the oldest, has been granted and ends; `aFails` and
`bFails` say that copy's verify failed twice.  Nothing while a reconcile runs or where none waits; with the domain off every request is
refused (R324). -/
def execCounterOperationDone (k : Nat) (aFails bFails : Bool) (s : State) : Host.Outcome State Fault Refusal :=
  done (
    if (s.reconciling ∧ domOn s 29) ∨ s.rst ≠ .none then s else
    match s.cstOps[k]? with
    | none => s
    | some o =>
      let s := { s with cstOps := s.cstOps.eraseIdx k }
      let (s, code, changed) := cstApply s o aFails bFails
      tellRequester s o code changed)

/-- RECONCILE_DONE (R321): waiting operations may be granted, the claims seen meanwhile are counted (R441), and a grant that waited is
checked; `bad` are the counters whose rewrite
fails its verify twice. -/
def execReconcileDone (bad : List Nat) (s : State) : Host.Outcome State Fault Refusal :=
  done (
    if !s.reconciling ∨ !domOn s 29 ∨ s.rst = .por then s
    else
      let s := reconcileEnds s bad
      let seen := s.pair.claimSeen
      let s := modPair s fun p => { p with claimSeen := 0 }
      grantResume (if seen > counter s 133 then (pairCount s true 133 seen).1 else s))

end Sys2Proof.Machine
end

