-- ==== Sys2Proof/Machine/Inst.lean ====
section
/-! DEFINITION. Machine/Inst.lean: service instances (R378 to R401): creation, reset and removal, fault resolution, freeze, save and
restore, instance counters, and the manager channel. -/
namespace Sys2Proof.Machine

/-! ### Reset and removal (R390 to R393) -/

/-- The tags of instance `i`'s jobs, in tag order. -/
def instTags (s : State) (i : Nat) : List Nat := (jobsWith s fun j => decide (j.sub = .inst i)).map (·.1)
/-- Cycles until no remote item issued less than 1 s ago carries the generation that instance `i`'s next increment gives (R393). -/
def genWait (s : State) (i : Nat) : Nat :=
  let g := ((inst s i).gen + 1) % 256
  ((s.issued.filter fun e => decide (e.1 = i) && decide (e.2.1 = g)).map fun e => e.2.2.1 + 100000000 - s.tbTime).foldl max 0

/-- A job when a reset lands in drain mode (R390); `ws` is what entry writes meet. -/
def drainJob (a : State × List Walk) (tag : Nat) : State × List Walk :=
  let (s, ws) := a
  match job? s tag with
  | none => (s, ws)
  | some j =>
    let ends := (finish s tag { status := 0x0C0D, ran := false } (ws.take 1), ws.drop 1)
    match j.st with
    | .queued => ends
    | .faultFetch => ends
    | .faultSave => ends
    | .preempted => (s, ws)
    | .running => if j.done.isSome then (squash s tag, ws) else (s, ws)
    | _ => (squash s tag, ws)
/-- Steps 2 to 4 of an instance reset, once its generation may increment (R390). -/
def resetGoes (s : State) (i : Nat) (ws : List Walk) : State :=
  let x := inst s i
  let s := setInst s i { x with gen := (x.gen + 1) % 256, bumped := true }
  let remote := (jobsWith s fun j => decide (j.sub = .inst i) && j.fwd.isSome).map (·.1)
  let s := remote.foldl squash s
  let s := match x.rst with
    | some (.reset true, _) => ((instTags s i).foldl drainJob (s, ws)).1
    | _ => (instTags s i).foldl squash s
  let s := drainCheck s i
  if (inst s i).st = .resetting then tset s (.drain i) (ms 10) else s
/-- An instance reset begins (R390): its pages enter reset, and step 2 waits as R393 says. -/
def resetBegins (s : State) (i : Nat) (kind : InstReset) (back : InstSt) (cmd : Nat) (ws : List Walk) : State :=
  let s := { s with instRst := if s.instRst.contains i then s.instRst else i :: s.instRst }
  let s := setInst s i { inst s i with st := .resetting, rst := some (kind, back), bumped := false, cmd := cmd }
  match genWait s i with
  | 0 => resetGoes s i ws
  | n => tset s (.genDelay i) n

/-- Instance `i` is removed (R378): DESTROY, or a reset in progress turned into one. -/
def removeInst (s : State) (i : Nat) (cmd : Nat) : State :=
  let x := inst s i
  match x.st with
  | .none => s
  | .resetting =>
    let s := setInst s i { x with rst := some (.destroy, .none), cmd := cmd }
    if x.bumped then drainCheck ((instTags s i).foldl squash s) i else s
  | _ => resetBegins s i .destroy .none cmd []
/-- The state an instance reset returns to (R378). -/
def resetBack : InstSt → InstSt | .awaitRestore => .awaitRestore | _ => .active
/-- VF i FLR (R362, R378): squash mode; SAVED becomes NONE. -/
def flrInst (s : State) (i : Nat) : State :=
  let x := inst s i
  match x.st with
  | .none => s
  | .saved => removeInst s i 0
  | .resetting =>
    (match x.rst with
     | some (.reset true, back) =>
       let s := setInst s i { x with rst := some (.reset false, back) }
       if x.bumped then drainCheck ((instTags s i).foldl squash s) i else s
     | _ => s)
  | st => resetBegins s i (.reset false) (resetBack st) 0 []

/-- GENERATION_DELAY_END (R393). -/
def execGenerationDelayEnd (i : Nat) (ws : List Walk) (s : State) : Host.Outcome State Fault Refusal :=
  done (fire s (.genDelay i) fun s => resetGoes s i ws)
/-- DRAIN_TIMEOUT (R390). -/
def execDrainTimeout (i : Nat) (s : State) : Host.Outcome State Fault Refusal :=
  done (fire s (.drain i) fun s => drainCheck ((instTags s i).foldl squash s) i)

/-! ### CREATE (R379, R380) -/

/-- Two ranges, as first and count, have an element in common; an empty range has none. -/
def meet (a b : Nat × Nat) : Bool := decide (max a.1 b.1 < min (a.1 + a.2) (b.1 + b.2))
/-- The counter range of instance `i`: first and count. -/
def ctrRange (s : State) (i : Nat) : Nat × Nat := (rfld s (instReg i 0x094) 7 0, rfld s (instReg i 0x094) 14 8)
/-- The resources written for instance `i` are refused (R379, R380). -/
def createBad (s : State) (i : Nat) : Bool :=
  let q := rget s (instReg i 0x08C)
  let keys := instKeys s i
  let ctrs := ctrRange s i
  let tags := fld q 8 0
  let others := (List.range 65).filter fun k => decide (k ≠ i) && decide ((inst s k).st ≠ .none)
  decide (tags = 0) || decide (tags > 256) || decide (fld q 15 12 < 4) || decide (fld q 15 12 > 12) ||
  decide (fld q 18 16 = 0) || decide (fld q 18 16 > 4) ||
  decide (keys.2 < 2) || decide (keys.2 > 504) || decide (keys.1 < 8) || decide (keys.1 + keys.2 > 512) ||
  decide (ctrs.2 > 64) || (decide (ctrs.2 ≠ 0) && (decide (ctrs.1 < 68) || decide (ctrs.1 + ctrs.2 > 132))) ||
  decide (quotaSum s + tags > 1024 - rfld s (reg .cje 0 0x048) 10 0 - rfld s (reg .cje 0 0x048) 26 16) ||
  (List.range keys.2).any (fun k => decide ((kslot s (keys.1 + k)).st ≠ .empty)) ||
  others.any (fun k => meet keys (instKeys s k)) || others.any fun k => meet ctrs (ctrRange s k)
/-- CREATE (R378, R380, R381). -/
def createInst (s : State) (i : Nat) (await : Bool) : State :=
  if (inst s i).st ≠ .none ∨ (i ≠ 0 ∧ vfCount s < i) then instCmdEnds s i 1 0x0C1B
  else if (kslot s 4).st ≠ .live then instCmdEnds s i 1 0x0A09
  else if createBad s i then instCmdEnds s i 1 0x0C1C
  else
    let s := setInst s i { inst s i with st := if await then .awaitRestore else .active }
    instCmdEnds (makeMig (makeRoot (ownCtrs s i (mk 1 0 2 ||| mk 14 8 i)) i) i) i 1 0

/-! ### Freeze, save, restore (R395 to R400) -/

/-- INSTANCE_FROZEN (R395). -/
def execInstanceFrozen (i : Nat) (s : State) : Host.Outcome State Fault Refusal :=
  done (if (inst s i).st = .freezing ∧ instTags s i = [] then setInst s i { inst s i with st := .frozen } else s)

/-- INSTi_PEER_PUB and INSTi_PEER_CHAL. -/
def peerPub (s : State) (i : Nat) : Bytes := rbytes s (instReg i 0x140) 8
/-- INSTi_PEER_CHAL. -/
def peerChal (s : State) (i : Nat) : Bytes := rbytes s (instReg i 0x160) 8
/-- INSTi_MIG_PUB. -/
def migPub (s : State) (i : Nat) : Bytes := rbytes s (instReg i 0x100) 8
/-- INSTi_CHAL. -/
def ownChal (s : State) (i : Nat) : Bytes := rbytes s (instReg i 0x120) 8
/-- The WMS nonce that binds a migration key to the peer's challenge (R396). -/
def bindNonce (pub chal : Bytes) : Bytes := (sha512 (ascii "WDX-MIG-BIND-V01" ++ pub ++ chal)).take 32
/-- The peer WMS passes the checks of R396 for a command of core `q`. -/
def peerWmsOk (s : State) (i q : Nat) (w : Bytes) : Bool :=
  let n := rfld s (instReg i 0x194) 13 0
  let x := kslot s (rfld s (instReg i 0x194) 24 16)
  let w := sliceZ w 0 n
  decide (368 ≤ n) && decide (n ≤ 10992) && decide (n = fieldLe w 8 4) && decide (w.take 4 = ascii "WMST") &&
  decide (fieldLe w 4 2 = 1) && decide (fieldLe w 6 2 = 0x130) && decide (fieldLe w 0x0E 1 ≤ 144) &&
  decide (fieldLe w 0x0F 1 ≤ 16) && decide (n = 0x130 + 72 * fieldLe w 0x0E 1 + 16 * fieldLe w 0x0F 1 + 64) &&
  allZero (sliceZ w 0x102 2) && allZero (sliceZ w 0x124 12) &&
  decide (x.st = .live) && decide (x.ktype = 2) && x.may 1 && decide (x.ownerKind = 0) &&
  (decide (x.owner = q) || decide (x.owner = 0)) && decide (x.key = sliceZ w 0x40 32) &&
  ed25519Verify x.key (wmsDomain ++ w.take (n - 64)) (w.drop (n - 64)) &&
  decide (fieldLe w 0x0C 1 = 2) && decide (fieldLe w 0x16 1 = 0) &&
  decide (sliceZ w 0xE0 32 = bindNonce (peerPub s i) (ownChal s i))

/-- The slots of instance `i` that a blob carries, parents first (R398): relative indices. -/
def carried (s : State) (i : Nat) : List Nat :=
  let (first, count) := instKeys s i
  let pass (done : List Nat) : List Nat := (List.range count).foldl (fun done r =>
    let x := kslot s (first + r)
    let parentIn : Bool := match x.parent with
      | some p => decide (first ≤ p) && done.contains (p - first) && linkHolds s (first + r)
      | none => false
    if r = 0 ∨ done.contains r ∨ x.st ≠ .live ∨ !x.may 5 ∨ !parentIn then done else done ++ [r]) done
  ((List.range 8).foldl (fun d _ => pass d) [0]).drop 1
/-- The configuration record (R398). -/
def configRecord (s : State) (i : Nat) : Bytes :=
  let q := rget s (instReg i 0x08C)
  leBytes 2 (fld q 8 0) ++ leBytes 1 (fld q 15 12) ++ leBytes 1 (fld q 18 16) ++ leBytes 2 (instKeys s i).2 ++
  leBytes 1 (ctrRange s i).2 ++ leBytes 1 (b2n (bit q 20)) ++ rbytes s (instReg i 0x040) 6 ++
  leBytes 4 (rget s (instReg i 0x058)).toNat ++ leBytes 2 (rfld s (instReg i 0x05C) 11 0) ++
  leBytes 2 (rfld s (instReg i 0x060) 11 0) ++ leBytes 2 (rfld s (reg .doorbell i 0x044) 11 0) ++
  leBytes 2 (rfld s (reg .doorbell i 0x048) 11 0) ++ leBytes 1 (b2n (ringPhase s (.inst i))) ++ zeros 19
/-- The plaintext body (R398). -/
def blobBody (s : State) (i : Nat) : Bytes :=
  let (first, _) := instKeys s i
  configRecord s i ++
  (carried s i).flatMap (fun r =>
    let x := kslot s (first + r)
    leBytes 2 r ++ leBytes 2 (x.usage + 256 * x.ktype) ++ leBytes 2 (x.parent.getD first - first) ++ zeros 10 ++
      sliceZ x.key 0 64) ++
  (List.range (ctrRange s i).2).flatMap fun k => leBytes 1 k ++ zeros 7 ++ leBytes 8 (counter s ((ctrRange s i).1 + k))
/-- The key of a blob (R397). -/
def migKey (z qs qd cs cd : Bytes) : Bytes := derive z "WDX-MIG-KEY" (qs ++ qd ++ cs ++ cd) 256
/-- SAVE (R397) for core `q`. -/
def saveInst (s : State) (i q : Nat) (inp : BusIn) : State :=
  let x := inst s i
  let ends (code : Nat) : State := instCmdEnds s i 6 code
  let peers := peerPub s i ++ peerChal s i
  if i = 0 ∨ !(x.st = .frozen ∨ (x.st = .saved ∧ x.savedTo = some peers)) then ends 0x0C1B
  else if s.locked then ends 0x0C19
  else match inp.wms with
  | none => ends 0x0D04
  | some w =>
    if !peerWmsOk s i q w then ends 0x0C1D else
    let z := x25519 x.mig (peerPub s i)
    if allZero z then ends 0x0C0F else
    let body := blobBody s i
    let total := 0xB0 + body.length + 16
    if total > rfld s (instReg i 0x188) 23 0 then ends 0x0C1E else
    let (iv, s) := draw s 12
    let header := ascii "WMB1" ++ leBytes 2 1 ++ leBytes 2 0xB0 ++ leBytes 4 total ++ leBytes 1 i ++ leBytes 1 x.gen ++
      leBytes 2 (carried s i).length ++ leBytes 4 s.part.cap ++ leBytes 1 (ctrRange s i).2 ++ zeros 3 ++ leBytes 8 s.tbTime ++
      migPub s i ++ peerPub s i ++ ownChal s i ++ peerChal s i ++ iv ++ zeros 4
    let (ct, tag) := gcmEnc (migKey z (migPub s i) (peerPub s i) (ownChal s i) (peerChal s i)) iv header body
    let s := emit s (.host 0 (addr64 s (instReg i 0x180)) (header ++ ct ++ tag))
    if !inp.blobOk then instCmdEnds s i 6 0x0D04
    else
      let s := rset s (instReg i 0x198) (BitVec.ofNat 32 total)
      instCmdEnds (setInst s i { x with st := .saved, savedTo := some peers }) i 6 0

/-- A carried key fills its slot (R400): the code, 0 when filled. -/
def restoreKey (i : Nat) (a : State × Nat) (r : Bytes) : State × Nat :=
  let (s, code) := a
  let (first, count) := instKeys s i
  let k := fieldLe r 0 2
  let spec := fieldLe r 2 2
  let p := fieldLe r 4 2
  let px := kslot s (first + p)
  let t := spec / 256 % 8
  if code ≠ 0 then (s, code)
  else if k = 0 ∨ k ≥ count ∨ p ≥ count ∨ px.st ≠ .live then (s, 0x0C1E)
  else if (kslot s (first + k)).st = .retired then (s, 0x0A04)
  else if px.depth ≥ 8 then (s, 0x0A03)
  else
    (setKslot s (first + k)
      { st := .live, ktype := t, usage := spec % 64, ownerKind := 1, owner := i, gen := (kslot s (first + k)).gen,
        parent := some (first + p), pgen := px.gen, depth := px.depth + 1,
        key := sliceZ r 0x10 (if t = 6 then 64 else 32) }, 0)
/-- A carried counter raises its counter (R400, R318). -/
def restoreCtr (i : Nat) (a : State × Nat) (r : Bytes) : State × Nat :=
  let (s, code) := a
  if code ≠ 0 then (s, code) else
  let (s, code, _) := cstApply s ⟨.inst i, true, (ctrRange s i).1 + fieldLe r 0 1, fieldLe r 8 8⟩ false false
  (s, code)
/-- The pieces of a byte string, `n` bytes each. -/
def chunksOf (n k : Nat) (bs : Bytes) : List Bytes := (List.range k).map fun j => sliceZ bs (n * j) n
/-- The ring registers a configuration record carries are loaded (R400). -/
def loadRings (s : State) (i : Nat) (c : Bytes) : State :=
  let s := rsetBytes s (instReg i 0x040) 6 (sliceZ c 0x08 24)
  let s := rset s (instReg i 0x058) (wordAtLe c 8)
  let s := rsetf (rsetf s (instReg i 0x05C) 11 0 (fieldLe c 0x24 2)) (instReg i 0x060) 11 0 (fieldLe c 0x26 2)
  let s := rsetf (rsetf s (reg .doorbell i 0x044) 11 0 (fieldLe c 0x28 2)) (reg .doorbell i 0x048) 11 0 (fieldLe c 0x2A 2)
  setPhase s (.inst i) (decide (fieldLe c 0x2C 1 ≠ 0))
/-- A blob's header matches R397 and this instance's key and challenge. -/
def blobHeaderOk (s : State) (i : Nat) (b : Bytes) : Bool :=
  decide (b.take 4 = ascii "WMB1") && decide (fieldLe b 4 2 = 1) && decide (fieldLe b 6 2 = 0xB0) &&
  decide (fieldLe b 8 4 = 0xB0 + 64 + 80 * fieldLe b 0x0E 2 + 16 * fieldLe b 0x14 1 + 16) &&
  decide (fieldLe b 8 4 ≤ rfld s (instReg i 0x188) 23 0) && allZero (sliceZ b 0x15 3) && allZero (sliceZ b 0xAC 4) &&
  decide (sliceZ b 0x40 32 = migPub s i) && decide (sliceZ b 0x80 32 = ownChal s i)
/-- The configuration record fits this instance (R400). -/
def configFits (s : State) (i : Nat) (c : Bytes) (ctrs : Nat) : Bool :=
  let q := rget s (instReg i 0x08C)
  decide (fieldLe c 0 2 = fld q 8 0) && decide (fieldLe c 2 1 = fld q 15 12) && decide (fieldLe c 3 1 = fld q 18 16) &&
  decide (fieldLe c 4 2 ≤ (instKeys s i).2) && decide (ctrs ≤ (ctrRange s i).2) && decide (fieldLe c 6 1 ≤ (ctrRange s i).2)
/-- RESTORE (R400) for core `q`. -/
def restoreInst (s : State) (i q : Nat) (inp : BusIn) : State :=
  let x := inst s i
  let ends (code : Nat) : State := instCmdEnds s i 7 code
  if i = 0 ∨ x.st ≠ .awaitRestore then ends 0x0C1B
  else if s.locked then ends 0x0C19
  else match inp.wms, inp.blob with
  | some w, some b =>
    if !peerWmsOk s i q w then ends 0x0C1D else
    let n := fieldLe b 8 4
    let b := sliceZ b 0 n
    if !blobHeaderOk s i b then ends 0x0C1E else
    let z := x25519 x.mig (peerPub s i)
    if allZero z then ends 0x0C0F else
    let k := migKey z (sliceZ b 0x20 32) (sliceZ b 0x40 32) (sliceZ b 0x60 32) (sliceZ b 0x80 32)
    (match gcmDec k (sliceZ b 0xA0 12) (b.take 0xB0) (sliceZ b 0xB0 (n - 0xC0)) (b.drop (n - 16)) with
     | none => ends 0x0C1E
     | some body =>
       let c := body.take 64
       let keys := fieldLe b 0x0E 2
       let ctrs := fieldLe b 0x14 1
       if !configFits s i c ctrs then ends 0x0C1C else
       let (first, count) := instKeys s i
       let s := ((List.range count).drop 1).foldl (fun s r =>
         if (kslot s (first + r)).st = .empty ∨ (kslot s (first + r)).st = .retired then s else endSlot s (first + r)) s
       let (s, code) := (chunksOf 80 keys (body.drop 64)).foldl (restoreKey i) (s, 0)
       let (s, code) := (chunksOf 16 ctrs (body.drop (64 + 80 * keys))).foldl (restoreCtr i) (s, code)
       if code ≠ 0 then instCmdEnds s i 7 code
       else
         let s := loadRings s i c
         instCmdEnds (setInst s i { inst s i with st := .frozen }) i 7 0)
  | none, _ => ends 0x0D04
  | _, none => ends 0x0D04

/-! ### Commands (R378, R401) -/

/-- A write of INSTi_CMD. -/
def instCmdWrite (s : State) (i : Nat) (c : WCtx) (inp : BusIn) : State :=
  let op := fld c.data 3 0
  let x := inst s i
  let ends (code : Nat) : State := instCmdEnds s i op code
  if fld c.data 31 16 ≠ 0xA5C3 then refuseW s .inst i 0x0C1B c else
  match op with
  | 1 => createInst s i (bit c.data 4)
  | 2 => if x.st = .none then ends 0x0C1B else removeInst s i 2
  | 3 =>
    if x.st = .active ∨ x.st = .frozen ∨ x.st = .awaitRestore then
      resetBegins s i (.reset (rbit s (instReg i 0x08C) 20)) (resetBack x.st) 3 inp.walks
    else ends 0x0C1B
  | 4 =>
    if i = 0 ∨ x.st ≠ .active then ends 0x0C1B
    else instCmdEnds (newChallenge (setInst s i { x with st := .freezing }) i) i 4 0
  | 5 =>
    if x.st = .freezing ∨ x.st = .frozen then instCmdEnds (setInst s i { x with st := .active }) i 5 0 else ends 0x0C1B
  | 6 => saveInst s i c.acc.master.toNat inp
  | 7 => restoreInst s i c.acc.master.toNat inp
  | _ => ends 0x0C1B

/-! ### Fault resolution (R386, R389) -/

/-- A parked job retries (R208): its save and its writes at once, its fetch when it gets a unit again. -/
def retryJob (a : State × List Walk) (tag : Nat) : State × List Walk :=
  let (s, ws) := a
  match job? s tag with
  | none => (s, ws)
  | some j =>
    match j.st with
    | .faultFetch => (setJob s tag { j with st := .preempted }, ws)
    | .faultSave => (saveRecord (setJob s tag { j with st := .preempted }) tag (ws.take 1), ws.drop 1)
    | .faultWrite =>
      let n := (((j.done.map (·.outs)).getD []).flatMap fun o => pieces o.1 o.2.length).length + 1
      (deliver (setJob s tag { j with st := .running }) tag (ws.take n), ws.drop n)
    | _ => (s, ws)
/-- The parked queue of instance `i` retries. -/
def unparkQueue (s : State) (i : Nat) : State := rsetb s (instReg i 0x064) 22 false
/-- Forwarded jobs of instance `i` lose their translations (R394). -/
def invalidateForwarded (s : State) (i : Nat) (a : List Walk) : State × List Walk :=
  (jobsWith s fun j => decide (j.sub = .inst i) && j.fwd.isSome).foldl
    (fun (p : State × List Walk) e =>
      match job? p.1 e.1 with
      | some j => (finish (setJob p.1 e.1 { j with fwd := none }) e.1 { status := 0x0D06 } (p.2.take 1), p.2.drop 1)
      | none => p) (s, a)
/-- The end of the jobs of instance `i` that an abort ends (R389). -/
def abortJob (a : State × List Walk) (tag : Nat) : State × List Walk :=
  let (s, ws) := a
  match job? s tag with
  | none => (s, ws)
  | some j =>
    match j.st with
    | .faultFetch => (finish s tag { status := 0x0D05 } (ws.take 1), ws.drop 1)
    | .faultSave => (finish s tag { status := 0x0D05 } (ws.take 1), ws.drop 1)
    | .faultWrite => (squash s tag, ws)
    | _ => (s, ws)
/-- A write of INSTi_RESUME (R389). -/
def resumeWrite (s : State) (i : Nat) (c : WCtx) (inp : BusIn) : State :=
  let (s, ws) := if bit c.data 2 ∨ bit c.data 0 then invalidateForwarded (ituDrop s i) i inp.walks else (s, inp.walks)
  let (s, ws) := if bit c.data 1 then (instTags s i).foldl abortJob (s, ws) else (s, ws)
  if bit c.data 0 then unparkQueue ((instTags s i).foldl retryJob (s, ws)).1 i else s

/-- The index of a page request is free: the oldest access that waits for one retries (R386). -/
def indexFree (s : State) (ws : List Walk) : State :=
  match s.prgWait with
  | [] => s
  | (i, tag) :: rest =>
    let s := { s with prgWait := rest }
    match tag with
    | some t => (retryJob (s, ws) t).1
    | none => unparkQueue s i
/-- PRG_RESPONSE (R386): the response of index `idx`, Success or not. -/
def execPrgResponse (idx : Nat) (success : Bool) (ws : List Walk) (s : State) : Host.Outcome State Fault Refusal :=
  done (
    match s.prgs.find? fun p => decide (p.idx = idx) with
    | none =>
      if s.prgStale.contains idx then indexFree (tstop { s with prgStale := s.prgStale.erase idx } (.prg idx)) ws else s
    | some p =>
      let s := tstop { s with prgs := s.prgs.filter fun x => !(x.idx == idx) } (.prg idx)
      let s := if success then s else irq (rcount s (reg .itu 0 0x050) 31 16 1) .itu 0 0
      match p.tag with
      | some t =>
        if success then indexFree (retryJob (s, ws) t).1 []
        else indexFree (finish s t { status := 0x0D03 } ws) []
      | none => indexFree (if success then unparkQueue s p.inst else s) [])
/-- PRG_INDEX_TIMEOUT (R386): the index may be used again; the access that waited for it stays parked. -/
def execPrgIndexTimeout (idx : Nat) (ws : List Walk) (s : State) : Host.Outcome State Fault Refusal :=
  done (fire s (.prg idx) fun s =>
    indexFree { s with prgs := s.prgs.filter (fun p => !(p.idx == idx)), prgStale := s.prgStale.erase idx } ws)

/-- REMOTE_JOB_TIMEOUT (R393). -/
def execRemoteJobTimeout (tag : Nat) (ws : List Walk) (s : State) : Host.Outcome State Fault Refusal :=
  done (fire s (.remJob tag) fun s =>
    match job? s tag with
    | some j => if j.fwd.isSome then finish (setJob s tag { j with fwd := none }) tag { status := 0x0C1A } ws else s
    | none => s)

/-! ### Counters and the manager channel (R382, R383) -/

/-- A write of INSTi_CTR_CMD (R382). -/
def instCtrWrite (s : State) (i : Nat) (c : WCtx) : State :=
  if rbit s (instReg i 0x0BC) 16 then busyW s c else
  let op := fld c.data 1 0
  let k := fld c.data 13 8
  if op = 0 ∨ op = 3 then instCtrEnds s i 0x0901 false
  else if k ≥ (ctrRange s i).2 then instCtrEnds s i 0x0C20 false
  else
    let s := rset s (instReg i 0x0BC) (mk 16 16 1)
    { s with cstOps := s.cstOps ++ [⟨.inst i, op == 2, (ctrRange s i).1 + k, addr64 s (instReg i 0x0B4)⟩] }

/-- MGR_STATE's channel state: 0 IDLE, 1 PENDING, 2 DONE. -/
def mgrState (s : State) : Nat := rfld s (instReg 0 0x424) 17 16
/-- A write of MGR_DOORBELL (R383). -/
def mgrDoorbellWrite (s : State) (c : WCtx) : State :=
  let n := fld c.data 18 8
  if mgrState s = 1 then refuseW s .inst 0 0x0C23 c
  else if n = 0 ∨ n > 1024 then refuseW s .inst 0 0x0C22 c
  else irq (rsetf (rsetf s (instReg 0 0x424) 7 0 (fld c.data 7 0)) (instReg 0 0x424) 17 16 1) .inst 0 8
/-- A write of MGR_RSP_CTRL (R383). -/
def mgrPublishWrite (s : State) (c : WCtx) : State :=
  if !bit c.data 31 then s
  else if mgrState s ≠ 1 ∨ fld c.data 7 0 ≠ rfld s (instReg 0 0x424) 7 0 ∨ fld c.data 18 8 > 1024 then
    refuseW s .inst 0 0x0C23 c
  else
    let s := rsetf (rsetf s (instReg 0 0x424) 15 8 (fld c.data 7 0)) (instReg 0 0x424) 28 18 (fld c.data 18 8)
    rsetf (rsetf s (instReg 0 0x424) 17 16 2) (instReg 0 0x430) 15 0 (rfld s (instReg 0 0x42C) 15 0)
/-- A write of MGR_FQ_CFG (R401): enabling resets the indices and the phase. -/
def fqCfgWrite (s : State) (c : WCtx) : State :=
  if bit c.old 8 ∨ !bit c.new 8 then storeW s c
  else if fld c.new 3 0 < 4 ∨ fld c.new 3 0 > 12 then refuseW s .inst 0 0x0C18 c
  else rset (rset { storeW s c with fqPhase := true } (fq 0x40C) 0) (fq 0x410) 0

/-- Writes to instance page `i`. -/
def instWrite (i : Nat) (inp : BusIn) (s : State) (c : WCtx) : State :=
  let o := c.off % 4096
  if o < 0x080 then instRingWrite i c s
  else if o = 0x084 then instCmdWrite s i c inp
  else if o = 0x08C ∨ o = 0x090 ∨ o = 0x094 then
    if (inst s i).st = .none then storeW s c else refuseW s .inst i 0x0C1B c
  else if o = 0x0A8 then resumeWrite s i c inp
  else if o = 0x0B0 then instCtrWrite s i c
  else if o = 0x408 then fqCfgWrite s c
  else if o = 0x420 then mgrDoorbellWrite s c
  else if o = 0x428 then mgrPublishWrite s c
  else if 0x800 ≤ o ∧ o < 0xC00 ∧ mgrState s = 1 then refuseW s .inst 0 0x0C23 c
  else storeW s c

end Sys2Proof.Machine
end

