-- ==== Sys2Proof/Machine/Lms.lean ====
section
/-! DEFINITION. Machine/Lms.lean: the Lomes ring: sides and their training, forming the ring, loss and wrap, reliable delivery, remote
access and bulk channels at their sending end (R404 to R431). -/
namespace Sys2Proof.Machine

/-! ### Sides (R404, R406, R415, R427) -/

/-- A register of the LMS page of side `x`. -/
def sideReg (x off : Nat) : Nat := reg .lms x off
/-- The side is enabled and powered, and the block is out of reset (R427). -/
def sideOn (s : State) (x : Nat) : Bool :=
  decide (x < 2) && decide (s.rst = .none) && domOn s (26 + x) && rbit s (sideReg x 0x044) 0
/-- Cycles of the silent timer: 790, counted from the TBCLK edge that follows what restarts it (R61, R415). -/
def silentCycles : Nat := 791
/-- Cycles of a heartbeat. -/
def heartbeatCycles : Nat := 100

/-- LMS_RING_STATUS.state: 0 ALONE, 1 FORMING, 2 UP, 3 WRAPPED, 4 ISOLATED (R404, R413, R429). -/
def ringState (s : State) : Nat :=
  if !sideUp s 0 ∧ !sideUp s 1 then 0
  else if s.isolated then 4
  else match s.topo with
    | none => 1
    | some t => if t.brk.isNone then 2 else 3
/-- topo_seq in force. -/
def topoSeq (s : State) : Nat := match s.topo with | some t => t.seq | none => 0
/-- A change of ring state or topo_seq sets bit 2 (R416, R429). -/
def ringNote (old s : State) : State :=
  if ringState old ≠ ringState s ∨ topoSeq old ≠ topoSeq s then irq s .lms 0 2 else s

/-- Node 0's discovery is due within `n` µs, or when one already due comes earlier, unless it has stopped originating (R413, R414). -/
def discoverIn (s : State) (n : Nat) : State :=
  if myNode s ≠ 0 ∨ rbit s (lms 0x080) 5 then s else tset s .discover (min (us n) ((tget s .discover).getD (us n)))
/-- A change of a side reported to node 0 (R408, R415): three frames; at node 0 itself the ring is rediscovered. -/
def linkEvent (s : State) (x : Nat) (up : Bool) : State :=
  if myNode s = 0 then discoverIn s 50
  else
    let p := leBytes 1 x ++ leBytes 1 (b2n up) ++ leBytes 1 ((side s x).neighbour.getD 0xFF) ++ [0]
    sendFrame (sendFrame (sendFrame s 0 0x05 p) 0 0x05 p) 0 0x05 p
/-- The side stops being UP (R410, R415, R427). -/
def sideLost (s : State) (x : Nat) (st : SideSt) : State :=
  let wasUp := sideUp s x
  let s := tstop (setSide s x { side s x with st := st, wrapped := true, lock := false }) (.silent x)
  if !wasUp then s
  else
    let s := rset (rcount s (sideReg x 0x040) 31 16 1) (sideReg x 0x050) (BitVec.ofNat 32 s.tbTime)
    linkEvent (irq s .lms x 1) x false
/-- A side is enabled: it trains and sends heartbeats (R406). -/
def sideTrains (s : State) (x : Nat) : State :=
  if !sideOn s x ∨ (side s x).st ≠ .down then s
  else tset (setSide s x { side s x with st := .training, lock := false }) (.heartbeat x) heartbeatCycles
/-- A side goes DOWN (R427). -/
def sideDown (s : State) (x : Nat) : State :=
  if (side s x).st = .down then s else tstop (sideLost s x .down) (.heartbeat x)

/-- HEARTBEAT_SEND (R406). -/
def execHeartbeatSend (x : Nat) (s : State) : Host.Outcome State Fault Refusal :=
  done (fire s (.heartbeat x) fun s =>
    let v := side s x
    tset (emit (setSide s x { v with beats := (v.beats + 1) % 256 }) (.heartbeat x (myNode s) s.incarnation v.beats))
      (.heartbeat x) heartbeatCycles)
/-- LINK_HELLO is sent to the neighbour on side `x` (R406). -/
def sendHello (s : State) (x : Nat) : State :=
  if s.tbLoss ∨ (side s x).st = .down then s
  else emit s (.lomes x { type := 0x01, dst := 0xFF, src := myNode s, srcInc := s.incarnation,
                          payload := leBytes 1 (myNode s) ++ leBytes 1 x ++ leBytes 4 s.part.cap })
/-- BLOCK_LOCK (R406). -/
def execBlockLock (x : Nat) (s : State) : Host.Outcome State Fault Refusal :=
  done (if !sideOn s x ∨ sideUp s x then s else sendHello (setSide s x { side s x with lock := true }) x)
/-- A heartbeat or the start of a frame restarts the silent timer of an UP side (R415). -/
def heard (s : State) (x : Nat) : State := if sideUp s x then tset s (.silent x) silentCycles else s
/-- HEARTBEAT (R415): an ordered set arrives on lane `x`. -/
def execHeartbeat (x : Nat) (s : State) : Host.Outcome State Fault Refusal := done (if sideOn s x then heard s x else s)
/-- SILENT_TIMEOUT (R415). -/
def execSilentTimeout (x : Nat) (s : State) : Host.Outcome State Fault Refusal :=
  done (ringNote s (fire s (.silent x) fun s => sideLost s x .silent))

/-! ### Reliable delivery at the sender (R411, R412) -/

/-- A bulk channel. -/
def bulk (s : State) (c : Nat) : Option Bulk := Tbl.get (fun _ => none) s.bulks c
/-- A bulk channel replaced. -/
def setBulk (s : State) (c : Nat) (b : Option Bulk) : State := { s with bulks := Tbl.set (fun _ => none) s.bulks c b }
/-- A bulk channel ends (R430); answers still owed to it find no transfer. -/
def bulkEnd (s : State) (c code : Nat) : State :=
  match bulk s c with
  | none => s
  | some b =>
    let p := peer s b.node
    let s := if b.kind = 1 then
        setPeer s b.node { p with queue := p.queue.filter fun f => !(f.type == 0x40 || f.type == 0x41) } else s
    let s := tstop (setBulk s c none) (.bulk c)
    let a := lms (0x0D4 + 32 * c)
    let s := { s with raReqs := s.raReqs.map fun r => if r.bulk.any (fun b => b.1 == c) then { r with bulk := some (c, 256) } else r }
    irq (rset s a (mk 1 1 1 ||| mk 15 8 b.gen ||| mk 31 16 code)) .lms 0 7
/-- The busy PUSH channel to a node. -/
def pushChannel (s : State) (n : Nat) : Option Nat :=
  (List.range 4).find? fun c => match bulk s c with | some b => decide (b.kind = 1) && decide (b.node = n) | none => false
/-- More of a channel's bytes have been moved (R424, R425). -/
def bulkMoved (s : State) (c n : Nat) : State :=
  match bulk s c with
  | none => s
  | some b =>
    let s := tset (rcount s (lms (0x0D8 + 32 * c)) 22 0 n) (.bulk c) (ms 1000)
    if rfld s (lms (0x0D8 + 32 * c)) 22 0 < b.len ∨ (b.kind = 1 ∧ b.finish) then s else bulkEnd s c 0

/-- A frame of this node has been acknowledged. -/
def frameAcked (s : State) (n : Nat) (f : Frame17) : State :=
  match f.type with
  | 0x50 => pairFrameDone s n f.payload 0
  | 0x40 => (match pushChannel s n with | some c => bulkMoved s c (f.payload.length - 4) | none => s)
  | _ => s
/-- Sequence number `a` comes before `b`. -/
def seqBefore (a b : Nat) : Bool := decide (0 < (b + 65536 - a) % 65536) && decide ((b + 65536 - a) % 65536 < 32768)
/-- The acknowledgement a frame of node `f.src` carries is taken (R411). -/
def ackIn (s : State) (f : Frame17) : State :=
  if !f.flags.testBit 1 ∨ f.dst ≠ myNode s then s else
  let n := f.src
  let p := peer s n
  let acked := (p.unacked.map (·.1)).filter fun u => seqBefore u.seq f.ack
  let s := setPeer s n { p with unacked := p.unacked.filter (fun u => !seqBefore u.1.seq f.ack),
                                replies := p.replies.filter fun r => !(acked.any fun u => u.seq == r.2) }
  let s := acked.foldl (fun s u => frameAcked (tstop s (.retx n u.seq)) n u) s
  pump s n 8

/-- A failed remote access (R418): recorded, and a read answers all-ones. -/
def raFail (s : State) (r : RaReq) (code : Nat) : State :=
  match r.bulk with
  | some (c, g) => if (bulk s c).any fun b => decide (b.gen = g) then bulkEnd s c code else s
  | none =>
    let s := irq (rset s (lms 0x08C) (mk 5 0 r.node ||| mk 7 6 r.window ||| mk 31 16 code)) .lms 0 8
    if r.write then s else emit s (.bus r.master r.off 0xFFFFFFFF)
/-- Every outstanding reliable frame to a node fails with a code, and its numbering restarts (R411, R412, R417). -/
def giveUp (s : State) (n code : Nat) : State :=
  let p := peer s n
  let lost := p.unacked.map (·.1) ++ p.queue
  let s := p.unacked.foldl (fun s u => tstop s (.retx n u.1.seq)) s
  let s := setPeer s n { p with unacked := [], queue := [], replies := [], txSeq := 0 }
  let ras := s.raReqs.filter fun r => decide (r.node = n)
  let s := ras.foldl (fun s r => raFail s r code) { s with raReqs := s.raReqs.filter fun r => !(r.node == n) }
  let s := (jobsWith s fun j => j.fwd == some n).foldl (fun s e =>
    finishLater (setJob s e.1 { e.2 with fwd := none }) e.1 { status := code }) s
  let s := (jobsWith s fun j => match j.sub with | .remote m _ _ _ => decide (m = n) | _ => false).foldl
    (fun s e => squash s e.1) s
  let s := (List.range 4).foldl (fun s c =>
    if (bulk s c).any fun b => decide (b.node = n) then bulkEnd s c code else s) s
  (lost.filter fun f => decide (f.type = 0x50)).foldl (fun s f => pairFrameDone s n f.payload code) s
/-- The code with which frames to a node that cannot be reached fail (R411, R414). -/
def lostCode (s : State) (n : Nat) : Nat := if s.dups.contains n then 0x1406 else 0x1402

/-- RETRANSMIT_TIMEOUT (R411): frame `seq` to node `n` has not been acknowledged. -/
def execRetransmitTimeout (n seq : Nat) (s : State) : Host.Outcome State Fault Refusal :=
  done (fire s (.retx n seq) fun s =>
    let p := peer s n
    match p.unacked.find? fun u => decide (u.1.seq = seq) with
    | none => s
    | some (f, k) =>
      if barred s n ∨ k ≥ rfld s (lms 0x084) 11 8 then giveUp s n (lostCode s n)
      else
        let f' := { f with ack := p.rxNext, dstInc := p.inc }
        let s := setPeer s n { p with unacked := p.unacked.map fun u => if u.1.seq = seq then (f', k + 1) else u }
        transmit (tset s (.retx n seq) (retxCycles s)) (routeSide s n) f')
/-- ACK_DELAY_EXPIRY (R411). -/
def execAckDelayExpiry (n : Nat) (s : State) : Host.Outcome State Fault Refusal :=
  done (fire s (.ackDelay n) fun s => sendFrame s n 0x06 [])
/-- A node's incarnation is learned (R412): a new one starts its numbering afresh at the receiver. -/
def learnInc (s : State) (n inc : Nat) : State :=
  let p := peer s n
  if p.inc = inc then s
  else if p.inc = 0 then setPeer s n { p with inc := inc }
  else setPeer s n { p with inc := inc, rxNext := 0, held := [], replies := [] }

/-! ### Forming the ring (R413, R414) -/

/-- A frame to every node (R409), from this one: out of both sides. -/
def broadcast (s : State) (type : Nat) (payload : Bytes) : State :=
  let f : Frame17 := { type := type, dst := 0xFF, src := myNode s, srcInc := s.incarnation, payload := payload }
  [0, 1].foldl (fun s x => if sideUp s x ∧ !s.tbLoss then emit s (.lomes x f) else s) s
/-- Entries of DISCOVER and TOPOLOGY. -/
def topoEntries (es : List (Nat × Nat)) : Bytes := es.flatMap fun e => leBytes 1 e.1 ++ leBytes 2 e.2
/-- Entries read back. -/
def readEntries (p : Bytes) (o n : Nat) : List (Nat × Nat) :=
  (List.range n).map fun k => (fieldLe p (o + 3 * k) 1, fieldLe p (o + 3 * k + 1) 2)
/-- The TOPOLOGY payload (R408). -/
def topoPayload (t : Topo) : Bytes :=
  leBytes 2 t.seq ++ leBytes 1 (if t.brk.isSome then 3 else 2) ++ leBytes 1 t.entries.length ++
  leBytes 1 (t.brk.getD 0xFF) ++ topoEntries t.entries
/-- A TOPOLOGY is accepted (R410, R411, R413): routing follows it, incarnations are learned, frames to nodes it omits fail, and with no
break the node unwraps. -/
def acceptTopo (s : State) (t : Topo) : State :=
  let old := s.topo
  let s := { s with topo := some t, isolated := false }
  let s := t.entries.foldl (fun s e => if e.1 = myNode s then s else learnInc s e.1 e.2) s
  let gone := (match old with | some o => o.entries.map (fun (e : Nat × Nat) => e.1) | none => List.range 64).filter fun n =>
    !reachable s n && !((peer s n).unacked.isEmpty && (peer s n).queue.isEmpty && !(s.raReqs.any fun r => r.node == n) &&
      !(s.jobs.any fun e => e.2.fwd == some n))
  let s := gone.foldl (fun s n => giveUp s n (lostCode s n)) s
  if t.brk.isSome then s
  else [0, 1].foldl (fun s x => if sideUp s x then setSide s x { side s x with wrapped := false } else s) s

/-- DISCOVER_ORIGINATE (R413): node 0 sends DISCOVER on each UP side. -/
def execDiscoverOriginate (s : State) : Host.Outcome State Fault Refusal :=
  done (fire s .discover fun s =>
    if myNode s ≠ 0 ∨ rbit s (lms 0x080) 5 then s else
    let sides := [0, 1].filter fun x => sideUp s x
    let p := leBytes 2 ((topoSeq s + 1) % 65536) ++ [1] ++ topoEntries [(0, s.incarnation)]
    sides.foldl (fun s x => emit s (.lomes x { type := 0x02, dst := 0, src := 0, srcInc := s.incarnation, payload := p }))
      { s with discOut := sides, disc := [] })

/-- Entries with the second of two equal node numbers dropped (R414). -/
def onceEach (es : List (Nat × Nat)) : List (Nat × Nat) :=
  es.foldl (fun a e => if a.any fun x => x.1 == e.1 then a else a ++ [e]) []
/-- The order that node 0 builds from its copies, going E from itself, and the break (R413 step 5); none while a copy is awaited. -/
def builtOrder (s : State) : Option (List (Nat × Nat) × Option Nat) :=
  let back (x : Nat) := s.disc.find? fun c => decide (c.2 = x)
  let turn (e : List (Nat × Nat)) := e.take 1 ++ (e.drop 1).reverse
  match s.discOut with
  | [x] => (s.disc.find? fun c => decide (c.2 = x)).map fun c =>
      if x = 1 then (c.1, some (c.1.length - 1)) else (turn c.1, some 0)
  | [_, _] =>
    (match back 0, back 1 with
     | some w, some e => some (e.1 ++ (w.1.drop 1).reverse, some (e.1.length - 1))
     | _, _ => none)
  | _ => none
/-- Node 0 broadcasts an order as a new TOPOLOGY and accepts it (R413 step 6, R414). -/
def newTopo (s : State) (order : List (Nat × Nat)) (brk : Option Nat) : State :=
  let es := onceEach order
  let dup := (order.map (·.1)).filter fun n => decide (2 ≤ ((order.map (·.1)).filter (· == n)).length)
  let s := { s with dups := dup.eraseDups, discOut := [], disc := [] }
  let s := if dup ≠ [] ∧ !rbit s (lms 0x080) 4 then irq s .lms 0 9 else s
  let s := rsetb s (lms 0x080) 4 (decide (dup ≠ []))
  let t : Topo := { seq := (topoSeq s + 1) % 65536, brk := brk, entries := es }
  let s := acceptTopo s t
  tset (broadcast s 0x03 (topoPayload t)) .topoRepeat (ms 10)
/-- A second head shows itself (R414). -/
def dupHead (s : State) : State :=
  let s := if rbit s (lms 0x080) 5 then s else irq s .lms 0 9
  tstop (tstop (rsetb s (lms 0x080) 5 true) .discover) .topoRepeat
/-- What a node other than 0 sees of the DISCOVER copies that pass it (R413, R414): of each copy the latest, by the side towards which
node 0 sent it out. -/
def noteCopy (s : State) (x : Nat) (turned : Bool) (es : List (Nat × Nat)) : State :=
  let k := if turned then 1 - x else x
  { s with disc := (es, k) :: s.disc.filter fun c => c.2 ≠ k }
/-- The node numbers that stand twice on the ring, by the copies this node saw and itself (R414). -/
def seenTwice (s : State) : List Nat :=
  let others := s.disc.flatMap fun c => (c.1.filter fun e => !(e == (myNode s, s.incarnation)) && e.1 != 0).map (·.1)
  let all := myNode s :: others
  (all.filter fun n => decide (2 ≤ (all.filter (· == n)).length)).eraseDups
/-- A DISCOVER arrives on lane `x` (R413 steps 4 and 5). -/
def discoverIn' (s : State) (x : Nat) (f : Frame17) : State :=
  let n := fieldLe f.payload 2 1
  let es := readEntries f.payload 3 n
  let turned := f.flags.testBit 2
  if myNode s = 0 then
    if f.src = 0 ∧ f.srcInc ≠ s.incarnation then dupHead s
    else if fieldLe f.payload 0 2 ≠ (topoSeq s + 1) % 65536 ∨ s.discOut = [] then s
    else if !turned then newTopo s (if x = 0 then es else es.take 1 ++ (es.drop 1).reverse) none
    else
      let s := { s with disc := s.disc ++ [(es, x)] }
      match builtOrder s with
      | some (o, b) => newTopo s o b
      | none => s
  else
    let s := noteCopy s x turned es
    let f := if turned then f else { f with payload := f.payload.take 2 ++ leBytes 1 (n + 1) ++ topoEntries (es ++ [(myNode s, s.incarnation)]) }
    let f := { f with hops := f.hops + 1 }
    if sideUp s (1 - x) then emit s (.lomes (1 - x) f)
    else if turned then s
    else emit s (.lomes x { f with flags := f.flags + 4 })
/-- A TOPOLOGY arrives (R413, R414); a repeat of the one in force restarts the wait for isolation. -/
def topologyIn (s : State) (f : Frame17) : State :=
  let p := f.payload
  if myNode s = 0 then (if f.src = 0 ∧ f.srcInc ≠ s.incarnation then dupHead s else s)
  else
    let seq := fieldLe p 0 2
    let t : Topo := { seq := seq, brk := if fieldLe p 4 1 = 0xFF then none else some (fieldLe p 4 1),
                      entries := readEntries p 5 (fieldLe p 3 1) }
    if s.topo.isNone ∨ topoSeq s < seq then tset (acceptTopo { s with dups := seenTwice s, disc := [] } t) .isolated (ms 30)
    else if topoSeq s = seq then tset { s with isolated := false } .isolated (ms 30)
    else s
/-- TOPOLOGY_REPEAT (R413). -/
def execTopologyRepeat (s : State) : Host.Outcome State Fault Refusal :=
  done (fire s .topoRepeat fun s =>
    match s.topo with
    | some t => tset (broadcast s 0x03 (topoPayload t)) .topoRepeat (ms 10)
    | none => s)
/-- ISOLATED_TIMEOUT (R413). -/
def execIsolatedTimeout (s : State) : Host.Outcome State Fault Refusal :=
  done (ringNote s (fire s .isolated fun s => { s with isolated := true }))
/-- A side becomes UP on its neighbour's LINK_HELLO (R406, R413, R415). -/
def helloIn (s : State) (x : Nat) (f : Frame17) : State :=
  let v := side s x
  let s := learnInc s f.src f.srcInc
  if v.st = .up then setSide s x { v with neighbour := some (fieldLe f.payload 0 1) }
  else
    let first := !sideUp s 0 && !sideUp s 1
    let s := setSide s x { v with st := .up, lock := true, neighbour := some (fieldLe f.payload 0 1) }
    let s := irq (tset (sendHello s x) (.silent x) silentCycles) .lms x 0
    if v.st = .silent then linkEvent s x true
    else if myNode s = 0 then (if first then discoverIn s 1000 else discoverIn s 50)
    else s

/-! ### STATUS and the node table (R426) -/

/-- LMS_NODEn_INFO. -/
def nodeInfo (n : Nat) : Nat := lms (0x200 + 4 * n)
/-- The STATUS payload (R408). -/
def statusPayload (s : State) : Bytes :=
  leBytes 1 (rfld s (romReg 0x048) 7 0) ++ leBytes 1 (lifeCycle s).1 ++
  leBytes 1 (b2n (pushOpen s) + 2 * b2n s.locked + 4 * b2n (paired s)) ++ leBytes 1 (s.part.cap % 256)
/-- A STATUS of node `n` at node 0. -/
def statusIn (s : State) (n : Nat) (p : Bytes) : State :=
  if myNode s ≠ 0 ∨ n > 63 then s else
  let joined := !rbit s (nodeInfo n) 8
  let fl := fieldLe p 2 1
  let w := mk 7 0 (fieldLe p 0 1) ||| mk 8 8 1 ||| mk 10 10 (fl % 2) ||| mk 11 11 (fl / 2 % 2) ||| mk 13 12 (fieldLe p 1 1) |||
    mk 14 14 (fl / 4 % 2) ||| mk 23 16 (fieldLe p 3 1)
  let s := tset (rset s (nodeInfo n) w) (.nodeAge n) (ms 5)
  if joined then irq s .lms 0 4 else s
/-- STATUS_SEND (R426); node 0 takes its own. -/
def execStatusSend (s : State) : Host.Outcome State Fault Refusal :=
  done (fire s .status fun s =>
    let s := tset s .status (ms 1)
    if myNode s = 0 then statusIn s 0 (statusPayload s) else sendFrame s 0 0x04 (statusPayload s))
/-- NODE_AGEING (R416, R426). -/
def execNodeAgeing (n : Nat) (s : State) : Host.Outcome State Fault Refusal :=
  done (fire s (.nodeAge n) fun s => irq (rsetb s (nodeInfo n) 8 false) .lms 0 3)

/-! ### Remote access and bulk channels at the sending node (R418, R424, R425, R430) -/

/-- REMOTE_APERTURE_ACCESS (R418): a word access at aperture offset `a`, already found to keep R14 and R73. -/
def apertureAccess (s : State) (acc : Acc) (write : Bool) (a : Nat) (data : Word) : State :=
  let w := a / 0x100000 % 4
  let sel := rget s (lms (0x0A0 + 4 * w))
  let n := fld sel 5 0
  let r : RaReq := { node := n, window := w, write := write, master := acc.master, off := 0xC00000 + a }
  let off := fld sel 11 8 * 0x100000 + a % 0x100000
  if !bit sel 7 then raFail s r 0x1403
  else if n = myNode s ∨ fld sel 11 8 ≥ 12 then raFail s r 0x1404
  else if s.dups.contains n then raFail s r 0x1406
  else
    let s := { s with raReqs := s.raReqs ++ [r] }
    if write then sendFrame s n 0x11 (leBytes 4 off ++ [1, 0, 0, 0] ++ leBytes 4 data.toNat)
    else sendFrame s n 0x10 (leBytes 4 off ++ [1])

/-- The fields of a bulk start are within their limits (R424, R429). -/
def bulkOk (s : State) (kind off len n : Nat) : Bool :=
  decide (myNode s = 0) && decide (n ≠ myNode s) && decide (4 ≤ len) && decide (len % 4 = 0) && decide (off % 4 = 0) &&
  (if kind = 1 then decide (off + len ≤ 4194304) else decide (kind = 2) && decide (len ≤ 65536))
/-- A write of LMS_BULKc_CTRL (R424, R430); `mem` is the host memory a PUSH reads, none where a read of it fails. -/
def bulkWrite (s : State) (ch : Nat) (c : WCtx) (mem : Option Bytes) : State :=
  let a := lms (0x0C0 + 32 * ch)
  let kind := fld c.data 1 0
  let n := fld c.data 13 8
  let off := rfld s (a + 8) 23 0
  let len := rfld s (a + 12) 22 0
  if (bulk s ch).isSome then busyW s c
  else if fld c.data 31 16 ≠ 0xA5C3 ∨ !bit c.data 14 ∨ !bulkOk s kind off len n then refuseW s .lms 0 0x1408 c
  else
    let g := (inst s 0).gen
    let b : Bulk := { kind := kind, node := n, finish := bit c.data 2, haddr := addr64 s a, off := off, len := len, gen := g }
    let s := rset (rset (setBulk s ch (some b)) (lms (0x0D4 + 32 * ch)) (mk 0 0 1 ||| mk 15 8 g)) (lms (0x0D8 + 32 * ch)) 0
    let s := tset { s with issued := (0, g, s.tbTime, 65536 + ch) :: s.issued } (.bulk ch) (ms 1000)
    if s.dups.contains n then bulkEnd s ch 0x1406
    else if kind = 2 then
      (List.range ((len + 255) / 256)).foldl (fun s k =>
        let words := min 64 ((len - 256 * k) / 4)
        sendFrame { s with raReqs := s.raReqs ++ [{ node := n, bulk := some (ch, g), words := words }] } n 0x10
          (leBytes 4 (off + 256 * k) ++ leBytes 1 words)) s
    else match mem with
      | none => bulkEnd s ch 0x0D04
      | some m =>
        let m := sliceZ m 0 len
        let s := (List.range ((len + 255) / 256)).foldl (fun s k =>
          sendFrame s n 0x40 (leBytes 4 (off + 256 * k) ++ (m.drop (256 * k)).take 256)) s
        if b.finish then sendFrame s n 0x41 (leBytes 4 (off + len) ++ leBytes 4 0xA5C30001) else s
/-- BULK_PROGRESS_TIMEOUT (R425). -/
def execBulkProgressTimeout (ch : Nat) (s : State) : Host.Outcome State Fault Refusal :=
  done (fire s (.bulk ch) fun s => bulkEnd s ch 0x140A)
/-- Every bulk channel ends at a reset (R425). -/
def bulksReset (s : State) : State := (List.range 4).foldl (fun s c => bulkEnd s c 0x1409) s

/-- Writes to the LMS page of side `x` (R428, R429); a length that neither kind of transfer allows is invalid (assumption log 96). -/
def lmsWrite (x : Nat) (mem : Option Bytes) (s : State) (c : WCtx) : State :=
  let o := c.off % 4096
  let bad := refuseW s .lms x 0x1408 c
  if o = 0x044 then
    let t := storeW s c
    ringNote s (if bit c.new 0 then sideTrains t x else sideDown t x)
  else if o = 0x084 then
    if fld c.new 7 0 < 5 ∨ fld c.new 11 8 = 0 then bad else storeW s c
  else if o = 0x09C then (if bit c.data 0 then { s with evq := s.evq.drop 1 } else s)
  else if 0x0C0 ≤ o ∧ o < 0x140 then
    match o % 32 with
    | 0x08 => if c.new.toNat % 4 ≠ 0 then bad else storeW s c
    | 0x0C => if c.new.toNat % 4 ≠ 0 ∨ c.new.toNat < 4 ∨ 4194304 < c.new.toNat then bad else storeW s c
    | 0x10 => bulkWrite s ((o - 0x0C0) / 32) c mem
    | _ => storeW s c
  else storeW s c

/-- What POR and DEVICE reset start (R392, R413, R426): a new incarnation, both sides, STATUS and the wait for a TOPOLOGY. -/
def lmsStart (s : State) : State :=
  let (b, s) := draw s 2
  let s := { s with incarnation := leNat b }
  let s := tset (sideTrains (sideTrains s 0) 1) .status (ms 1)
  if myNode s = 0 then s else tset s .isolated (ms 30)

end Sys2Proof.Machine
end

