-- ==== Sys2Proof/Machine/Pci.lean ====
section
/-! DEFINITION. Machine/Pci.lean: the PCIe endpoint (R355 to R364): the resets that arrive over it, SR-IOV, MSI-X tables, ATS and
error reports. -/
namespace Sys2Proof.Machine

/-- A register of the PCI page. -/
def pciReg (off : Nat) : Nat := reg .pci 0 off
/-- Configuration space, MSI-X tables and SR-IOV of every function at their reset values (R362). -/
def configReset (s : State) : State :=
  { s with pci := [], msix := [], vfEnable := false, numVfs := 0, ariCap := false }
/-- What every reset of the endpoint does elsewhere (R362, R378, R425): the push window is released, bulk channels end, and every
instance is removed. -/
def endpointReset (s : State) : State :=
  (List.range 65).foldl (fun s i => removeInst s i 0) (bulksReset (releasePush (configReset s)))
/-- The data link goes down (R364). -/
def linkLost (s : State) : State :=
  let s' := rsetf s (pciReg 0x040) 9 0 0
  if rbit s (pciReg 0x040) 8 then irq s' .pci 0 0 else s'
/-- A link down, as R362 describes it and as the switch-off of the domain acts (R477). -/
def linkDown (s : State) : State := endpointReset (linkLost s)

/-- PCIE_PERST (R362). -/
def execPciePerst (s : State) : Host.Outcome State Fault Refusal :=
  done (if !pciUp s then s else irq (rcount (endpointReset (linkLost s)) (pciReg 0x050) 7 0 1) .pci 0 1)
/-- PCIE_HOT_RESET (R362). -/
def execPcieHotReset (s : State) : Host.Outcome State Fault Refusal :=
  done (if !pciUp s then s else irq (rcount (endpointReset (linkLost s)) (pciReg 0x050) 15 8 1) .pci 0 1)
/-- PCIE_LINK_DOWN (R362). -/
def execPcieLinkDown (s : State) : Host.Outcome State Fault Refusal :=
  done (if !pciUp s ∨ !rbit s (pciReg 0x040) 8 then s else rcount (linkDown s) (pciReg 0x050) 15 8 1)
/-- PCIE_LINK_UP (R355, R364): the link at speed code `speed` on `lanes`.  While it is up already, it enters L1, which ASPM or
D3hot of the PF permits, leaves L1, or has retrained (assumption log 117). -/
def execPcieLinkUp (speed : Nat) (lanes : LinkLanes) (s : State) : Host.Outcome State Fault Refusal :=
  done (
    let link := pciReg 0x040
    let width := lanes.width
    if !pciUp s ∨ speed = 0 ∨ 4 < speed ∨ width = 0 ∨ 2 < width then s
    else if !rbit s link 8 then irq (rsetf s link 9 0 (speed + 16 * width + 256)) .pci 0 0
    else if lanes.l1 then (if 2 ≤ (pciFn s 0).aspm ∨ (pciFn s 0).d3 then rsetb s link 9 true else s)
    else if rbit s link 9 then rsetb s link 9 false
    else rcount (rsetf s link 9 0 (speed + 16 * width + 256)) link 31 16 1)
/-- PF_FLR (R362). -/
def execPfFlr (s : State) : Host.Outcome State Fault Refusal :=
  done (if !pciUp s then s else irq (rcount (endpointReset s) (pciReg 0x050) 23 16 1) .pci 0 2)
/-- Configuration space and MSI-X table of VF `i` at their reset values. -/
def vfConfigReset (s : State) (i : Nat) : State :=
  { setPciFn s i {} with msix := s.msix.clearRange (64 * i) (64 * i + 64) }
/-- VF_FLR (R362). -/
def execVfFlr (i : Nat) (s : State) : Host.Outcome State Fault Refusal :=
  done (
    if !pciUp s ∨ i = 0 ∨ i > vfCount s then s
    else irq (rcount (flrInst (vfConfigReset s i) i) (pciReg 0x050) 31 24 1) .pci 0 4)

/-- VF_ENABLE_WRITE (R358, R378): the SR-IOV capability written with VF Enable, NumVFs and ARI Capable Hierarchy. -/
def execVfEnableWrite (en : Bool) (num : Nat) (ari : Bool) (s : State) : Host.Outcome State Fault Refusal :=
  done (
    if !pciUp s ∨ s.part.vfs = 0 then s else
    let was := (s.vfEnable, s.numVfs)
    let n := min num s.part.vfs
    let s := if num > s.part.vfs then report s .pci 0 0x1101 0 3 else s
    let s := { s with vfEnable := en, numVfs := n, ariCap := ari }
    let s := if en ∧ n > 7 ∧ !ari then report s .pci 0 0x1102 0 3 else s
    let gone := (List.range 65).filter fun i => decide (vfCount s < i)
    let s := gone.foldl (fun s i => removeInst (vfConfigReset s i) i 0) s
    if was = (en, n) then s else irq s .pci 0 3)

/-- The vectors of function `fn` (R359). -/
def vectorCount (fn : Nat) : Nat := if fn = 0 then 64 else 4
/-- The master ID of function `fn` (R76). -/
def fnAcc (fn : Nat) : Acc := ⟨BitVec.ofNat 8 (0x10 + fn), false⟩
/-- Messages of function `fn` that are pending and no longer held back are sent (R359). -/
def sendPending (s : State) (fn : Nat) : State :=
  (List.range (vectorCount fn)).foldl (fun s v => if (msixEnt s fn v).pend then sendMsix s fn v else s) s
/-- The function is there. -/
def hasFn (s : State) (fn : Nat) : Bool := pciUp s && (decide (fn = 0) || decide (fn ≤ vfCount s))
/-- The fields of function `fn` as a write leaves them: BAR address bits within a BAR's size read 0 (R357, R358), and a VF has Bus Master,
MSI-X and ATS Enable and the Function Mask only, the rest being the PF's (R356, R360). -/
def fieldsTaken (fn : Nat) (f : PciFn) : PciFn :=
  let down (a size : Nat) : Nat := a / size * size
  if fn = 0 then
    { f with bar0 := down f.bar0 0x1000000, bar2 := down f.bar2 0x800000, bar4 := down f.bar4 0x2000,
             vfBar0 := down f.vfBar0 0x2000, vfBar2 := down f.vfBar2 0x1000 }
  else { bme := f.bme, msixEn := f.msixEn, fmask := f.fmask, ats := f.ats }
/-- CONFIG_WRITE (R355, R359, R360): function `fn` holds the fields as the write leaves them. -/
def execConfigWrite (fn : Nat) (f : PciFn) (s : State) : Host.Outcome State Fault Refusal :=
  done (
    if !hasFn s fn then s else
    let s := setPciFn s fn (fieldsTaken fn f)
    if fn = 0 then (List.range (vfCount s + 1)).foldl sendPending s else sendPending s fn)
/-- MSIX_TABLE_WRITE (R357, R359): entry `v` of function `fn`; beyond the function's entries the BAR is reserved. -/
def execMsixTableWrite (fn v addr data : Nat) (masked : Bool) (s : State) : Host.Outcome State Fault Refusal :=
  done (
    if !hasFn s fn then s else
    let s := wakeFor s 2
    if v ≥ vectorCount fn then busLog s (fnAcc fn) true 0 4 (BitVec.ofNat 32 data) .reserved
    else
    sendPending (setMsix s fn v { msixEnt s fn v with addr := addr, data := data, masked := masked }) fn)

/-- A page of the buffers of forwarded job `j` of instance `i` is translated to host addresses of the range. -/
def usesRange (s : State) (i : Nat) (j : Job) (addr len : Nat) : Bool :=
  let d := j.desc
  (pieces (dSrc d) (dSrcLen d) ++ pieces (dAux d) (dAuxLen d) ++ pieces (dDst d) (dDstLen d)).any fun p =>
    match ituHit s i p.1 with
    | some t =>
      let h := leafAddr t.entry t.big p.1
      decide (h < addr + len) && decide (addr < h + p.2)
    | none => false
/-- ATS_INVALIDATE (R360, R394): an invalidation of function `fn` for `len` bytes of host addresses from `addr`; every access made with
the translation has completed, and forwarded jobs that use it end. -/
def execAtsInvalidate (fn addr len : Nat) (ws : List Walk) (s : State) : Host.Outcome State Fault Refusal :=
  done (
    if !hasFn s fn ∨ !atsOn s fn ∨ !rbit s (reg .itu 0 0x040) 0 then s else
    ((jobsWith s fun j => decide (j.sub = .inst fn) && j.fwd.isSome && usesRange s fn j addr len).foldl
      (fun (p : State × List Walk) e =>
        match job? p.1 e.1 with
        | some j => (finish (setJob p.1 e.1 { j with fwd := none }) e.1 { status := 0x0D06 } (p.2.take 1), p.2.drop 1)
        | none => p) (s, ws)).1)

/-- An uncorrectable error is logged (R364). -/
def pciUncorrectable (s : State) : State := irq (rcount s (pciReg 0x054) 31 16 1) .pci 0 5
/-- PCIE_COMPLETION_TIMEOUT (R355, R361, R387): a data read of the instance job of `tag`, which holds a unit, has had no completion in
time. -/
def execPcieCompletionTimeout (tag : Nat) (ws : List Walk) (s : State) : Host.Outcome State Fault Refusal :=
  done (
    if !pciUp s then s else
    fire s (.pcieRead tag) fun s =>
      let s := pciUncorrectable s
      match job? s tag with
      | some j =>
        if (j.sub.inst?).isSome ∧ j.sub.cls = 1 ∧ j.st = .running ∧ j.unit.isSome ∧ j.done = none then
          finish s tag { status := 0x0D04 } ws
        else s
      | none => s)
/-- UNEXPECTED_COMPLETION (R361): discarded and logged under AER as an advisory non-fatal error, a correctable one (PRESUMED, assumption
log 117). -/
def execUnexpectedCompletion (s : State) : Host.Outcome State Fault Refusal :=
  done (if !pciUp s then s else rcount (pciUncorrectable s) (pciReg 0x054) 15 0 1)

/-- Writes to the PCI page (R364). -/
def pciWrite (s : State) (c : WCtx) : State :=
  if c.off % 4096 = 0x05C ∧ !c.locked ∧ (fld c.new 7 0 = 0 ∨ fld c.new 7 0 > 128) then refuseW s .pci 0 0x1104 c
  else storeW s c

end Sys2Proof.Machine
end

