-- ==== Sys2Proof/Machine/Pwr.lean ====
section
/-! DEFINITION. Machine/Pwr.lean: switched power domains and the Rest state (R476 to R489). -/
namespace Sys2Proof.Machine

/-- PWR_DOMAIN_EN after POR and DEVICE reset (R478): the present domains. -/
def domainsOf : Part → Word
  | .wdx6416 => 0x3FFFFFFF
  | .wdx6408 => 0x3FF300FF
  | .wdx6404 => 0x3FF1000F
/-- The domains that Rest switches off (R482). -/
def restDomains (s : State) : Word := domainsOf s.part &&& 0x007FFFFF
/-- Domain `b` is of class F or FR (R476). -/
def firmwareDomain (b : Nat) : Bool := decide (b < 20) || b ∈ [24, 25, 26, 27, 29]
/-- Every instance is NONE. -/
def noInstances (s : State) : Bool := s.insts.all fun e => decide (e.2.st = .none)
/-- A bulk channel is busy. -/
def bulkBusy (s : State) : Bool := s.bulks.any fun e => e.2.isSome
/-- Every present port is HELD. -/
def portsHeld (s : State) : Bool := (List.range s.part.ports).all fun n => decide ((port s n).st = .held)
/-- The switch-off of domain `b` is accepted (R476). -/
def mayOff (s : State) (b : Nat) : Bool :=
  if b < 16 then decide ((port s b).st = .held) && !cmdBusy s b
  else if b < 20 then
    (let f := s.part.framesPerBank
     s.frames.all fun e => decide (e.1 / f ≠ b - 16) || e.2.owner.isNone)
  else match b with
    | 24 => !(dillRuns s 0 || dillRuns s 1 || dillRuns s 2)
    | 25 => noInstances s && !bulkBusy s
    | 29 => portsHeld s && noInstances s
    | _ => true
/-- LMS page 0 back at its reset values (R70, assumption log 121): the event queue is empty, no TOPOLOGY is in force, the node table and the
bulk channels are empty; the incarnation is drawn at a reset only (R392). -/
def ringClear (s : State) : State :=
  let ages : List Timer := (List.range 64).map .nodeAge ++ (List.range 4).map .bulk ++ [.topoRepeat, .isolated]
  let s := { pageClear s .lms 0 with evq := [], topo := none, dups := [], isolated := false, discOut := [], disc := [], bulks := [],
                                     timers := s.timers.filter fun e => !ages.contains e.1 }
  if myNode s = 0 then s else tset s .isolated (ms 30)
/-- The registers of the pages a domain holds back at their reset values (R70). -/
def domainPages (s : State) (b : Nat) : State :=
  if b < 16 then portReset s b
  else if b < 20 then
    (let f := s.part.framesPerBank
     pageClear { s with frames := s.frames.clearRange ((b - 16) * f) ((b - 15) * f) } .vstBank (b - 16))
  else match b with
    | 25 => pageClear s .pci 0
    | 26 => ringClear s
    | 27 => pageClear s .lms 1
    | 29 => pageClear s .cst 0
    | _ => s
/-- What a switch-off does (R477); the domain goes off. -/
def domainOff (s : State) (b : Nat) : State :=
  let s := if b = 25 then linkDown s else if b = 26 then ringNote s (sideDown s 0) else if b = 27 then ringNote s (sideDown s 1) else s
  let s := if b = 24 then { s with dillMem := [] } else if b < 16 then stopAllPortTimers s b
    else if 16 ≤ b ∧ b < 20 then tstop s (.scrub (b - 16)) else s
  domsOff s (mk b b 1)
/-- What a switch-on does (R70, R477); the domain is on and good. -/
def domainOn (s : State) (b : Nat) : State :=
  let s := { domainPages s b with domOff := setFld s.domOff b b 0 }
  if b < 16 then portLeaveReset s b
  else if b < 20 then
    (if rbit s (reg .vst 0 0x040) 0 then tset s (.scrub (b - 16)) (us (max 1 (rfld s (reg .vst 0 0x040) 19 4))) else s)
  else match b with
    | 26 => ringNote s (sideTrains s 0)
    | 27 => ringNote s (sideTrains s 1)
    | 29 => startReconcile s
    | _ => s

/-- The switches of a write are handled in turn, up to the first that takes time (R477). -/
def switchNext (s : State) : List (Nat × Bool) → State
  | [] => { s with pwr := { s.pwr with sw := [] } }
  | (b, on) :: t =>
    if on then { s with pwr := { s.pwr with sw := (b, on) :: t } }
    else if mayOff s b then { domainOff s b with pwr := { s.pwr with sw := (b, on) :: t } }
    else switchNext (report s .pwr 0 0x0309 0x044 1) t
/-- A write of PWR_DOMAIN_EN (R477). -/
def domainWrite (s : State) (c : WCtx) : State :=
  if s.pwr.sw ≠ [] then busyW s c else
  let differ := (List.range 30).filter fun b => bit c.data b != (domOn s b && bit (domainsOf s.part) b)
  let bad := differ.filter fun b => !firmwareDomain b || !bit (domainsOf s.part) b
  let s := bad.foldl (fun s _ => report s .pwr 0 0x0308 0x044 1) s
  let fixed : Word := 0x10F00000
  let s := rset s (pwrReg 0x044) (((c.data &&& ~~~ fixed) ||| fixed) &&& domainsOf s.part)
  switchNext s ((differ.filter fun b => !bad.contains b).map fun b => (b, bit c.data b))
/-- DOMAIN_SWITCH_DONE (R477). -/
def execDomainSwitchDone (s : State) : Host.Outcome State Fault Refusal :=
  done (
    match s.pwr.sw with
    | [] => s
    | (b, on) :: t =>
      let s := switchNext (if on then domainOn s b else s) t
      if s.pwr.sw = [] then irq s .pwr 0 2 else s)

/-! ### Rest (R482 to R487) -/

/-- Remote items an instance has outstanding (R392, R395). -/
def remoteItems (s : State) (i : Nat) : Nat :=
  (s.jobs.filter fun (e : Nat × Job) => decide (e.2.sub = .inst i) && e.2.fwd.isSome).length +
    (if i = 0 then (s.bulks.filter fun (e : Nat × Option Bulk) => e.2.isSome).length else 0)
/-- The first check of R483 that fails. -/
def restBad (s : State) : Option Nat :=
  if !rbit s (reg .rom 0 0x054) 31 then some 0x0301
  else if pwrState s ≠ 0 then some 0x0306
  else if !portsHeld s then some 0x0302
  else if s.jobs ≠ [] ∨ bulkBusy s ∨ (List.range 65).any (fun i => decide (remoteItems s i ≠ 0)) then some 0x0303
  else if s.fus.isSome ∨ s.cstOps ≠ [] ∨ s.bf.isSome ∨ s.svc.session ∨ pushOpen s then some 0x0304
  else if (activeSources s).any (routedToCore s) ∨ rget s (reg .evh 0 0x048) ≠ 0 then some 0x0305
  else none
/-- A write of PWR_REST_CMD (R483, R484). -/
def restWrite (s : State) (c : WCtx) : State :=
  if fld c.data 31 16 ≠ 0xA5C3 then restCode s 0x0301 0x04C
  else if bit c.data 0 then
    (match restBad s with
     | some code => restCode s code 0x04C
     | none => setPwrState { s with pwr := { s.pwr with seen := activeSources s } } 1)
  else if bit c.data 1 ∧ pwrState s = 1 then rsetf (setPwrState s 0) (pwrReg 0x040) 10 8 7
  else s
/-- REST_CORES_HALTED (R484): Sage and every released Dill core wait for interrupts; a core held by the debug module never does. -/
def execRestCoresHalted (s : State) : Host.Outcome State Fault Refusal :=
  done (
    if pwrState s ≠ 1 ∨ bit s.halted 0 ∨ ((List.range 3).any fun q => dillRuns s q && bit s.halted (q + 1)) then s
    else setPwrState { s with pwr := { s.pwr with off := s.domOff } } 2)
/-- REST_ENTERED (R482, R484, R485). -/
def execRestEntered (s : State) : Host.Outcome State Fault Refusal :=
  done (
    if pwrState s ≠ 2 then s else
    let s := domsOff { s with pwr := { s.pwr with since := s.tbTime } } (restDomains s)
    let s := rcount (setPwrState s 3) (pwrReg 0x054) 15 0 1
    let t := (rget s (pwrReg 0x050)).toNat
    if t = 0 then s else tset s .wake (us t))
/-- WAKE_TIMER (R485). -/
def execWakeTimer (s : State) : Host.Outcome State Fault Refusal := done (fire s .wake fun s => wakeSource s 5)
/-- WAKE_COMPLETE (R486). -/
def execWakeComplete (s : State) : Host.Outcome State Fault Refusal := done (fire s .wakeDone wakeDone)
/-- Writes to the PWR page (R477, R483, R488). -/
def pwrWrite (s : State) (c : WCtx) : State :=
  match c.off % 4096 with
  | 0x044 => domainWrite s c
  | 0x04C => restWrite s c
  | _ => storeW s c

end Sys2Proof.Machine
end

