-- ==== Sys2Proof/Machine/Tb.lean ====
section
/-! DEFINITION. Machine/Tb.lean: the timebase page (R54 to R60). -/
namespace Sys2Proof.Machine

/-- A register of the timebase page. -/
def tbReg (off : Nat) : Nat := reg .tb 0 off
/-- Island `k` exists on the part and has replicas of kind `kind` (R58). -/
def islandOk (p : Part) (k kind : Nat) : Bool :=
  decide (k ≤ 64) && (decide (kind = 0) || (decide (kind = 1) && decide (k < 16)) ||
    (decide (kind = 2) && decide (32 ≤ k) && decide (k < 40)) || (decide (kind = 3) && decide (40 ≤ k) && decide (k < 44))) &&
  (if k < 16 then decide (k < p.ports)
   else if k < 32 then decide (k - 16 < p.ports)
   else if k < 40 then decide (k - 32 < p.lanes)
   else if k < 44 then decide (k - 40 < p.curves)
   else if k < 46 then decide (k - 44 < p.aes)
   else if 50 ≤ k ∧ k < 54 then decide (k - 50 < p.banks)
   else true)
/-- A write of TB_DLYMON_SEL (R59, R60): a changed selection is not what the result on show measured; a start
clears count and valid (assumption log 81). -/
def tbWrite (s : State) (c : WCtx) : State :=
  if c.off % 4096 ≠ 0x050 then storeW s c
  else if !bit c.data 31 then
    let s := storeW s c
    if c.new &&& 0x37F = c.old &&& 0x37F then s else rsetb s (tbReg 0x054) 30 false
  else if s.dly.isSome then busyW s c
  else
    let s := storeW s { c with new := c.new &&& 0x7FFFFFFF }
    let k := fld c.data 6 0
    let kind := fld c.data 9 8
    let off := match islandDomain k with | some b => !domOn s b | none => false
    tset (rset { s with dly := some ⟨k, kind, !islandOk s.part k kind || off || s.tbLoss⟩ } (tbReg 0x054) (mk 31 31 1)) .dlymon 1024
/-- DLYMON_DONE (R60): a completed measurement leaves its count, valid where the selection is still the one measured, and sets interrupt
bit 2; a spoiled one ends with count 0 and none (assumption log 81). -/
def execDlymonDone (s : State) : Host.Outcome State Fault Refusal :=
  done (fire s .dlymon fun s =>
    match s.dly with
    | none => s
    | some r =>
      let sel := rget s (tbReg 0x050)
      let chosen := decide (fld sel 6 0 = r.island ∧ fld sel 9 8 = r.kind)
      if r.spoiled then rset { s with dly := none } (tbReg 0x054) 0
      else
        rset (irq { s with dly := none, fresh := s.fresh + 1 } .tb 0 2) (tbReg 0x054)
          (mk 30 30 (b2n chosen) ||| (Config.dlymonCount s.fresh).setWidth 32))

/-- TIMEBASE_LOSS (R54, R55, R60); during a loss the command says whether the multiplier's lock is still lost.  For the timebase-loss
source R56 stands in place of the class window (R328): TIMEBASE_LOSS_PERSISTS meets its condition. -/
def execTimebaseLoss (lockLost : Bool) (s : State) : Host.Outcome State Fault Refusal :=
  done (
    if s.rst = .por then s
    else if s.tbLoss then { s with tbLocked := !lockLost }
    else
      let s := rcount (rset s (tbReg 0x04C) (BitVec.ofNat 32 s.tbTime)) (tbReg 0x040) 31 16 1
      let s := irq { s with tbLoss := true, tbLocked := !lockLost, dly := s.dly.map fun r => { r with spoiled := true } } .tb 0 0
      if paired s then endClaim s 3 else s)

end Sys2Proof.Machine
end

