-- ==== Sys2Proof/Machine/Reset.lean ====
section
/-! DEFINITION. Machine/Reset.lean: POR, DEVICE, CONTROL and PORT n reset (R251 to R254, R40, R67, R228, R376, R393, R427, R457), each
run to the end of its hardware phase by the command that triggers it.  While that phase lasts (State.hw) the pages it covers do not
answer, the cores are halted and further triggers are absorbed (assumption log 57). -/
namespace Sys2Proof.Machine

/-- The timers of which `f` says so are stopped. -/
def stopTimers (s : State) (f : Timer → Bool) : State := { s with timers := s.timers.filter fun e => !f e.1 }

/-! ### The hardware phase from step 5 (R253) -/

/-- GOLDEN_N as sampled at step 8: 1 while golden_ignore is in force (R271, R274, R307). -/
def goldenN (s : State) (pins : Word) : Bool := bit pins 3 || (overrideOk s && bit (shadow s 194) 5)
/-- The straps sampled at step 6, overrides applied (R271, R274, R307). -/
def sampleStraps (s : State) (pins : Word) : State :=
  let pick (en hi lo phi plo : Nat) : Nat := (override s en hi lo).getD (fld pins phi plo)
  let side := pick 2 4 3 2 1
  let side := if side = 3 ∨ !s.part.hasPair then 0 else side
  let anyOn := overrideOk s && [0, 2, 5, 6, 13].any fun b => bit (shadow s 194) b
  rset s (romReg 0x050) (mk 0 0 (pick 0 1 1 0 0) ||| mk 2 1 side ||| mk 3 3 (b2n (goldenN s pins)) |||
    mk 9 4 (pick 6 12 7 9 4) ||| mk 12 10 (pick 13 16 14 12 10) ||| mk 13 13 (b2n anyOn))
/-- Steps 5 to 8 of R253: fuse sense, straps at POR and DEVICE, the fixed key ladder, Sage released at the ROM entry point. -/
def hardwarePhase (s : State) (por control : Bool) (pins : Word) : State :=
  let s := temSense (fuseSense s) por
  let s := if control then rsetb s (romReg 0x050) 3 (goldenN s pins) else sampleStraps s pins
  let s := if control then s else (let (n, s) := draw s 32; rsetBytes s (romReg 0x080) 8 n)
  let s := runLadder s (rootSecret s)
  let (k, s) := draw s 64
  bwdReset { s with sage := .rom control, ctxKey := k }

/-! ### CONTROL reset -/

/-- The pages CONTROL covers, with their copies (R67). -/
def controlPages (p : Part) : List (PageKind × Nat) :=
  ([.rom, .evh, .bwd, .twd, .fus, .cst, .kv, .kvSlot, .cje, .itu, .pci, .i3c, .svc].map fun k => (k, 0)) ++
  (List.range 3).map (fun i => (PageKind.evhRoute, i)) ++ (List.range p.curves).map (fun i => (PageKind.curve, i)) ++
  (List.range p.aes).map (fun i => (PageKind.aes, i)) ++
  (List.range (p.vfs + 1)).flatMap fun i => [(PageKind.inst, i), (PageKind.doorbell, i)]
/-- The retained registers (R254, R345, R353, R365, R370, R214, R376) with the bits of each that are kept. -/
def controlKept : List (Nat × Word) :=
  [(romReg 0x040, 0x00FFFF0F), (romReg 0x050, 0xFFFFFFFF), (romReg 0x060, 0xFFFFFFFF), (romReg 0x064, 0xFFFFFFFF)] ++
  (List.range 8).map (fun w => (romReg (0x080 + 4 * w), 0xFFFFFFFF)) ++
  (List.range 128).map (fun w => (romReg (0x400 + 4 * w), 0xFFFFFFFF)) ++
  [(bwdReg 0x054, 0xFFFFFFFF), (twdReg 0x068, 0xFFFFFFFF), (svcReg 0x048, 0xFFFFFFFF), (i3cReg 0x044, 0x07FFFEFF),
   (reg .cje 0 0x050, 0x000000FF), (reg .cje 0 0x054, 0x000000FF), (pciReg 0x040, 0x000003FF)]
/-- The pages that CONTROL covers, at their reset values but for what is retained. -/
def clearControlPages (s : State) : State :=
  let kept := controlKept.map fun e => (e.1, rget s e.1 &&& e.2, e.2)
  let s := (controlPages s.part).foldl (fun s p => pageClear s p.1 p.2) s
  kept.foldl (fun s e => rset s e.1 ((rget s e.1 &&& ~~~ e.2.2) ||| e.2.1)) s
/-- What runs only while a block that CONTROL covers does. -/
def endsWithControl : Timer → Bool
  | .svcBaud => true
  | .svcRevert => true
  | .svcSession => true
  | .i3cTx => true
  | .wake => true
  | .wakeDone => true
  | .bwdHalf => true
  | .bwd => true
  | .twd => true
  | .twdGrace => true
  | .bfPoll => true
  | .bfMax => true
  | .job _ => true
  | .pcieRead _ => true
  | .selfTest _ => true
  | .remJob _ => true
  | .drain _ => true
  | .genDelay _ => true
  | .resend _ => true
  | _ => false
/-- A job at a CONTROL reset: squashed, its unit at rest by the end of step 3; the home node of a remote one is told (R40, R210, R253,
R423). -/
def controlSquash (s : State) (e : Nat × Job) : State :=
  let s := match e.2.sub with
    | .remote node tag _ gen => sendFrame s node 0x35 (leBytes 2 tag ++ leBytes 1 gen ++ [0] ++ leBytes 2 0x0C0D)
    | _ => s
  freeTag (squash s e.1) e.1
/-- Every instance NONE, its generation incremented (R392, R393). -/
def instancesGone (s : State) : State :=
  (List.range (s.part.vfs + 1)).foldl (fun s i => setInst s i { gen := ((inst s i).gen + 1) % 256 }) s
/-- CONTROL reset with a cause; absorbed while a higher reset is in progress, and counted where it is absorbed by a CONTROL reset
(R252). -/
def controlReset (s : State) (cause : Nat) (inp : RstIn) : State :=
  if s.rst ≠ .none ∨ higherPhase s then s
  else if s.hw.isSome then rcount s (romReg 0x040) 15 8 1
  else
  let s := rsetf (rcount s (romReg 0x040) 15 8 1) (romReg 0x040) 3 0 cause
  let s := if pwrState s < 2 then setPwrState s 0 else backToRun s
  let s := { instancesGone s with instRst := [] }
  let s := s.jobs.foldl controlSquash s
  let s := dropPrgs { s with prgWait := [], itu := [], wrr := [], phases := [], fqPhase := true, aesBytes := [] } fun _ => true
  let s := bulksReset (cstFinish (fusAbandon s inp.pulseR inp.pulseS) CstReq.keptByControl)
  let s := zeroiseSlots s true
  let s := stopTimers s endsWithControl
  let s := { s with fwRec := none, bf := none, svc := {}, i3c := {}, pushLen := 0, bootLock := false, halted := 0, twdHeld := none, twdLate := [],
                    twdNew := 0, vecs := [], ringed := [], coreLines := [] }
  let s := rsetf (clearControlPages s) (reg .atu 0 0x040) 3 0 0
  let t := hardwarePhase s false true inp.straps
  { t with hw := some (.control, phaseCycles), lifeNew := s.lifeNew || decide (lifeCycle t ≠ lifeCycle s) }

/-! ### POR and DEVICE reset -/

/-- What POR and DEVICE reset leave (R40, R67, R254): all but the fuse array, the counters and their copies, the backup domain, the
TAP, time, the timebase page and what the model records.  A counter store that was off comes on and reconciles (R321, R478). -/
def afterDevice (s : State) (phase : RstPhase) : State :=
  let old := s
  {
    pending := old.pending, fresh := old.fresh, out := old.out, part := old.part, rst := phase,
    timers := old.timers.filter (fun e => e.1 == .dlymon || e.1 == .tokenReset),
    regs := old.regs.filter (fun e => decide (e.1 / 4096 = 2)),
    tbTime := old.tbTime, tbLoss := old.tbLoss, tbLocked := old.tbLocked, xinCmos := old.xinCmos, dly := old.dly,
    ctr := old.ctr, torn := old.torn, ctrFailed := old.ctrFailed, reconciling := old.reconciling || !domOn old 29,
    fuseR := old.fuseR, fuseS := old.fuseS, fuseU := old.fuseU, fuseSh := old.fuseSh,
    tem := { canary := old.tem.canary, ack := old.tem.ack, latch := old.tem.latch, info := old.tem.info, observe := old.tem.observe },
    locked := old.locked, tapIr := old.tapIr, boundary := old.boundary, tamperDue := old.tamperDue,
    pwr := { porInfo := old.pwr.porInfo } }
/-- A DEVICE reset begins with a cause (R253 steps 1 to 4). -/
def deviceBegins (s : State) (cause : Nat) (inp : RstIn) : State :=
  let s := cstFinish (fusAbandon s inp.pulseR inp.pulseS) fun _ => false
  let window := s.tem.window
  let s := afterDevice s .device
  let s := if window then freshCanary s else s
  rset s (romReg 0x040) (mk 3 0 cause)
/-- The hardware phase of POR and DEVICE ends (R253 steps 5 to 8): ports pulse their flash resets, and the ring, the pairing unit and
the scrubbers start. -/
def deviceEnds (s : State) (por : Bool) (pins : Word) : State :=
  let s := { s with rst := .none }
  let s := if s.part = .wdx6416 then s else rset s (pwrReg 0x044) (domainsOf s.part)
  let s := (List.range s.part.ports).foldl (fun s n => portLeaveReset (protoReset s n) n) s
  let s := hardwarePhase s por false pins
  let s := pairStart (lmsStart s)
  let s := if !rbit s (reg .vst 0 0x040) 0 then s
    else (List.range s.part.banks).foldl (fun s k => tset s (.scrub k) (us (max 1 (rfld s (reg .vst 0 0x040) 19 4)))) s
  { s with hw := some (if por then .por else .device, phaseCycles) }
/-- A DEVICE reset that software or the ROM triggers; absorbed while POR or DEVICE is in progress (R252). -/
def deviceReset (s : State) (cause : Nat) (inp : RstIn) : State :=
  if s.rst ≠ .none ∨ higherPhase s then s else deviceEnds (deviceBegins s cause inp) false inp.straps

/-- SUPPLY_FALL (R475): POR begins; the backup domain records the rail. -/
def execSupplyFall (rail tear : Nat) (r t : Word) (s : State) : Host.Outcome State Fault Refusal :=
  done (
    if s.rst = .por ∨ rail > 8 then s else
    let s := fusAbandon (cstCut s tear) r t
    let s := afterDevice s .por
    { s with timers := [], regs := [], tbTime := 0, tbLoss := false, tbLocked := true, dly := none, tapIr := 0x02, boundary := [],
             tamperDue := 0, pwr := { porInfo := mk rail rail 1 } })
/-- POR_END (R51, R253, R333): `backup` is what the backup domain is found to hold where it has not been kept. -/
def execPorEnd (xinCmos : Bool) (straps : Word) (backup : Option (Bytes × Word × Bool × Word)) (s : State) :
    Host.Outcome State Fault Refusal :=
  done (
    if s.rst ≠ .por then s else
    let s := match backup with
      | none => s
      | some (canary, ack, latch, info) =>
        { s with tem := { s.tem with canary := canary, ack := ack, latch := latch, info := info }, pwr := {} }
    let s := rset { s with xinCmos := xinCmos } (romReg 0x040) (mk 3 0 1)
    deviceEnds (startReconcile s) true straps)
/-- Steps 3 and 4 of R253 undone: jobs, the units' state and the key slots as they were. -/
def withUnits (old s : State) : State :=
  { s with jobs := old.jobs, jobOrd := old.jobOrd, phases := old.phases, ctxKey := old.ctxKey, wrr := old.wrr, insts := old.insts,
           itu := old.itu, prgs := old.prgs, prgStale := old.prgStale, prgWait := old.prgWait, fqPhase := old.fqPhase,
           aesBytes := old.aesBytes, kslots := old.kslots, ladder := old.ladder, scrubDirty := old.scrubDirty }
/-- DEV_RST_N_ASSERT (R251, R253 steps 1 and 2): absorbed while POR or DEVICE is in progress. -/
def execDevRstNAssert (inp : RstIn) (s : State) : Host.Outcome State Fault Refusal :=
  done (if s.rst ≠ .none ∨ higherPhase s then s else withUnits s (deviceBegins s 2 inp))
/-- DEV_RST_N_RELEASE (R253 from step 3). -/
def execDevRstNRelease (inp : RstIn) (s : State) : Host.Outcome State Fault Refusal :=
  done (
    if s.rst ≠ .device then s
    else deviceEnds (rset (afterDevice s .device) (romReg 0x040) (rget s (romReg 0x040))) false inp.straps)

/-! ### PORT n reset and BOOT_RST_REQ (R274) -/

/-- PORT n reset (R253, R40); a parked port is unaffected (R487). -/
def portReset' (s : State) (n : Nat) : State :=
  let s := rsetf s (romReg 0x040) 3 0 12
  if domOn s n then portLeaveReset (portReset s n) n else s
/-- A write of BOOT_RST_REQ (R274). -/
def rstReqWrite (s : State) (c : WCtx) (inp : RstIn) : State :=
  if fld c.data 31 16 ≠ 0xA5C3 then bootErr s 0x0101 0x044
  else match fld c.data 3 0 with
    | 1 => deviceReset s 3 inp
    | 2 => controlReset s 5 inp
    | 3 => if fld c.data 11 8 < s.part.ports then portReset' s (fld c.data 11 8) else bootErr s 0x0101 0x044
    | _ => bootErr s 0x0101 0x044
/-- A write of BOOT_LC_CMD (R262). -/
def lcCmdWrite (s : State) (c : WCtx) (inp : RstIn) : State :=
  if fld c.data 31 16 ≠ 0xA5C3 then bootErr s 0x0101 0x05C
  else if !bit c.data 0 then s
  else controlReset (rsetb s (romReg 0x060) 16 true) 10 inp

/-! ### The other triggers of CONTROL (R251) -/

/-- LOCKSTEP_MISMATCH. -/
def execLockstepMismatch (inp : RstIn) (s : State) : Host.Outcome State Fault Refusal := done (controlReset s 8 inp)
/-- DEBUG_MODULE_RESET (R268): honoured while Sage debug is open. -/
def execDebugModuleReset (inp : RstIn) (s : State) : Host.Outcome State Fault Refusal :=
  done (if debugOpen s 1 then controlReset s 9 inp else s)
/-- ROM_FETCH_VIOLATION (R257): before BOOT_DBG_LOCK has been written. -/
def execRomFetchViolation (inp : RstIn) (s : State) : Host.Outcome State Fault Refusal :=
  done (if handover s ∨ s.sage = .stop then s else controlReset s 13 inp)
/-- BWD_BITE (R342, R345).  While the push window waits the ROM kicks in time (R295, R343). -/
def execBwdBite (inp : RstIn) (s : State) : Host.Outcome State Fault Refusal :=
  done (fire s .bwd fun s =>
    if (match s.sage with | .window _ => true | _ => false) then romKick s else
    let s := rset s (bwdReg 0x054) (mk 7 0 (bwdState s) ||| mk 15 8 (rfld s (romReg 0x048) 7 0) ||| mk 31 31 1)
    controlReset (rcount s (romReg 0x040) 23 16 1) 6 inp)
/-- TWD_BITE (R350). -/
def execTwdBite (inp : RstIn) (s : State) : Host.Outcome State Fault Refusal :=
  done (fire s .twdGrace fun s => controlReset (rset s (twdReg 0x068) (rget s (twdReg 0x05C))) 7 inp)
/-- TOKEN_RESET (R266); what its 1-bit register shifts out the spec does not say: a free value (assumption log 112). -/
def execTokenReset (inp : RstIn) (s : State) : Host.Outcome State Fault Refusal :=
  tapCmd s fun s =>
    let b := Config.freeByte s.fresh
    let s := emit { tapScan s 0x0B with fresh := s.fresh + 1 } (.tapBit (b.getLsbD 0))
    if tokenResetOk s then controlReset (tset s .tokenReset 100000000) 11 inp else s

end Sys2Proof.Machine
end

