-- ==== Sys2Proof/Machine/Rom.lean ====
section
/-! DEFINITION. Machine/Rom.lean: the ROM flow of a start (R255 to R263, R267, R268, R279 to R299, R315, R336, R338), in one command up to
HANDOVER, to a stop, to the reset that follows a life-cycle change, or to the push window. -/
namespace Sys2Proof.Machine

/-- BOOT_ROM_STATUS.step shows a step; a step boundary kicks the boot watchdog (R255, R343). -/
def romStep (s : State) (code : Nat) : State := romKick (rsetf s (romReg 0x048) 7 0 code)
/-- A boot flash command of the ROM, driven. -/
def bfOut (s : State) (op addr len : Nat) (data : Bytes) : State := emit s (.bootFlash op addr len data)

/-! ### Step 8 and STOP (R256, R264, R268) -/

/-- What step 8 writes to BOOT_DBG_LOCK. -/
def debugValue (s : State) : Word :=
  match (lifeCycle s).1 with
  | 0 => 0xF
  | 3 => 0xF
  | _ => if rbit s tokenStatus 17 then mk 3 0 (rfld s tokenStatus 21 18) else 0
/-- BOOT_DBG_LOCK written once (R268). -/
def writeDbgLock (s : State) (v : Word) : State :=
  let s := rset s (romReg 0x054) (v ||| mk 31 31 1)
  { s with rwoUsed := Tbl.set (fun _ => false) s.rwoUsed (romReg 0x054) true }
/-- STOP (R256); a code of the BOOT block is reported on its page too (R275). -/
def romStop (s : State) (code : Nat) : State :=
  let s := rsetf (writeDbgLock s (debugValue s)) (romReg 0x048) 31 16 code
  let s := if code / 256 = 1 then report s .rom 0 code 0 0 else s
  { rsetf s (romReg 0x048) 7 0 0xCC with sage := .stop }

/-! ### Step 1 (R214) -/

/-- The CJE_KAT_PASS bits a start tests: the hash lanes keep their results through CONTROL. -/
def katTested (p : Part) (control : Bool) : List Nat :=
  (if control then [] else List.range p.lanes) ++ (List.range p.curves).map (8 + ·) ++ (List.range p.aes).map (12 + ·) ++
  [14, 15, 16]
/-- The self-tests; the code of a stop, if any. -/
def romSelfTest (s : State) (control : Bool) (kat : Word) : State × Option Nat :=
  let s := (katTested s.part control).foldl (fun s b => setKat s b (!bit kat b)) s
  let some? (lo n : Nat) : Bool := (List.range n).any fun u => katPass s (lo + u)
  if !some? 0 s.part.lanes ∨ !some? 8 s.part.curves then (s, some 0x0120)
  else if !katPass s 15 ∨ !katPass s 16 then (s, some 0x0121)
  else (s, none)

/-! ### Step 2 (R221, R222) -/

/-- Pulses on bits of a word, verified at STRICT (R310): the state, the pulses applied, and whether every bit has passed. -/
def romPulses (s : State) (env : RomEnv) (w : Nat) (bits : Word) : State × Nat × Bool :=
  match env.fuseFails.find? fun (e : Nat × Word × Word) => decide (e.1 = w) with
  | some (_, r, t) => (pulsed s w bits (r ||| t) t t, 5, false)
  | none => (pulsed s w bits bits bits bits,
      min 5 (max 1 (((env.pulses.find? fun (e : Nat × Nat) => decide (e.1 = w)).map (·.2)).getD 1)), true)
/-- A PROGRAM or REPAIR that the ROM issues (R309, R310, R313, R316): refused outside the programming conditions; its result is shown
and its end raised as every command's.  Once one has failed in a list of them, nothing further is programmed. -/
def romProgram (env : RomEnv) (a : State × Bool) (w : Nat) (bits : Word) : State × Bool :=
  if !a.2 then a
  else if !fuseConditions a.1 then (fusEnd a.1 0x080A 0 w, false)
  else
    let (s, k, ok) := romPulses a.1 env w bits
    (fusEnd s (if ok then 0 else 0x0804) k w, ok)
/-- The steps of the ROM's ROOT_GEN (R312): the state, and the code it ends with. -/
def romSteps (env : RomEnv) : List FusStep → State → State × Nat
  | [], s => (s, 0)
  | st :: rest, s =>
    match resolveStep s st with
    | .error code => (s, code)
    | .ok (w, bits, _) =>
      match romPulses s env w bits with
      | (s, _, true) => romSteps env rest s
      | (s, _, false) => (s, 0x0804)
/-- ROOT_GEN as the ROM issues it, one command (R221, R312, R313): whether it has ended well. -/
def romRootGen (s : State) (env : RomEnv) : State × Bool :=
  if !fuseConditions s then (fusEnd s 0x080A 0 0, false)
  else
    let (rs, s) := draw s 64
    let (s, code) := romSteps env (rootGenSteps rs) s
    (fusEnd s code 1 192, decide (code = 0))
/-- The ROOTED marker is set, and the key ladder runs with the state that now is in force. -/
def nowLadder (s : State) : State := let s := nowRooted s; runLadder s (rootSecret s)
/-- Step 2: the code of a stop, if any.  A start in DECOMMISSIONED renews the backup domain (R335). -/
def romRoot (s : State) (env : RomEnv) : State × Option Nat :=
  if (lifeCycle s).1 = 0 then
    if (List.range 128).all fun i => decide (fuseRead s i = 0) then
      (let (s, ok) := romRootGen s env
       if ok then (nowLadder s, none) else (s, some 0x0A0C))
    else if rootOk s then
      (let (s, ok) := romProgram env (s, true) 192 0xFF
       if ok then (nowLadder s, none) else (s, some 0x0A0C))
    else (s, some 0x0A0C)
  else if bankLocked s 0 ∧ bankLocked s 1 then
    (if bankBroken s 0 ∨ bankBroken s 1 then (s, some 0x0A0C)
     else (if (lifeCycle s).1 = 3 then freshBackup s else s, none))
  else (s, some (if marker (shadow s 192) 7 0 then 0x0122 else 0x0A0C))

/-! ### Step 3 (R259 to R263, R267, R315, R336) -/

/-- Torn markers completed, marginal words of banks 0 to 7 repaired, and the thermometer filled. -/
def romRepairs (s : State) (env : RomEnv) : State :=
  let (life, ep) := tornBits (shadow s 192) (shadow s 193)
  let one (s : State) (w : Nat) (bits : Word) : State := if bits = 0 then s else (romProgram env (s, true) w bits).1
  let s' := one (one s 192 life) 193 ep
  let s' := if life = 0 ∧ ep = 0 then s' else rsetb s' (romReg 0x04C) 12 true
  let s' := (List.range 16).foldl (fun s i => one s (208 + i) (thermFill s i &&& ~~~ fuseRead s (208 + i))) s'
  (List.range 512).foldl (fun s w => one s w (if fuseWeak s w then fuseRead s w else 0)) s'

/-- The transition field is permitted from the current state with its target epoch (R260, R261). -/
def transitionOk (lc ep t target : Nat) : Bool :=
  (decide (t = 1) && decide (lc = 1) && decide (target = 0)) || (decide (t = 2) && decide (lc = 2) && decide (target = ep + 1)) ||
  (decide (t = 3) && decide (lc = 2) && decide (target = 0)) || (decide (t = 4) && decide (lc = 1) && decide (target = 0))
/-- The fields of R261 that must be fixed or zero. -/
def requestFormOk (r : Bytes) : Bool :=
  let t := fieldLe r 6 1
  decide (r.take 4 = ascii "WLCR") && decide (fieldLe r 4 2 = 1) &&
  (decide (t ≠ 3) && decide (t ≠ 4) || allZero (sliceZ r 0x48 96)) && (decide (t ≠ 1) || allZero (sliceZ r 0xA8 96))
/-- The owner-digest words of the epoch a request leads to, with what it would program. -/
def digestWords (s : State) (r : Bytes) : List (Nat × Word) :=
  let t := fieldLe r 6 1
  let e := if t = 2 then (lifeCycle s).2 + 1 else 0
  if t = 1 ∨ t = 2 then (List.range 16).map fun i => (256 + 16 * e + i, wordAtLe (sha512 (sliceZ r 0x48 32)) i) else []
/-- The first check of R262 that a request fails. -/
def requestBad (s : State) (nonce r : Bytes) : Option Nat :=
  let t := fieldLe r 6 1
  let (lc, ep) := lifeCycle s
  let auth := sliceZ r 0xA8 32
  if s.locked then some 0x011F
  else if !requestFormOk r then some 0x0110
  else if sliceZ r 0x08 32 ≠ devidPub s then some 0x0111
  else if sliceZ r 0x28 32 ≠ nonce then some 0x0112
  else if !transitionOk lc ep t (fieldLe r 7 1) then some 0x0113
  else if t = 2 ∧ ep = 15 then some 0x0114
  else if (t = 1 ∨ t = 2) ∧ !ed25519Verify (sliceZ r 0x48 32) (ascii "WDX-LCR-POSS-V01" ++ r.take 0x68) (sliceZ r 0x68 64) then
    some 0x0115
  else if ((t = 2 ∨ t = 3) ∧ sha512 auth ≠ ownerDigest s ep) ∨ (t = 4 ∧ auth ≠ Config.idsitiaTokenKey) then some 0x0116
  else if t ≠ 1 ∧ !ed25519Verify auth (ascii "WDX-LCR-AUTH-V01" ++ r.take 0xC8) (sliceZ r 0xC8 64) then some 0x0117
  else if (digestWords s r).any fun w => decide (fuseRead s w.1 &&& ~~~ w.2 ≠ 0) then some 0x0118
  else none
/-- The marker word and bits of a request (R260). -/
def requestMarker (s : State) (t : Nat) : Nat × Word :=
  match t with
  | 1 => (192, maskOf 15 8)
  | 2 => (193, maskOf (2 * (lifeCycle s).2 + 1) (2 * (lifeCycle s).2))
  | _ => (192, maskOf 23 16)
/-- A pending request is evaluated (R262): the state after it, and whether its transition has taken place. -/
def romRequest (s : State) (env : RomEnv) (nonce : Bytes) : State × Bool :=
  let r := (rbytes s (romReg 0x400) 66)
  let t := fieldLe r 6 1
  let fail (s : State) (code : Nat) : State × Bool :=
    let s := (List.range 128).foldl (fun s w => rset s (romReg (0x400 + 4 * w)) 0) s
    (irq (report (rset s (romReg 0x060) (mk 15 0 code ||| mk 17 17 1 ||| mk 22 20 t)) .rom 0 code 0 0) .rom 0 2, false)
  match requestBad s nonce r with
  | some code => fail s code
  | none =>
    let (s, ok) := (digestWords s r).foldl (fun a w => romProgram env a w.1 w.2) (s, true)
    let (s, ok) := romProgram env (s, ok) (requestMarker s t).1 (requestMarker s t).2
    if ok then (s, true) else fail s 0x0119

/-- The token's fields that must be fixed or zero (R267, R336). -/
def tokenFormOk (t : Bytes) : Bool :=
  let p := fieldLe t 6 1
  decide (t.length = 176) && decide (t.take 4 = ascii "WTKN") && decide (fieldLe t 4 2 = 1) && decide (1 ≤ p) && decide (p ≤ 3) &&
  decide (fieldLe t 7 1 = 0) && decide (fieldLe t 0x4E 2 = 0) &&
  (if p = 1 then decide (fieldLe t 0x48 4 < 16) && decide (fieldLe t 0x4C 2 = 0) else decide (fieldLe t 0x48 4 = 0))
/-- The first check of R267 or R336 that a token fails. -/
def tokenBad (s : State) (nonce t : Bytes) : Option Nat :=
  let lc := (lifeCycle s).1
  let p := fieldLe t 6 1
  let signer := sliceZ t 0x50 32
  if lc ≠ 1 ∧ lc ≠ 2 then some 0x011A
  else if !tokenFormOk t then some 0x011B
  else if sliceZ t 0x08 32 ≠ devidPub s ∨ sliceZ t 0x28 32 ≠ nonce then some 0x011C
  else if p ≠ 1 ∧ fieldLe t 0x4C 2 ≠ tamperNow s then some 0x0701
  else if (lc = 1 ∧ signer ≠ Config.idsitiaTokenKey) ∨ (lc = 2 ∧ sha512 signer ≠ ownerDigest s (lifeCycle s).2) then some 0x011D
  else if !ed25519Verify signer (ascii "WDX-TOKEN-SIG-V1" ++ t.take 0x70) (sliceZ t 0x70 64) then some 0x011E
  else if p = 2 ∧ !s.locked then some 0x0702
  else if p = 3 ∧ (s.locked ∨ s.tem.window) then some 0x0703
  else none
/-- A pending token is evaluated; the code of a failed check is reported on the page of its block (R275, R341). -/
def romToken (s : State) (nonce : Bytes) : State :=
  let t := s.token
  let code := tokenBad s nonce t
  let s := irq (rsetb (rsetf s tokenStatus 15 0 (code.getD 0)) tokenStatus 16 false) .rom 0 0
  if code.isSome then report s (if code.getD 0 / 256 = 1 then .rom else .tem) 0 (code.getD 0) 0 0
  else match fieldLe t 6 1 with
    | 1 => rsetf (rsetb s tokenStatus 17 true) tokenStatus 21 18 (fld (BitVec.ofNat 32 (fieldLe t 0x48 4) &&& ~~~ shadow s 195) 3 0)
    | 2 => requeueApplies (unlock s (sliceZ t 0x50 32))
    | _ => openWindow s
/-- A fresh BOOT_NONCE (R255). -/
def newNonce (s : State) : State := rsetBytes (draw s 32).2 (romReg 0x080) 8 (draw s 32).1
/-- Step 3, with the key slots zeroised after a change of life cycle or epoch (R228, R233): whether a transition has taken place, so
that the DEVICE reset of cause 4 follows. -/
def romLifecycle (s : State) (env : RomEnv) : State × Bool :=
  let s := romRepairs (zeroiseChanged s) env
  let nonce := bootNonce s
  let req := rbit s (romReg 0x060) 16
  let tok := rbit s tokenStatus 16
  let r := if req then romRequest s env nonce else (s, false)
  if r.2 then r
  else
    let s := if tok then romToken r.1 nonce else r.1
    (if req ∨ tok then newNonce s else s, false)

/-! ### The protected region (R283 to R286) -/

/-- K_prot. -/
def protKey (s : State) : Bytes := derive (kslot s 3).key "WDX-PROT" [] 512
/-- The MAC of a copy's header and body. -/
def protMac (s : State) (hdr body : Bytes) : Bytes := (hmac (protKey s) (hdr ++ body)).take 32
/-- A copy of `size` bytes, read as seq, format and body where it is valid (R284). -/
def copyRead (s : State) (magic : Bytes) (size : Nat) (settings : Bool) (c : Bytes) : Option (Nat × Nat × Bytes) :=
  let len := fieldLe c 0x10 4
  let body := (c.drop 64).take len
  if c.take 4 = magic ∧ fieldLe c 4 2 = 1 ∧ (settings ∨ fieldLe c 6 2 = 0) ∧ len + 64 ≤ size ∧ body.length = len ∧
     allZero (sliceZ c 0x14 12) ∧ sliceZ c 0x20 32 = protMac s (c.take 32) body then some (fieldLe c 8 8, fieldLe c 6 2, body)
  else none
/-- The current copy of a sequenced area with counter value `c`: copy (B when true), format, body, and whether the counter must be
raised (R284). -/
def currentCopy (c : Nat) (a b : Option (Nat × Nat × Bytes)) : Option (Bool × Nat × Bytes × Bool) :=
  let is (x : Option (Nat × Nat × Bytes)) (q : Nat) : Option (Nat × Bytes) :=
    match x with | some (q', f, body) => if q' = q then some (f, body) else none | none => none
  match is a c, is b c, is a (c + 1), is b (c + 1) with
  | some (f, body), _, _, _ => some (false, f, body, false)
  | none, some (f, body), _, _ => some (true, f, body, false)
  | none, none, some (f, body), _ => some (false, f, body, true)
  | none, none, none, some (f, body) => some (true, f, body, true)
  | none, none, none, none => none
/-- The bytes of a copy. -/
def copyBytes (s : State) (magic : Bytes) (format seq : Nat) (body : Bytes) : Bytes :=
  let hdr := magic ++ leBytes 2 1 ++ leBytes 2 format ++ leBytes 8 seq ++ leBytes 4 body.length ++ zeros 12
  hdr ++ protMac s hdr body ++ body
/-- The ROM raises counter `c` by one. -/
def romRaise (s : State) (c : Nat) : State := (cstApply s ⟨.core 0, true, c, counter s c + 1⟩ false false).1
/-- The minimum-version record (R285). -/
structure MinRec where
  minVersion : Nat
  prefer : Bool := false
  trial : Bool := false
  rejected : Bool := false
  trialLeft : Nat := 0
  phase : Nat := 0
  unit : Nat := 0
  staged : Bytes := zeros 64
  rejectedDigest : Bytes := zeros 64
  deriving DecidableEq, Repr
/-- A record's body. -/
def recBody (r : MinRec) : Bytes :=
  leBytes 8 r.minVersion ++ leBytes 4 (b2n r.prefer + 2 * b2n r.trial + 4 * b2n r.rejected) ++ leBytes 1 r.trialLeft ++
  leBytes 1 r.phase ++ zeros 2 ++ leBytes 4 r.unit ++ zeros 12 ++ sliceZ r.staged 0 64 ++ sliceZ r.rejectedDigest 0 64
/-- A body read as a record; none where it is not 160 bytes, or holds min_version below counter 0 or a phase code not listed. -/
def recOf (s : State) (b : Bytes) : Option MinRec :=
  let f := fieldLe b 8 4
  let phase := fieldLe b 0x0D 1
  if b.length ≠ 160 ∨ fieldLe b 0 8 < counter s 0 ∨ phase ∉ [0x00, 0x0F, 0x33, 0x3C] then none
  else some { minVersion := fieldLe b 0 8, prefer := f % 2 = 1, trial := f / 2 % 2 = 1, rejected := f / 4 % 2 = 1,
              trialLeft := fieldLe b 0x0C 1, phase := phase, unit := fieldLe b 0x10 4, staged := sliceZ b 0x20 64,
              rejectedDigest := sliceZ b 0x60 64 }

/-- The ROM between steps 4 and 9: the machine, the record in use and the copy that is current, the four bundle areas as the start has
left them, what the flash operations still to come meet (RomEnv), the unit a copy goes on from and how many units it may
copy, and whether it has stopped at a unit. -/
structure RomRun where
  s : State
  rc : Option MinRec := none
  recB : Bool := true
  areas : List Bytes := []
  busy : List (Option Nat) := []
  backs : List Bool := []
  copyBad : List (Nat × Nat) := []
  start : Nat := 0
  units : Option Nat := none
  halted : Option Nat := none

/-- The ROM's reads of `len` bytes of boot flash, up to 64 KiB a command (R277). -/
def romReads (s : State) (addr len : Nat) : State :=
  (List.range ((len + 65535) / 65536)).foldl (fun s k => bfOut s 0x6C (addr + 65536 * k) (min 65536 (len - 65536 * k)) []) s
/-- A program or an erase by the ROM: write enable, the command, and polls until the chip is ready or its limit has passed (R277). -/
def romFlashOp (a : RomRun × Bool) (op addr : Nat) (data : Bytes) : RomRun × Bool :=
  if !a.2 then a else
  let x := a.1
  let s := bfOut (bfOut x.s 0x06 0 0 []) op addr 0 data
  match x.busy.headD (some 0) with
  | some n => ({ x with s := (List.range (n + 1)).foldl (fun s _ => bfOut s 0x05 0 1 []) s, busy := x.busy.drop 1 }, true)
  | none => ({ x with s := bfOut s 0x05 0 1 [], busy := x.busy.drop 1 }, false)
/-- Bytes written at a flash address: erased block by block, programmed page by page; whether every operation has ended in time. -/
def writeFlash (x : RomRun) (addr : Nat) (data : Bytes) : RomRun × Bool :=
  let a := (List.range ((data.length + 4095) / 4096)).foldl (fun a k => romFlashOp a 0x21 (addr + 4096 * k) []) (x, true)
  (List.range ((data.length + 255) / 256)).foldl (fun a k =>
    romFlashOp a 0x34 (addr + 256 * k) ((data.drop (256 * k)).take 256)) a
/-- A copy of a sequenced area written and read back (R284 steps 1 and 2): a failure is reported, and the counter is not raised
(assumption log 116). -/
def writeCopy (x : RomRun) (addr : Nat) (data : Bytes) : RomRun × Bool :=
  match writeFlash x addr data with
  | (x, false) => ({ x with s := report x.s .rom 0 0x013A 0 0 }, false)
  | (x, true) =>
    let s := romReads x.s addr data.length
    let bad := x.backs.headD false
    ({ x with s := if bad then report s .rom 0 0x013A 0 0 else s, backs := x.backs.drop 1 }, !bad)

/-- The record's magic and the store's. -/
def recMagic : Bytes := ascii "WPRA"
/-- The settings store's magic. -/
def setMagic : Bytes := ascii "WPRS"
/-- A bit of BOOT_FW_STATUS set. -/
def fwFlag (s : State) (b : Nat) : State := rsetb s (romReg 0x100) b true
/-- The record written (R284): the copy that is not current takes it and is read back, then counter 1 is raised. -/
def writeRec (x : RomRun) (r : MinRec) : RomRun :=
  let data := copyBytes x.s recMagic 0 (counter x.s 1 + 1) (recBody r)
  match writeCopy { x with rc := some r } (if x.recB then 0x02000000 else 0x02001000) data with
  | (x, true) => { x with s := romRaise x.s 1, recB := !x.recB }
  | (x, false) => x
/-- The protected region can be used: the chip is there, the device is not LOCKED, and the key that seals it exists. -/
def regionOn (s : State) : Bool := rbit s (romReg 0x130) 24 && !s.locked && decide ((kslot s 3).st = .live)
/-- The current record, both copies read and a counter behind it raised (R284). -/
def readRec (x : RomRun) (env : RomEnv) : RomRun × Option MinRec :=
  let x := { x with s := romReads x.s 0x02000000 8192 }
  match currentCopy (counter x.s 1) (copyRead x.s recMagic 4096 false env.recA) (copyRead x.s recMagic 4096 false env.recB) with
  | some (b, _, body, up) => ({ x with s := if up then romRaise x.s 1 else x.s, recB := b }, recOf x.s body)
  | none => (x, none)
/-- read_record of R287: a lost record is written anew (R285). -/
def openRec (x : RomRun) (env : RomEnv) : RomRun :=
  if !regionOn x.s then x else
  match readRec x env with
  | (x, some r) => { x with rc := some r }
  | (x, none) => writeRec { x with s := fwFlag x.s 9 } { minVersion := counter x.s 0 }
/-- The minimum version where nothing may be written to the flash: the record's where it is current (R284, R288, R297). -/
def peekRec (x : RomRun) (env : RomEnv) : RomRun :=
  if !regionOn x.s then x else
  match readRec x env with
  | (x, r) => { x with rc := r }

/-! ### Bundles (R279 to R282) -/

/-- Header fields as R279 requires; total_len fits the area. -/
def headerOk (b : Bytes) (area : Nat) : Bool :=
  let total := fieldLe b 8 4
  decide (b.take 4 = ascii "WFWB") && decide (fieldLe b 4 2 = 1) && decide (fieldLe b 6 2 = 0x200) && decide (total % 64 = 0) &&
  decide (0x1000 ≤ total) && decide (total ≤ 0x400000) && decide (total ≤ area) && decide (fieldLe b 0x0C 4 ≤ 1) &&
  decide (fieldLe b 0x18 8 ≤ fieldLe b 0x10 8) && decide (fieldLe b 0x30 1 ≤ fieldLe b 0x31 1) && decide (fieldLe b 0x32 2 = 0) &&
  decide (fieldLe b 0x34 4 ≤ fieldLe b 0x38 4) && decide (fieldLe b 0x3E 2 ≤ fieldLe b 0x3C 2) &&
  decide (1000 ≤ fieldLe b 0xA0 4) && decide (fieldLe b 0xA0 4 ≤ 3600000) && decide (1 ≤ fieldLe b 0xA4 1) &&
  decide (fieldLe b 0xA4 1 ≤ 3) && decide (2 ≤ fieldLe b 0xA5 1) && decide (fieldLe b 0xA5 1 ≤ 8) && allZero (sliceZ b 0xA6 90)
/-- Sub-image entry `e`: type, offset, length and entry field. -/
def subEntry (b : Bytes) (e : Nat) : Nat × Nat × Nat × Nat :=
  (fieldLe b (0x100 + 32 * e) 1, fieldLe b (0x104 + 32 * e) 4, fieldLe b (0x108 + 32 * e) 4, fieldLe b (0x10C + 32 * e) 4)
/-- The sub-image entries in use. -/
def subEntries (b : Bytes) : List (Nat × Nat × Nat × Nat) := (List.range (fieldLe b 0xA5 1)).map (subEntry b)
/-- One entry and its sub-image header (R279, R280). -/
def subOk (b : Bytes) (e : Nat) : Bool :=
  let (t, off, len, entry) := subEntry b e
  decide (t ∈ [0x01, 0x10, 0x11, 0x12, 0x20, 0x30]) && allZero (sliceZ b (0x101 + 32 * e) 3) && decide (off % 64 = 0) &&
  decide (0x200 ≤ off) && decide (off + len ≤ fieldLe b 8 4) && decide (32 ≤ len) && allZero (sliceZ b (0x110 + 32 * e) 16) &&
  (if t = 1 then decide (entry % 4 = 0) && decide (entry < len - 32) else decide (entry = 0)) &&
  (if 0x10 ≤ t ∧ t ≤ 0x12 then decide (4 ≤ len - 32) && decide (len - 32 ≤ 196608) && decide (len % 4 = 0) else true) &&
  (if t = 0x20 then decide (len - 32 ≤ 126912) else true) &&
  decide (sliceZ b off 4 = ascii "WFSI") && decide (fieldLe b (off + 4) 1 = t) && allZero (sliceZ b (off + 5) 11)
/-- The sub-image table and the sub-image headers (R279, R280). -/
def subsOk (b : Bytes) : Bool :=
  let n := fieldLe b 0xA5 1
  let es := subEntries b
  let many (t : Nat) : Nat := (es.filter fun e => decide (e.1 = t)).length
  (List.range n).all (subOk b) && allZero (sliceZ b (0x100 + 32 * n) (32 * (8 - n))) && decide (many 0x01 = 1) &&
  decide (many 0x20 = 1) && decide (many 0x10 ≤ 1) && decide (many 0x11 ≤ 1) && decide (many 0x12 ≤ 1) &&
  (List.range n).all fun i => (List.range i).all fun j =>
    let (_, o, l, _) := subEntry b i
    let (_, o', l', _) := subEntry b j
    decide (o + l ≤ o') || decide (o' + l' ≤ o)
/-- The signed message without its domain string (R281). -/
def signedPart (b : Bytes) : Bytes := b.take 0x60 ++ (b.drop 0xA0).take (fieldLe b 8 4 - 0xA0)
/-- The own-firmware digest (R281). -/
def fwDigest (b : Bytes) : Bytes := sha512 (signedPart b)
/-- The digest that the signer's must equal (R282). -/
def signerDigest (s : State) : Bytes :=
  if (lifeCycle s).1 = 2 then ownerDigest s (lifeCycle s).2 else Config.idsitiaFirmwareDigest
/-- The signature verifies. -/
def bundleSigned (b : Bytes) : Bool :=
  ed25519Verify (sliceZ b 0x40 32) (ascii "WDX-FWB-SIGN-V01" ++ signedPart b) (sliceZ b 0x60 64)
/-- The first of the six checks of R282 that need only the header which a candidate fails. -/
def headerBad (s : State) (b : Bytes) (area : Nat) (minVersion : Option Nat) : Option Nat :=
  let v := fieldLe b 0x10 8
  let hw := (rget s (romReg 0x110)).toNat
  if !headerOk b area then some 0x0130
  else if sha512 (sliceZ b 0x40 32) ≠ signerDigest s then some 0x0131
  else if v < counter s 0 then some 0x0133
  else if v < minVersion.getD 0 then some 0x0134
  else if s.part.stepping < fieldLe b 0x30 1 ∨ fieldLe b 0x31 1 < s.part.stepping then some 0x0135
  else if hw < fieldLe b 0x34 4 ∨ fieldLe b 0x38 4 < hw then some 0x0136
  else none
/-- The first check of R282 that a candidate fails. -/
def bundleBad (s : State) (b : Bytes) (area : Nat) (minVersion : Option Nat) (golden badRead : Bool) : Option Nat :=
  if (headerBad s b area minVersion).isSome then headerBad s b area minVersion
  else if golden ∧ fieldLe b 0x0C 4 % 2 = 0 then some 0x0139
  else if !subsOk b then some 0x0137
  else if (subEntries b).any fun e => decide (sliceZ b (e.2.1 + 0x10) 16 ≠ sliceZ b 0x20 16) then some 0x0138
  else if !bundleSigned b then some 0x0132
  else if badRead then some 0x013A
  else none

/-! ### Step 4 (R287, R288, R291, R338) -/

/-- Area `k` of the boot flash: 0 Golden, 1 Primary, 2 Previous, 3 Staging. -/
def area (x : RomRun) (k : Nat) : Bytes := x.areas.getD k []
/-- A rejection shown: its code and slot (R300), on the page as an error of its own or of the interface a push came over (R302). -/
def shownAs (s : State) (code slot : Nat) : State :=
  report (rset s (romReg 0x104) (mk 15 0 code ||| mk 18 16 slot)) .rom 0 code 0 (if slot ≤ 2 then 0 else 3)
/-- A candidate rejected: its code and slot, one more tried (R287, R300). -/
def rejectAs (s : State) (code slot : Nat) : State := rcount (shownAs s code slot) (romReg 0x100) 23 16 1
/-- A memory that holds a byte string from address 0. -/
def memOf (bs : Bytes) : Tbl Byte := ((List.range bs.length).zip bs).filter fun e => decide (e.2 ≠ 0)
/-- Bytes read into boot SRAM from its start; what lay beyond them stays (R282). -/
def loadBoot (s : State) (bs : Bytes) : State :=
  { s with bootSram := memOf bs ++ s.bootSram.filter fun e => decide (bs.length ≤ e.1) }
/-- The bytes of a flash candidate that the ROM reads: its header, and the whole bundle once the header's checks have passed (R282). -/
def candidateLen (x : RomRun) (k : Nat) : Nat :=
  if (headerBad x.s (area x k) 0x800000 (x.rc.map (·.minVersion))).isSome then 512 else fieldLe (area x k) 8 4
/-- The check of a flash candidate. -/
def candidateBad (x : RomRun) (env : RomEnv) (k : Nat) : Option Nat :=
  bundleBad x.s (area x k) 0x800000 (x.rc.map (·.minVersion)) (k == 0) (env.badReads.contains k)
/-- A flash candidate read into boot SRAM for its check. -/
def readCandidate (x : RomRun) (k : Nat) : RomRun :=
  let n := candidateLen x k
  { x with s := loadBoot (romReads x.s (0x800000 * k) n) (sliceZ (area x k) 0 n) }

/-- One attempt at a unit: source read, destination erased and programmed, read back and compared (R291). -/
def copyOnce (x : RomRun) (phase : Nat) (src : Bytes) (u : Nat) : RomRun × Bool :=
  let (from_, dst) := if phase = 0 then (1, 2) else (3, 1)
  let a := 0x800000 * dst + 65536 * u
  let x := { x with s := romReads x.s (0x800000 * from_ + 65536 * u) 65536 }
  match (List.range 256).foldl (fun r p => romFlashOp r 0x34 (a + 256 * p) (sliceZ src (65536 * u + 256 * p) 256))
      (romFlashOp (x, true) 0xDC a []) with
  | (x, false) => (x, false)
  | (x, true) =>
    ({ x with s := romReads x.s a 65536, copyBad := x.copyBad.erase (phase, u) }, !x.copyBad.contains (phase, u))
/-- One unit copied; a unit that fails is repeated once.  The ROM kicks the watchdog after it (R291, R343). -/
def copyUnit (x : RomRun) (phase : Nat) (src : Bytes) (u : Nat) : RomRun × Bool :=
  let (x, ok) := match copyOnce x phase src u with
    | (x, true) => (x, true)
    | (x, false) => copyOnce x phase src u
  ({ x with s := romKick x.s }, ok)
/-- A destination area as a failed copy leaves it: the units copied from `lo` on, the failed unit as it reads, the rest as before. -/
def partCopied (src old got : Bytes) (lo u : Nat) : Bytes :=
  sliceZ old 0 (65536 * lo) ++ sliceZ src (65536 * lo) (65536 * (u - lo)) ++ sliceZ got 0 65536 ++ old.drop (65536 * (u + 1))
/-- How a copy phase ends: whole, at a unit that failed twice, or with the copy under way at a unit. -/
inductive CopyEnd
  | whole
  | failed (u : Nat)
  | halts (u : Nat)
/-- Unit `u` of a copy of `n` units: passed over where it is done, copied, and its progress recorded every eighth; none where the copy goes
on. -/
def copyStep (x : RomRun) (phase : Nat) (src : Bytes) (n u : Nat) : RomRun × Option CopyEnd :=
  match x.rc with
  | none => (x, some .whole)
  | some r =>
    if u < max r.unit x.start then (x, none)
    else if x.units = some 0 then (x, some (.halts u))
    else match copyUnit { x with units := x.units.map (· - 1) } phase src u with
      | (x, false) => (x, some (.failed u))
      | (x, true) => (if (u + 1) % 8 = 0 ∧ u + 1 < n then writeRec x { r with unit := u + 1 } else x, none)
/-- The units of one copy phase from the record's unit on, with a record after every eighth (R291, R292). -/
def copyUnits (phase : Nat) (src : Bytes) (n : Nat) : Nat → RomRun → RomRun × CopyEnd
  | 0, x => (x, .whole)
  | k + 1, x =>
    match copyStep x phase src n (n - (k + 1)) with
    | (x, none) => copyUnits phase src n k x
    | (x, some e) => (x, e)

/-- The units of a bundle. -/
def unitsOf (b : Bytes) : Nat := (fieldLe b 8 4 + 65535) / 65536
/-- The staged bundle is discarded (R291). -/
def discardStaged (x : RomRun) (r : MinRec) (code : Nat) (tried : Bool) : RomRun :=
  let s := fwFlag x.s 6
  let s := if tried then rejectAs s code 1 else shownAs s code 1
  writeRec { x with s := s } { r with phase := 0 }
/-- The unit a copy phase starts from. -/
def copyStart (x : RomRun) : Nat := max x.start ((x.rc.map (·.unit)).getD 0)
/-- A copy phase has failed at a unit: the staged bundle is discarded, the destination partly overwritten (R291). -/
def copyFails (x : RomRun) (env : RomEnv) (phase lo u : Nat) : RomRun :=
  let (from_, dst) := if phase = 0 then (1, 2) else (3, 1)
  let x := { x with areas := x.areas.set dst (partCopied (area x from_) (area x dst) env.copyGot lo u) }
  match x.rc with | some r => discardStaged x r 0x013A false | none => x
/-- COPY_PRIMARY from the record's unit, and step 5 of R291. -/
def copyPrimary (x : RomRun) (env : RomEnv) : RomRun :=
  let src := area x 3
  match copyUnits 1 src (unitsOf src) (unitsOf src) x with
  | (y, .failed u) => copyFails y env 1 (copyStart x) u
  | (y, .halts u) => { y with halted := some u }
  | (x, .whole) =>
    match x.rc with
    | none => x
    | some r =>
      let x := { x with s := fwFlag x.s 5, areas := [area x 0, src, area x 2, src] }
      writeRec x { r with phase := 0, unit := 0, trial := true, trialLeft := fieldLe src 0xA4 1 - 1, rejected := false, prefer := false }
/-- COPY_PREV from the record's unit, then COPY_PRIMARY. -/
def copyPrev (x : RomRun) (env : RomEnv) : RomRun :=
  let src := area x 1
  match copyUnits 0 src (unitsOf src) (unitsOf src) x with
  | (y, .failed u) => copyFails y env 0 (copyStart x) u
  | (y, .halts u) => { y with halted := some u }
  | (x, .whole) =>
    match x.rc with
    | none => x
    | some r =>
      copyPrimary (writeRec { x with areas := [area x 0, src, src, area x 3], start := 0 } { r with phase := 0x3C, unit := 0 }) env
/-- run_copy of R287, as R291 and R292 give it. -/
def runCopy (x : RomRun) (env : RomEnv) : RomRun :=
  match x.rc with
  | none => x
  | some r =>
    match r.phase with
    | 0x0F =>
      let bad := candidateBad x env 3
      let x := readCandidate x 3
      (match bad with
       | some code => discardStaged x r code true
       | none =>
         if fwDigest (area x 3) ≠ r.staged then discardStaged x r 0x013B true
         else
           let x := if r.rejected then x
             else { x with s := romReads x.s 0x800000 (if headerOk (area x 1) 0x800000 then fieldLe (area x 1) 8 4 else 512) }
           if !r.rejected ∧ headerOk (area x 1) 0x800000 ∧ bundleSigned (area x 1) then
             copyPrev (writeRec x { r with phase := 0x33, unit := 0 }) env
           else copyPrimary (writeRec x { r with phase := 0x3C, unit := 0 }) env)
    | 0x33 => copyPrev x env
    | 0x3C => copyPrimary x env
    | _ => x
/-- by_header_version (R287). -/
def byHeaderVersion (x : RomRun) (prefer : Bool) : List Nat :=
  let rank (k : Nat) : Nat := if headerOk (area x k) 0x800000 then fieldLe (area x k) 0x10 8 + 1 else 0
  if rank 1 > rank 2 then [1, 2] else if rank 2 > rank 1 then [2, 1] else if prefer then [2, 1] else [1, 2]
/-- The record once candidate `k` has failed: Primary failing in a trial ends the trial (R287). -/
def dropTrial (x : RomRun) (k : Nat) : RomRun :=
  match x.rc with
  | some r =>
    if k = 1 ∧ r.trial then
      writeRec { x with s := fwFlag x.s 4 } { r with trial := false, rejected := true, rejectedDigest := fwDigest (area x 1) }
    else x
  | none => x
/-- One candidate is tried unless one has passed: read into boot SRAM and checked. -/
def tryCandidate (env : RomEnv) (a : RomRun × Option Nat) (k : Nat) : RomRun × Option Nat :=
  if a.2.isSome then a
  else
    let x := readCandidate a.1 k
    match candidateBad a.1 env k with
    | none => (x, some k)
    | some code => (dropTrial { x with s := rejectAs x.s code k } k, none)
/-- The candidates in turn (R287): the first that passes. -/
def tryCandidates (env : RomEnv) (order : List Nat) (x : RomRun) : RomRun × Option Nat :=
  order.foldl (tryCandidate env) (x, none)
/-- The trial state of R287. -/
def trialState (x : RomRun) : RomRun :=
  match x.rc with
  | some r =>
    if !r.trial then x
    else if r.trialLeft = 0 then
      writeRec { x with s := fwFlag (romReads x.s 0x800000 (if headerOk (area x 1) 0x800000 then fieldLe (area x 1) 8 4 else 512)) 4 } { r with trial := false, rejected := true, rejectedDigest := fwDigest (area x 1) }
    else writeRec x { r with trialLeft := r.trialLeft - 1 }
  | none => x
/-- The record and the copy of step 4 where GOLDEN_N is not in force (R287). -/
def beforeSlots (x : RomRun) (env : RomEnv) : RomRun := runCopy (trialState (openRec x env)) env
/-- Slot selection in private-flash mode: the slot chosen, none for RECOVERY. -/
def selectSlot (x : RomRun) (env : RomEnv) (golden : Bool) : RomRun × Option Nat :=
  if golden then tryCandidates env [0] (peekRec x env)
  else
    let x := { x with s := romReads (romReads x.s 0x800000 512) 0x1000000 512 }
    let order := match x.rc with
      | some r => (if r.trial then [1, 2] else byHeaderVersion x r.prefer).filter fun k => !(k == 1 && r.rejected)
      | none => byHeaderVersion x false
    tryCandidates env (order ++ [0]) x

/-! ### Steps 5 to 9 (R286, R298, R299) -/

/-- The payload of the sub-image of a type. -/
def payloadOf (b : Bytes) (t : Nat) : Option Bytes :=
  ((subEntries b).find? fun e => decide (e.1 = t)).map fun e => sliceZ b (e.2.1 + 32) (e.2.2.1 - 32)
/-- Step 5's registers: version, bundle id, Dill digests and lengths (R298). -/
def loadBundle (s : State) (b : Bytes) : State :=
  let s := { loadBoot s (b.take (fieldLe b 8 4)) with bootLock := true }
  let s := rsetBytes (rsetBytes s (romReg 0x108) 2 (sliceZ b 0x10 8)) (romReg 0x140) 4 (sliceZ b 0x20 16)
  (List.range 3).foldl (fun s q =>
    let p := payloadOf b (0x10 + q)
    let s := rsetBytes s (romReg (0x600 + 64 * q)) 16 (match p with | some d => sha512 d | none => zeros 64)
    let s := rset s (romReg (0x068 + 4 * q)) (BitVec.ofNat 32 ((p.map (·.length)).getD 0))
    { s with rwoUsed := (List.range 16).foldl (fun t w => Tbl.set (fun _ => false) t (romReg (0x600 + 64 * q + 4 * w)) true) s.rwoUsed }) s
/-- The settings store of the chosen bundle, both copies read (R286); RECOVERY writes nothing to the flash (R297). -/
def settingsStore (x : RomRun) (env : RomEnv) (b : Bytes) (writes : Bool) : State :=
  let s := romReads x.s 0x02002000 253952
  let cur := currentCopy (counter s 2) (copyRead s setMagic 126976 true env.setA) (copyRead s setMagic 126976 true env.setB)
  let s := match cur with | some (_, _, _, true) => romRaise s 2 | _ => s
  let reset (onB : Bool) : State :=
    let data := copyBytes s setMagic (fieldLe b 0x3C 2) (counter s 2 + 1) ((payloadOf b 0x20).getD [])
    if !writes then s
    else match writeCopy { x with s := s } (if onB then 0x02002000 else 0x02021000) data with
      | (x, ok) => fwFlag (if ok then romRaise x.s 2 else x.s) 7
  match cur with
  | none => reset true
  | some (onB, f, _, _) =>
    if f < fieldLe b 0x3E 2 then reset onB else if f > fieldLe b 0x3C 2 then fwFlag s 8 else s
/-- Step 6 (R225, R226, R233): the code of a stop, if any. -/
def romOwner (s : State) (b : Bytes) : State × Option Nat :=
  let used := (s.kslots.filter fun e => decide (e.2.st ≠ .empty)).length
  let imp (k : Nat) (key : Bytes) (own : Bool) : State × Option Nat :=
    if (edDecode key).isNone then (s, some 0x0123)
    else
      match fill s (.core 0) k { ktype := 2, usage := 2, parent := none, ownerKey := own, key := key } true with
      | (s, 0) => (s, none)
      | (s, _) => (s, some 0x0123)
  if (rfld s (romReg 0x040) 3 0 = 4 ∨ s.lifeNew) ∧ used > 8 then (s, some 0x0123)
  else match (lifeCycle s).1 with
    | 2 => imp 5 (sliceZ b 0x40 32) true
    | 1 => imp 6 Config.idsitiaTokenKey false
    | _ => (s, none)
/-- The life-cycle record of D2 (R299). -/
def lifeRecord (s : State) : Bytes :=
  let t := rget s tokenStatus
  leBytes 1 (lcCode s) ++ leBytes 1 (lifeCycle s).2 ++ leBytes 1 (b2n (rbit s (romReg 0x04C) 12)) ++ leBytes 1 (b2n (bit t 17)) ++
  leBytes 4 (fld t 21 18) ++ leBytes 4 (debugValue s).toNat ++ leBytes 2 (rfld s (romReg 0x060) 15 0) ++ zeros 2
/-- The boot record of D3 (R299). -/
def bootRecord (s : State) (b : Bytes) (slot : Nat) : Bytes :=
  leBytes 1 slot ++ leBytes 1 (rfld s (romReg 0x050) 7 0) ++ leBytes 1 (rfld s (romReg 0x040) 3 0) ++
  leBytes 1 (rfld s (romReg 0x100) 23 16) ++ leBytes 2 (rfld s (romReg 0x100) 11 3) ++ zeros 2 ++ sliceZ b 0x10 8 ++
  leBytes 4 s.part.cap ++ leBytes 4 (rget s (romReg 0x110)).toNat ++ sliceZ b 0x20 16 ++ leBytes 8 (counter s 0)
/-- Step 7 (R299, R338): the code of a stop, if any. -/
def romMeasure (s : State) (b : Bytes) (slot : Nat) : State × Option Nat :=
  let own := fwDigest b ++ sliceZ b 0x10 8 ++ leBytes 1 slot ++ zeros 7
  match runFwRecord s {} own [] with
  | (s, { status := 0, .. }) =>
    let s := extend (extend (extend s 1 (sha512 (sliceZ b 0x40 32))) 2 (lifeRecord s)) 3 (bootRecord s b slot)
    if s.locked then (s, none)
    else (match runAlias s {} [] [] with
      | (s, { status := 0, .. }) => (s, none)
      | (s, x) => (s, some x.status))
  | (s, x) => (s, some x.status)
/-- Step 9 (R225, R257, R293, R343): the watchdog handed over, key slot 0 locked, first-stage firmware entered. -/
def romHandover (s : State) (b : Bytes) : State :=
  let trial := rbit s (romReg 0x100) 3
  let s := rset s (bwdReg 0x04C) (BitVec.ofNat 32 (if trial then fieldLe b 0xA0 4 else 10000))
  let s := rsetf s (bwdReg 0x040) 7 0 (if trial then 0x55 else 0x33)
  let s := bwdLoad (rsetf s (romReg 0x040) 23 16 0) (ms (rfld s (bwdReg 0x04C) 21 0)) true
  { rsetf (rsetb s (reg .atu 0 0x040) 2 true) (romReg 0x048) 7 0 0xAA with sage := .run, lifeNew := false }
/-- A bundle that has passed its checks is loaded and started from `slot`; `writes` says that the settings store may be written. -/
def bootFrom (x : RomRun) (env : RomEnv) (b : Bytes) (slot : Nat) (writes trial : Bool) : State :=
  let s := loadBundle (rsetf (romStep x.s 0x96) (romReg 0x100) 2 0 slot) b
  let s := if trial then fwFlag s 3 else s
  let s := if regionOn s then settingsStore { x with s := s } env b writes else s
  let s := romStep s 0x33
  let dec := decide ((lifeCycle s).1 = 3)
  let (s, stop) := if dec ∨ s.locked then (s, none) else romOwner s b
  match stop with
  | some code => romStop s code
  | none =>
    let s := romStep s 0x99
    let (s, stop) := if dec then (s, none) else romMeasure s b slot
    match stop with
    | some code => romStop s code
    | none =>
      let s := romStep s 0xA5
      romHandover (writeDbgLock s (debugValue s)) b

/-! ### The flow -/

/-- The boot flash chip is reset and identified (R277). -/
def romFlash (s : State) (id : Bytes) : State :=
  let s := bfOut (bfOut (bfOut s 0x66 0 0 []) 0x99 0 0 []) 0x9F 0 3 []
  let there := decide (sliceZ id 0 3 ≠ zeros 3) && decide (sliceZ id 0 3 ≠ ones 3)
  rsetb (rset s (romReg 0x130) (BitVec.ofNat 32 (fieldLe id 0 3) ||| mk 24 24 (b2n there))) (romReg 0x100) 10 there
/-- The ROM at the start of step 4, or where its copy goes on at a unit. -/
def romRun (s : State) (env : RomEnv) (start : Nat) : RomRun :=
  { s := s, areas := [env.golden, env.primary, env.previous, env.staging], busy := env.busy, backs := env.backBad,
    copyBad := env.copyBad, start := start, units := env.units }
/-- The slot is chosen and started; a copy under way ends the command before that, at its unit (R292). -/
def romChoose (x : RomRun) (env : RomEnv) (golden : Bool) : State :=
  match x.halted with
  | some u => { x.s with sage := .copying u }
  | none =>
    match selectSlot x env golden with
    | (x, none) => openPush x.s true
    | (x, some k) =>
      let trial := decide (k = 1) && (match x.rc with | some r => r.trial | none => false)
      bootFrom x env (area x k) k true trial
/-- Steps 4 to 9. -/
def romSelect (s : State) (env : RomEnv) : State :=
  let golden := !rbit s (romReg 0x050) 3
  let x := romRun (rsetb s (romReg 0x100) 11 golden) env 0
  if rbit s (romReg 0x050) 0 then openPush (openRec x env).s false
  else romChoose (if golden then x else beforeSlots x env) env golden
/-- ROM_FLOW (R255); the boot flash port stops during timebase loss (R55).  Where the flow has been left with the copy of step 4 under
way, it goes on with that copy. -/
def execRomFlow (env : RomEnv) (s : State) : Host.Outcome State Fault Refusal :=
  done (
    match s.sage with
    | .rom control =>
      if s.rst ≠ .none ∨ s.reconciling ∨ s.tbLoss then s else
      let s := romFlash (romStep { s with hw := none } 0x3C) env.bfId
      (match romSelfTest s control env.kat with
       | (s, some code) => romStop s code
       | (s, none) =>
         match romRoot (romStep s 0x55) env with
         | (s, some code) => romStop s code
         | (s, none) =>
           match romLifecycle (rebuildDevid (romStep s 0x5A)) env with
           | (s, true) => deviceReset s 4 env.rst
           | (s, false) => romSelect (romStep s 0x69) env)
    | .copying u =>
      if s.rst ≠ .none ∨ s.tbLoss then s
      else romChoose (runCopy (openRec (romRun s env u) env) env) env false
    | _ => s)

/-! ### PUSH_GO (R296, R301) -/

/-- The owner of the window ends the push: the state, and the code of the check. -/
def pushGo (s : State) (src : Nat) (env : RomEnv) : State × Nat :=
  let len := s.pushLen.toNat
  let s := rset (ownPush s src) (romReg 0x11C) s.pushLen
  let fail (s : State) (code : Nat) : State × Nat := (rsetf s (romReg 0x118) 31 16 code, code)
  if len = 0 ∨ len > 0x400000 ∨ len % 64 ≠ 0 then fail (report s .rom 0 0x013E 0 3) 0x013E
  else
    let recovery := decide (s.sage = .window true)
    let slot := src + 2
    let b := memRead s.bootSram 0 len
    let x := peekRec (romRun s env 0) env
    let s := x.s
    match bundleBad s b len (x.rc.map (·.minVersion)) (!rbit s (romReg 0x050) 3) false with
    | some code =>
      let n := if code = 0x0130 then len else fieldLe b 8 4
      fail (openPush (rejectAs { s with bootSram := s.bootSram.clearRange 0 n } code slot) recovery) code
    | none =>
      let s := rsetb s (romReg 0x118) 0 false
      (bootFrom { x with s := s } env b slot (!recovery) false, 0)
/-- PUSH_GO written through the push aperture (R301, R363): any other value than go with the key is ignored. -/
def execPushGo (data : Word) (env : RomEnv) (s : State) : Host.Outcome State Fault Refusal :=
  done (
    if !pageOn s .pci 0 then s
    else if !mayPush s 1 then report (rcount s (reg .pci 0 0x058) 15 0 1) .pci 0 0x1103 0 3
    else if fld data 31 16 ≠ 0xA5C3 ∨ !bit data 0 then s
    else (pushGo s 1 env).1)
/-- SVC_PUSH_GO (R370). -/
def execSvcPushGo (seq : Nat) (payload : Bytes) (env : RomEnv) (s : State) : Host.Outcome State Fault Refusal :=
  let r : SvcReq := { type := 0x21, seq := seq, payload := payload }
  done (svcArrive s r fun s =>
    if !crcOk payload then answer (rcount s (svcReg 0x04C) 15 8 1) r 0x1301 []
    else if !mayPush s 3 ∨ payload.length ≠ 12 ∨ fieldLe payload 4 2 ≠ 0xA5C3 ∨ fieldLe payload 6 2 ≠ 0 then answer s r 0x1303 []
    else
      let (s, code) := pushGo { s with pushLen := BitVec.ofNat 32 (fieldLe payload 0 4) } 3 env
      answer s r code [])

/-! ### Writes to the ROM interface page (R273, R274, R300) -/

/-- Writes to the ROM interface page. -/
def bootWrite (inp : BusIn) (s : State) (c : WCtx) : State :=
  let o := c.off % 4096
  if o = 0x044 then rstReqWrite s c inp.rst
  else if o = 0x05C then lcCmdWrite s c inp.rst
  else if o = 0x054 then rsetb (storeW s c) c.off 31 true
  else if o = 0x058 then coreReleaseWrite s c
  else if 0x068 ≤ o ∧ o < 0x074 then (if dillRuns s ((o - 0x068) / 4) then s else storeW s c)
  else if o = 0x114 then healthWrite s c
  else if o = 0x128 then bfCmdWrite s c
  else storeW s c

end Sys2Proof.Machine
end

