-- ==== Sys2Proof/Machine/Views.lean ====
section
/-! DEFINITION. Machine/Views.lean: what a register-space offset reads (R14 to R16, R64 to R66, R69, R70): the registers that show the
state of a block are computed from it, every other one is its word of the register file. -/
namespace Sys2Proof.Machine

/-- A number in a register's bits from `lo` up. -/
def at' (lo v : Nat) : Word := BitVec.ofNat 32 (v * 2 ^ lo)
/-- A bit of a register. -/
def bitAt (i : Nat) (b : Bool) : Word := at' i (b2n b)
/-- A number capped at the largest of its field. -/
def capped (w v : Nat) : Nat := min v (2 ^ w - 1)
/-- Microseconds left of a running duration, rounded up; 0 where it does not run. -/
def usLeft (s : State) (t : Timer) : Nat := ((tget s t).getD 0 + 99) / 100

/-! ### Views, page by page: none where the register is a plain word -/

/-- The capability page (R78). -/
def viewCap (s : State) (o : Nat) : Option Word :=
  let p := s.part
  match o with
  | 0x040 => some (BitVec.ofNat 32 p.cap)
  | 0x044 => some (at' 0 p.ports ||| at' 8 p.lanes ||| at' 12 p.curves ||| at' 16 p.aes ||| at' 20 p.banks ||| bitAt 23 p.hasPair |||
      at' 24 p.vfs)
  | 0x048 => some (at' 0 p.frames ||| at' 16 p.framesPerBank)
  | _ => none
/-- The timebase page (R59). -/
def viewTb (s : State) (o : Nat) : Option Word :=
  match o with
  | 0x040 => some (bitAt 0 s.tbLocked ||| bitAt 1 s.xinCmos ||| bitAt 2 s.tbLoss ||| (rget s (tbReg 0x040) &&& 0xFFFF0000))
  | 0x044 => some (BitVec.ofNat 32 s.tbTime)
  | _ => none
/-- The power page (R488). -/
def viewPwr (s : State) (o : Nat) : Option Word :=
  match o with
  | 0x048 => some (~~~ s.domOff &&& domainsOf s.part)
  | 0x05C => some s.pwr.porInfo
  | _ => none
/-- The hub page (R464, R470). -/
def viewEvh (s : State) (o : Nat) : Option Word :=
  if o = 0x044 then some (at' 0 (activeSources s).length ||| (rget s (reg .evh 0 0x044) &&& 0xFFFF0000))
  else if 0x060 ≤ o ∧ o < 0x0A0 ∧ o % 16 = 4 then
    some (match coreTop s (activeSources s) ((o - 0x060) / 16) with
      | some (src, p) => at' 0 src ||| at' 10 p ||| at' 31 1
      | none => 0)
  else if 0x0A0 ≤ o ∧ o < 0x0E8 then
    let act := activeSources s
    let w := (o - 0x0A0) / 4
    some (act.foldl (fun v src => if src / 32 = w then v ||| at' (src % 32) 1 else v) 0)
  else none
/-- The tamper monitor page (R340). -/
def viewTem (s : State) (o : Nat) : Option Word :=
  match o with
  | 0x040 => some (at' 0 (if s.locked then 0xCC else if s.tem.observe then 0x55 else 0x33) ||| bitAt 8 s.tem.latch |||
      bitAt 9 (ackCount s).isSome ||| bitAt 10 (canaryOk s) ||| bitAt 11 s.tem.window ||| (rget s (temReg 0x040) &&& 0xFFFF0000))
  | 0x04C => some s.tem.info
  | 0x050 => some (at' 0 (fld s.tem.ack 9 0))
  | _ => none
/-- The fuse page (R316). -/
def viewFus (s : State) (o : Nat) : Option Word :=
  match o with
  | 0x040 => some ((rget s (reg .fus 0 0x040) &&& 6) ||| bitAt 0 s.fus.isSome ||| bitAt 3 (decide (tamperCount s = 512)))
  | 0x058 => some (perBank (bankLocked s))
  | 0x064 => some (at' 0 (tamperCount s))
  | _ => none
/-- Half of a counter's value as a register shows it: 0 during a reconcile (R321). -/
def ctrHalf (s : State) (c : Nat) (high : Bool) : Word :=
  if s.reconciling then 0 else BitVec.ofNat 32 (if high then counter s c / 2 ^ 32 else counter s c)
/-- The counter store page (R325). -/
def viewCst (s : State) (o : Nat) : Option Word :=
  if o = 0x040 then
    some (bitAt 0 s.reconciling ||| (rget s (reg .cst 0 0x040) &&& 0xFF00) ||| at' 16 (capped 8 s.ctrFailed.length))
  else if 0x400 ≤ o ∧ o < 0x800 then
    some (rget s (reg .cst 0 o) ||| bitAt 31 (s.ctrFailed.contains ((o - 0x400) / 4)))
  else if 0x800 ≤ o then some (ctrHalf s ((o - 0x800) / 8) (decide (o % 8 = 4)))
  else none
/-- The vault control page (R248). -/
def viewKv (s : State) (o : Nat) : Option Word :=
  let x := kslot s (rfld s (reg .kv 0 0x048) 8 0)
  match o with
  | 0x040 => some (at' 0 (s.kslots.filter fun (e : Nat × KSlot) => decide (e.2.st ≠ .empty)).length ||| bitAt 16 s.ladder |||
      bitAt 17 (rsAvail s) ||| bitAt 18 s.scrubDirty ||| bitAt 19 s.locked)
  | 0x044 => some (at' 0 (lifeCycle s).1 ||| at' 2 (lifeCycle s).2)
  | 0x04C => some (at' 0 (x.parent.getD 0) ||| bitAt 9 x.parent.isSome ||| at' 10 x.depth)
  | 0x050 => some (BitVec.ofNat 32 x.gen)
  | 0x054 => some (BitVec.ofNat 32 x.pgen)
  | _ => none
/-- The slot-status page (R249). -/
def viewKvSlot (s : State) (o : Nat) : Option Word :=
  if 0x800 ≤ o then
    let k := (o - 0x800) / 4
    let x := kslot s k
    some (at' 0 x.st.code ||| at' 2 (x.usage % 64) ||| at' 8 (x.ktype % 8) ||| at' 11 (x.ownerKind % 4) ||| at' 13 (x.owner % 128) |||
      bitAt 20 (decide (k < 8)) ||| bitAt 21 x.ownerKey)
  else none
/-- The attestation page (R249). -/
def viewAtu (s : State) (o : Nat) : Option Word :=
  let i := rfld s (reg .atu 0 0x044) 7 0
  if o = 0x048 then some (if i < 144 then BitVec.ofNat 32 (mcount s i) else 0)
  else if 0x080 ≤ o ∧ o < 0x0C0 then some (if i < 144 then wordAtLe (mval s i) ((o - 0x080) / 4) else 0)
  else none
/-- The service port page (R374). -/
def viewSvc (s : State) (o : Nat) : Option Word :=
  if o = 0x040 then some (at' 0 (svcContext s) ||| bitAt 2 s.svc.session |||
    bitAt 3 (!s.svc.stalled && (s.svc.queue.head?.any fun r => decide (0x40 ≤ r.type)))) else none
/-- The PCI page (R364). -/
def viewPci (s : State) (o : Nat) : Option Word :=
  let f := pciFn s 0
  let ats (lo : Nat) : Word := (List.range 32).foldl (fun w b => w ||| bitAt b (decide (lo + b ≤ s.part.vfs) && (pciFn s (lo + b)).ats)) 0
  match o with
  | 0x044 => some (bitAt 0 f.mem ||| bitAt 1 f.bme ||| bitAt 2 s.vfEnable ||| bitAt 3 s.ariCap ||| at' 4 (vfCount s) ||| bitAt 11 f.ats |||
      bitAt 12 f.pri ||| bitAt 13 f.d3)
  | 0x048 => some (ats 1)
  | 0x04C => some (ats 33)
  | _ => none
/-- The pairing page (R458). -/
def viewPair (s : State) (o : Nat) : Option Word :=
  let p := s.pair
  let busy (b : Bool) : Word := bitAt 0 b ||| (rget s (pairReg o) &&& 0xFFFF0000)
  if o = 0x040 then
    some (if !paired s then 0x0F else
      at' 0 (pairState s) ||| bitAt 8 (decide (p.claim ≠ 0)) ||| bitAt 9 p.fresh ||| bitAt 10 (driving s) ||| bitAt 11 (swapHold s) |||
      bitAt 12 (rbit s (pairReg 0x05C) 16) ||| bitAt 13 (decide (pairSide s = 2)) ||| at' 16 (p.peerNode % 64))
  else if o = 0x048 then some (at' 0 p.claim)
  else if o = 0x04C then some (at' 0 (peerClaim s))
  else if o = 0x050 then some (at' 0 (if p.claim = 0 then 0 else usLeft s .lease))
  else if o = 0x054 then some (at' 0 (usLeft s .holdoff))
  else if o = 0x138 then some (busy p.mtxBusy.isSome)
  else if o = 0x13C then
    some (at' 0 p.mrx.length ||| at' 8 (((p.mrx.head?).map (·.1)).getD 0) ||| at' 16 (((p.mrx.head?).map (·.2.length)).getD 0))
  else if o = 0x148 then
    some (at' 0 p.win.length ||| at' 8 (((p.win.head?).map (·.1)).getD 0) ||| at' 16 (((p.win.head?).map (·.2.length)).getD 0))
  else if o = 0x154 then some (busy p.woutBusy.isSome)
  else if 0x1C0 ≤ o ∧ o < 0x200 then
    some (match p.wbeats[(o - 0x1C0) / 4]? with
      | some (src, t) => at' 0 (src % 64) ||| at' 6 1 ||| at' 8 (capped 24 ((s.tbTime - t) / 100))
      | none => 0)
  else if 0x300 ≤ o ∧ o < 0x400 then some (wordAtLe (((p.mrx.head?).map (·.2)).getD []) ((o - 0x300) / 4))
  else if 0x500 ≤ o ∧ o < 0x608 then some (wordAtLe (((p.win.head?).map (·.2)).getD []) ((o - 0x500) / 4))
  else none
/-- The nodes of the ring in order from this node going E (R429). -/
def ringOrder (s : State) : List Nat :=
  match s.topo with
  | none => []
  | some t =>
    let ns := t.entries.map (·.1)
    let a := (position t (myNode s)).getD 0
    ns.drop a ++ ns.take a
/-- The Lomes pages (R428, R429). -/
def viewLms (s : State) (x o : Nat) : Option Word :=
  let v := side s x
  let st := match v.st with | .down => 0 | .training => 1 | .up => 2 | .silent => 3
  if o = 0x040 then
    some (at' 0 st ||| bitAt 2 v.wrapped ||| at' 4 (v.neighbour.getD 0 % 64) ||| bitAt 10 v.neighbour.isSome |||
      (rget s (sideReg x 0x040) &&& 0xFFFF0000))
  else if x ≠ 0 then none
  else if o = 0x080 then
    some (at' 0 (ringState s) ||| bitAt 3 (decide (myNode s = 0)) ||| (rget s (lms 0x080) &&& 0x30) |||
      at' 8 (((s.topo.map (·.entries.length)).getD 0) % 128) ||| at' 16 (topoSeq s))
  else if o = 0x088 then some (at' 0 s.incarnation)
  else if o = 0x090 then some (at' 0 s.evq.length ||| (rget s (lms 0x090) &&& 0xFFFF0000))
  else if o = 0x094 then
    some (match s.evq with | (src, n, _) :: _ => at' 0 src ||| at' 10 n | [] => 0)
  else if o = 0x098 then some (match s.evq with | (_, _, w) :: _ => w | [] => 0)
  else if o = 0x0B0 then
    some (match s.topo with
      | some t => at' 0 (t.entries.length % 128) ||| at' 8 (t.brk.getD 0 % 128) ||| bitAt 15 t.brk.isSome
      | none => 0)
  else if 0x200 ≤ o ∧ o < 0x300 then
    let n := (o - 0x200) / 4
    let w := rget s (lms o) &&& 0x00FFFDFF
    some (match hopsTo s n with
      | some (e, g) =>
        let d := routeSide s n
        if reachable s n then w ||| at' 9 1 ||| at' 24 ((if d = 1 then e else g) % 64) ||| at' 30 (1 - d) else w
      | none => w)
  else if 0x300 ≤ o ∧ o < 0x340 then
    let ns := ringOrder s
    some ((List.range 4).foldl (fun w b => w ||| at' (8 * b) (ns.getD (o - 0x300 + b) 0xFF)) 0)
  else none

/-- The state code of a job (R208). -/
def JobSt.code : JobSt → Nat
  | .queued => 1 | .running => 2 | .preempted => 3 | .faultFetch => 4 | .faultSave => 5 | .faultWrite => 6 | .squashing => 7
/-- The scheduler page (R217). -/
def viewCje (s : State) (o : Nat) : Option Word :=
  let j := job? s (rfld s (reg .cje 0 0x058) 9 0)
  match o with
  | 0x044 => some (at' 0 s.jobs.length ||| at' 16 (saveFree s))
  | 0x05C => some (match j with
      | some j => at' 0 j.st.code ||| at' 3 j.cls ||| at' 5 (j.last.1 % 4) ||| at' 7 (j.last.2 % 8) ||| at' 10 (j.sub.owner % 128) |||
          at' 17 (dType j.desc % 256)
      | none => 0)
  | 0x060 => some (match j with | some j => BitVec.ofNat 32 j.pos | none => 0)
  | _ => none
/-- A unit's STATUS register (R219): kind 0 hash lane, 1 curve unit, 2 AES-GCM unit.  Flash-path work on a lane is class 3 with tag 0. -/
def unitStatus (s : State) (k m : Nat) : Word :=
  let held := if k = 0 ∧ laneReserved s m then bitAt 2 true else 0
  if katFail s (katBit k m) then at' 0 3
  else if k = 0 ∧ s.flashLanes.contains m then at' 0 1 ||| held ||| at' 3 3
  else match unitJob s k m with
    | none => held
    | some (tag, j) => at' 0 (if dType j.desc = 0x30 then 2 else 1) ||| held ||| at' 3 j.cls ||| at' 5 tag
/-- The translation unit page (R402). -/
def viewItu (s : State) (o : Nat) : Option Word :=
  if o = 0x044 then some (at' 0 (s.prgs.length + s.prgStale.length)) else none
/-- Frames of a set that are VALID, and that are owned. -/
def frameCounts (s : State) (f : Nat → Bool) : Word :=
  let fs := s.frames.filter fun e => f e.1
  at' 0 (fs.filter fun (e : Nat × Frame) => decide (e.2.st = .valid)).length |||
    at' 16 (fs.filter fun (e : Nat × Frame) => e.2.owner.isSome).length
/-- The store control page (R163). -/
def viewVst (s : State) (o : Nat) : Option Word :=
  match o with
  | 0x044 => some (frameCounts s fun _ => true)
  | 0x058 =>
    let f := rfld s (reg .vst 0 0x054) 14 0
    let x := frame s f
    let st := match x.st with | .invalid => 0 | .filling => 1 | .valid => 2 | .error => 3
    some (if f ≥ s.part.frames then 0 else
      at' 0 st ||| bitAt 2 x.digest ||| bitAt 3 x.owner.isSome ||| at' 4 (x.owner.getD 0 % 16) ||| at' 8 (x.leaf % 2 ^ 20) |||
        at' 28 (x.image % 4))
  | 0x060 => some 0
  | _ => none
/-- A bank page (R164). -/
def viewVstBank (s : State) (k o : Nat) : Option Word :=
  if o = 0x040 then some (frameCounts s fun f => decide (f / s.part.framesPerBank = k)) else none
/-- The digest unit page (R165). -/
def viewDu (s : State) (o : Nat) : Option Word :=
  if o = 0x040 then
    some ((List.range s.part.ports).foldl (fun w n =>
      w ||| bitAt n (decide ((port s n).seq = .treeLoad)) ||| bitAt (16 + n) ((port s n).trees.any (·.loaded))) 0)
  else if 0x080 ≤ o ∧ o < 0x0C0 then
    let sel := rget s (reg .du 0 0x044)
    some (match treeOf (port s (fld sel 3 0)) (fld sel 5 4) with
      | some t => wordAtLe t.root ((o - 0x080) / 4)
      | none => 0)
  else if 0x100 ≤ o ∧ o < 0x200 ∧ o % 16 = 8 then
    some (at' 0 (port s ((o - 0x100) / 16)).blocks.length ||| (rget s (reg .du 0 o) &&& 0xFFFFFF00))
  else if 0x200 ≤ o ∧ o < 0x400 then
    let k := (o - 0x200) / 8
    some (match treeOf (port s (k / 4)) (k % 4) with
      | some t => if o % 8 = 0 then BitVec.ofNat 32 t.addr else at' 0 (t.leaves % 2 ^ 21) ||| bitAt 31 t.loaded
      | none => 0)
  else none
/-- A port control page (R104, R130). -/
def viewFgpCtl (s : State) (n o : Nat) : Option Word :=
  let p := port s n
  match o with
  | 0x048 => some (dummyEff (protoSet s n))
  | 0x068 => some (bitAt 0 (pinsLive s && p.prst) ||| bitAt 1 (pinsLive s && p.phold) ||| bitAt 2 p.preq ||| bitAt 3 (pinsLive s) |||
      bitAt 4 (driving s))
  | 0x06C => some ((rget s (reg .fgpCtl n 0x06C) &&& 0x1FF) ||| at' 16 p.mode.code ||| bitAt 19 p.addr4 ||| bitAt 20 p.wel |||
      bitAt 21 p.cs0Busy ||| bitAt 22 p.wrap.isSome ||| at' 23 (p.wrap.getD 0 % 4))
  | 0x080 => some (at' 0 p.st.code ||| at' 8 p.prev.code)
  | 0x098 => some (bitAt 0 p.sel ||| bitAt 1 p.inForce ||| at' 8 (capped 8 p.flips))
  | 0x0A0 => some ((rget s (reg .fgpCtl n 0x0A0) &&& 7) ||| bitAt 3 (wrInflight s n) ||| bitAt 4 p.st.deciding ||| bitAt 5 p.errInd)
  | _ => none
/-- A port mailbox page (R132). -/
def viewFgpMb (s : State) (n o : Nat) : Option Word :=
  let p := port s n
  if o = 0x040 then some (mbStatusWord p)
  else if o = 0x044 then some (mbInfoWord p)
  else if o = 0x048 then some p.mbDoor
  else if 0x100 ≤ o ∧ o < 0x200 then some (BitVec.ofNat 32 (leNat (memRead p.mbReq (o - 0x100) 4)))
  else if o = 0x300 then some ((rget s (reg .fgpMb n 0x300) &&& 0x30000) ||| at' 0 p.blocks.length)
  else none
/-- The state code of an instance (R378). -/
def InstSt.code : InstSt → Nat
  | .none => 0 | .active => 1 | .resetting => 2 | .freezing => 3 | .frozen => 4 | .awaitRestore => 5 | .saved => 6
/-- An instance page (R218, R401). -/
def viewInst (s : State) (i o : Nat) : Option Word :=
  let mine := s.jobs.filter fun (e : Nat × Job) => decide (e.2.sub = .inst i)
  let val (high : Bool) : Word :=
    let k := rfld s (instReg i 0x0C0) 5 0
    let w := rget s (instReg i 0x094)
    if k < fld w 14 8 ∧ pageOn s .cst 0 then ctrHalf s (fld w 7 0 + k) high else 0
  match o with
  | 0x064 => some (at' 0 mine.length ||| at' 11 (mine.filter fun (e : Nat × Job) => e.2.parked).length |||
      (rget s (instReg i 0x064) &&& 0x00400000))
  | 0x080 => some (at' 0 (inst s i).st.code ||| at' 8 ((inst s i).gen % 256) ||| at' 16 (capped 10 (remoteItems s i)))
  | 0x0AC => some ((rget s (instReg i 0x0AC) &&& 0xFF00) ||| at' 16 (s.prgs.filter fun p => decide (p.inst = i)).length)
  | 0x0C4 => some (val false)
  | 0x0C8 => some (val true)
  | _ => none

/-- The task watchdog page: frozen while timebase loss or a debug halt stops the count (R351, R353). -/
def viewTwd (s : State) (o : Nat) : Option Word :=
  if o = 0x040 then some (setFld (rget s (twdReg 0x040)) 8 8 (b2n (rbit s (twdReg 0x040) 8 || (s.tbLoss && twdOn s)))) else none
/-- The computed registers of copy `i` of a page. -/
def view (s : State) (k : PageKind) (i o : Nat) : Option Word :=
  match k with
  | .cap => viewCap s o
  | .tb => viewTb s o
  | .pwr => viewPwr s o
  | .evh => viewEvh s o
  | .bwd => if o = 0x044 then some (at' 0 (usLeft s .bwd)) else none
  | .twd => viewTwd s o
  | .tem => viewTem s o
  | .fus => viewFus s o
  | .cst => viewCst s o
  | .kv => viewKv s o
  | .kvSlot => viewKvSlot s o
  | .atu => viewAtu s o
  | .svc => viewSvc s o
  | .pci => viewPci s o
  | .pair => viewPair s o
  | .lms => viewLms s i o
  | .cje => viewCje s o
  | .itu => viewItu s o
  | .vst => viewVst s o
  | .du => viewDu s o
  | .vstBank => viewVstBank s i o
  | .lane => if o = 0x044 then some (unitStatus s 0 i) else none
  | .curve => if o = 0x044 then some (unitStatus s 1 i) else none
  | .aes => if o = 0x044 then some (unitStatus s 2 i) else none
  | .fgpCtl => viewFgpCtl s i o
  | .fgpMb => viewFgpMb s i o
  | .inst => viewInst s i o
  | _ => none

/-! ### The header and the read of an offset -/

/-- The header of a page that answers (R64, R65). -/
def headerReg (s : State) (k : PageKind) (i o : Nat) : Word :=
  let at0 := rget s (reg k i o)
  match o with
  | 0x000 => pageId k i
  | 0x004 => 0x80000000
  | 0x008 => bitAt 0 (rbit s (reg k i 0x01C) 0) ||| bitAt 1 (rbit s (reg k i 0x020) 31) ||| bitAt 2 s.locked
  | 0x010 => at0 &&& irqMask k i
  | 0x014 => at0 &&& irqMask k i
  | 0x01C => at0 &&& 1
  | 0x020 => at0
  | _ => 0

/-- The bits of a row that can be read. -/
def rowReadable (r : RegRow) : Word := r.ro ||| r.rw ||| r.rwl ||| r.rwo ||| r.w1c ||| r.w1s

/-- What a register of a page that answers shows. -/
def shown (s : State) (k : PageKind) (i o : Nat) : Word :=
  if o < 0x040 then headerReg s k i o
  else match rowAt k i o with
    | none => 0
    | some r => rowReadable r &&& (view s k i o).getD (rget s (reg k i o))

/-- What an aligned word read of a register-space offset returns, rights apart (R15, R69, R70). -/
def readReg (s : State) (off : Nat) : Word :=
  match pageOf off with
  | .page k i =>
    if !pagePresent s.part k i then 0
    else if !pageUp s k i then (if off % 4096 = 0 then pageId k i else 0)
    else shown s k i (off % 4096)
  | _ => 0

end Sys2Proof.Machine
end

