-- ==== Sys2Proof/Machine/Bus.lean ====
section
/-! DEFINITION. Machine/Bus.lean: register accesses: rights (R73), causes (R79, R80), access codes (R16), the page header (R64 to R66), and
the page each write goes to. -/
namespace Sys2Proof.Machine

/-! ### Where each master sees the register space (R63) -/

/-- The windows onto the register space: a core's or the debug module's address space, PF BAR0, and BAR0 of VF `n`. -/
inductive Window
  | core
  | pf
  | vf (n : Nat)
  deriving DecidableEq, Repr

/-- The register-space offset that an address of a window reaches, none outside the window (R63). -/
def windowOffset (p : Part) : Window → Nat → Option Nat
  | .core, a => if 0x40000000 ≤ a ∧ a < 0x41000000 then some (a - 0x40000000) else none
  | .pf, a => if a < 0x1000000 then some a else none
  | .vf n, a =>
    if n = 0 ∨ p.vfs < n ∨ 0x2000 ≤ a then none
    else some (reg (if a < 0x1000 then .inst else .doorbell) n (a % 0x1000))

/-! ### Masters (R73, R76) -/

/-- A core in machine mode, or the debug module with system bus access open (R73, R264). -/
def machineMode (s : State) (a : Acc) : Bool :=
  (decide (a.master.toNat ≤ 3) && a.priv) || (decide (a.master.toNat = 4) && debugOpen s 3)
/-- Sage in machine mode, or the debug module in its place. -/
def sageMode (s : State) (a : Acc) : Bool :=
  (decide (a.master.toNat = 0) && a.priv) || (decide (a.master.toNat = 4) && debugOpen s 3)
/-- The PF, or a remote access in its place. -/
def pfMode (a : Acc) : Bool :=
  decide (a.master.toNat = 0x10) || (decide (0x80 ≤ a.master.toNat) && decide (a.master.toNat ≤ 0xBF))
/-- The VF of a master ID, 0 for none. -/
def vfOf (a : Acc) : Nat := if 0x11 ≤ a.master.toNat ∧ a.master.toNat ≤ 0x50 then a.master.toNat - 0x10 else 0

/-- A VF's own two pages. -/
def vfPage (a : Acc) (p : PageAt) : Bool :=
  match p with
  | .page .inst i => decide (vfOf a ≠ 0) && decide (i = vfOf a)
  | .page .doorbell i => decide (vfOf a ≠ 0) && decide (i = vfOf a)
  | _ => false
/-- The master may read the page (R73). -/
def mayRead (s : State) (a : Acc) (p : PageAt) : Bool := machineMode s a || pfMode a || vfPage a p
/-- The master may write page offset `o` of the page, by the table of R73. -/
def mayWrite (s : State) (a : Acc) (p : PageAt) (o : Nat) : Bool :=
  if sageMode s a then true
  else if machineMode s a then
    (match p with | .page .fus _ => false | .page .cap _ => false | .page .rom _ => false | _ => true)
  else if pfMode a then
    (match p with
     | .page .inst _ => true | .page .doorbell i => decide (i = 0) | .page .lms _ => true | .aperture => true | _ => false)
  else vfPage a p && o ≠ 0x018 && o ≠ 0x01C

/-- The writers R401 gives a register of an instance page: 0 any, 1 F, 2 M, 3 I. -/
def instWriter (o : Nat) : Nat :=
  if o ∈ [0x084, 0x08C, 0x090, 0x094, 0x428, 0x42C] ∨ (0x140 ≤ o ∧ o < 0x198) ∨ 0xC00 ≤ o then 1
  else if o ∈ [0x098, 0x0A0, 0x0A4, 0x0A8, 0x400, 0x404, 0x408, 0x410, 0x420] ∨ 0x800 ≤ o then 2
  else if o ∈ [0x0B0, 0x0B4, 0x0B8, 0x0C0] then 3
  else 0
/-- The limits inside a page: whether the master may write the register at `o` of copy `i` (R193, R325, R336, R346, R374, R401, R458,
R470, R488). -/
def mayWriteReg (s : State) (a : Acc) (k : PageKind) (i o : Nat) : Bool :=
  let only (m : Nat) : Bool := decide (a.master.toNat = m)
  match k with
  | .cje => if 0x080 ≤ o ∧ o < 0x100 then only ((o - 0x080) / 32) else true
  | .cst => if 0x080 ≤ o ∧ o < 0x0C0 then only ((o - 0x080) / 16) else true
  | .evh => if 0x060 ≤ o ∧ o < 0x0A0 ∧ o % 16 = 0 then only ((o - 0x060) / 16) else true
  | .tem => if o = 0x058 then only 0 else true
  | .twd => if o ∈ [0x044, 0x048, 0x04C] ∨ (0x080 ≤ o ∧ o < 0x100) then only 0 && a.priv else true
  | .svc => if o = 0x044 then only 0 else true
  | .pair => if 0x080 ≤ o ∧ o < 0x0A0 then only 0 else true
  | .pwr => if o ∈ [0x044, 0x04C, 0x050] then only 0 else true
  | .inst =>
    if 0x040 ≤ o ∧ o < 0x080 then machineMode s a || pfMode a
    else match instWriter o with
      | 1 => machineMode s a
      | 2 => machineMode s a || pfMode a
      | 3 => only (0x10 + i)
      | _ => true
  | _ => true

/-! ### The event hub's writes (R463, R471, R472) -/

/-- The unit of a source is absent on the part (R461). -/
def sourceAbsent (p : Part) (src : Nat) : Bool :=
  if src = 16 then !p.hasPair
  else if src < 26 then false
  else if src < 30 then decide (p.banks ≤ src - 26)
  else if src < 38 then decide (p.lanes ≤ src - 30)
  else if src < 42 then decide (p.curves ≤ src - 38)
  else if src < 44 then decide (p.aes ≤ src - 42)
  else if src < 316 then decide (p.ports ≤ (src - 44) / 17)
  else decide (p.vfs < (src - 316) / 4)
/-- EVH_ROUTE_WRITE (R463, R471, R472): a route entry of page `t`. -/
def routeWrite (t : Nat) (s : State) (c : WCtx) : State :=
  let src := 192 * t + (c.off % 4096 - 0x100) / 4
  if c.locked then s
  else if sourceAbsent s.part src then refuseW s .evhRoute t 0x0401 c
  else if vfSource src then
    let s := storeW s { c with new := c.new &&& 0xFFFF80FF }
    if c.new &&& 0x7F00 = 0 then s else refuseW s .evhRoute t 0x0402 c
  else storeW s c

/-- A write of the hub page (R465, R470): the vectors whose OR is 1 are sent again at a new interval from its write on (assumption log
120). -/
def evhWrite (s : State) (c : WCtx) : State :=
  let s := storeW s c
  let again := rfld s (reg .evh 0 0x040) 15 0
  if c.off % 4096 ≠ 0x040 ∨ fld c.new 15 0 = fld c.old 15 0 then s
  else s.vecs.foldl (fun s v => if again = 0 then tstop s (.resend v) else tset s (.resend v) (us again + 1)) s

/-! ### A write reaches its page -/

/-- BOOT_BERR_CTRL (R79). -/
def capWrite (s : State) (c : WCtx) : State :=
  if c.off = reg .cap 0 0x084 then (if bit c.data 0 then rset s (reg .cap 0 0x080) 0 else s) else storeW s c

/-- The write at its page. -/
def pageWrite (inp : BusIn) (k : PageKind) (i : Nat) (s : State) (c : WCtx) : State :=
  match k with
  | .cap => capWrite s c
  | .rom => bootWrite inp s c
  | .tb => tbWrite s c
  | .pwr => pwrWrite s c
  | .evh => evhWrite s c
  | .evhRoute => routeWrite i s c
  | .bwd => bwdWrite s c
  | .twd => twdWrite s c
  | .tem => temWrite s c
  | .fus => fusWrite s c
  | .cst => cstWrite s c
  | .svc => svcWrite s c
  | .i3c => i3cWrite s c
  | .pci => pciWrite s c
  | .pair => pairWrite s c
  | .lms => lmsWrite i inp.blob s c
  | .cje => cjeWrite c s
  | .vst => vstWrite c s
  | .du => duWrite c s
  | .lane => laneWrite i c s
  | .fgpCtl => fgpCtlWrite i c s
  | .fgpWin => fgpWinWrite i c s
  | .fgpMb => fgpMbWrite i c s
  | .inst => instWrite i inp s c
  | .doorbell => doorbellWrite i c s
  | _ => storeW s c

/-- The bits of a header register whose writes are ignored and, where they differ, recorded (R65, R16); a reserved bit beside other
fields is ignored and not recorded (DEDUCED, assumption log 122). -/
def headerRo : Nat → Word
  | 0x000 => 0xFFFFFFFF
  | 0x004 => 0xFFFFFFFF
  | 0x008 => 0xFFFF0007
  | 0x020 => 0x7FFFFFFF
  | _ => 0
/-- A write to the header of a page that answers (R65, R66). -/
def headerWrite (s : State) (k : PageKind) (i o : Nat) (data : Word) : State :=
  let a := reg k i o
  let st := reg k i 0x010
  match o with
  | 0x010 => rset s a (rget s a &&& ~~~ data)
  | 0x014 => rset s a (data &&& irqMask k i)
  | 0x018 => rset s st (rget s st ||| (data &&& irqMask k i))
  | 0x01C => if bit data 0 then rset s a 1 else s
  | 0x020 => if bit data 31 then rset s a 0 else s
  | _ => s

/-- Whether a page offset is reserved (R15, R64): no register of the header or of the page; PAGE_CTRL has no field in any block. -/
def reservedOff (k : PageKind) (i o : Nat) : Bool :=
  if o < 0x040 then decide (o = 0x00C) || decide (0x024 ≤ o) else (rowAt k i o).isNone

/-- What a register takes from a write by its access codes (R16). -/
def newWord (r : RegRow) (st data : Word) (locked used : Bool) : Word :=
  let m := r.rw ||| (if locked then 0 else r.rwl) ||| (if used then 0 else r.rwo)
  (((st &&& ~~~ m) ||| (data &&& m)) &&& ~~~ (data &&& r.w1c)) ||| (data &&& r.w1s)

/-- The register at page offset `o` has an RWO field that has been written (R16). -/
def writtenOnce (s : State) (k : PageKind) (i o : Nat) : Bool := Tbl.get (fun _ => false) s.rwoUsed (reg k i o)
/-- The bits of a register whose ignored write is recorded with cause 5 where it differs (R16, R65, assumption log 122). -/
def ignoredBits (s : State) (k : PageKind) (i o : Nat) : Word :=
  if o < 0x040 then headerRo o
  else match rowAt k i o with
    | none => 0
    | some r => r.ro ||| (if pageLocked s k i then r.rwl else 0) ||| (if writtenOnce s k i o then r.rwo else 0)
/-- The word that the register takes from a write of `w` by its access codes (R16). -/
def takenWord (s : State) (k : PageKind) (i o : Nat) (w : Word) : Word :=
  match rowAt k i o with
  | none => 0
  | some r => newWord r (rget s (reg k i o)) w (pageLocked s k i) (writtenOnce s k i o)
/-- A register with an RWO field is marked as written. -/
def markOnce (r : RegRow) (off : Nat) (s : State) : State :=
  if r.rwo = 0 then s else { s with rwoUsed := Tbl.set (fun _ => false) s.rwoUsed off true }

/-- A word write that its master may make reaches a page that answers: cause 5 where a field that ignores it differs from the value
written (R16). -/
def writeOn (s : State) (a : Acc) (inp : BusIn) (k : PageKind) (i o : Nat) (data : Word) : State :=
  let off := reg k i o
  let t := if (data ^^^ shown s k i o) &&& ignoredBits s k i o = 0 then s else busLog s a true off 4 data .readOnly
  if o < 0x040 then headerWrite t k i o data
  else match rowAt k i o with
    | none => s
    | some r =>
      if rowReadable r &&& ~~~ r.ro ||| r.wo = 0 then t
      else
        markOnce r off (pageWrite inp k i t ⟨a, off, data, shown s k i o, takenWord s k i o data, pageLocked s k i⟩)

/-- The lowest cause of an access that its page does not serve (R79, R80). -/
def writeCause (s : State) (a : Acc) (off size : Nat) : Option Cause :=
  let o := off % 4096 / 4 * 4
  let wrong := decide (size ≠ 4) || decide (off % 4 ≠ 0)
  match pageOf off with
  | .aperture => if wrong then some .size else if mayWrite s a .aperture o then none else some .rights
  | .reserved => some .reserved
  | .page k i =>
    if !pagePresent s.part k i then some .absent
    else if !pageUp s k i then some .off
    else if reservedOff k i o then some .reserved
    else if wrong then some .size
    else if !mayWrite s a (.page k i) o || !mayWriteReg s a k i o then some .rights
    else none
/-- The same for a read: a page of an absent or powered-off unit and a reserved offset leave no record. -/
def readCause (s : State) (a : Acc) (off size : Nat) : Option Cause :=
  let wrong := decide (size ≠ 4) || decide (off % 4 ≠ 0)
  match pageOf off with
  | .reserved => some .reserved
  | p => if wrong then some .size else if mayRead s a p then none else some .rights

/-- Stores of cores to core SRAM, boot SRAM or a Dill image memory that precede the access (R270, R296, R522). -/
def coreStore (s : State) (st : Nat × Bytes) : State :=
  if st.1 ≥ 0x24000000 then
    (if !s.bootLock ∧ st.1 - 0x24000000 + st.2.length ≤ 0x400000 then
      { s with bootSram := memWrite s.bootSram (st.1 - 0x24000000) st.2 } else s)
  else sramWrite s st.1 st.2
/-- All stores that precede the access. -/
def coreStores (s : State) (inp : BusIn) : State := inp.dill.foldl dillStore (inp.sram.foldl coreStore s)

/-- An access of the PF or a VF wakes the device (R485). -/
def wakeByHost (s : State) (a : Acc) : State :=
  if pwrState s ≠ 0 ∧ (a.master = 0x10 ∨ vfOf a ≠ 0) then wakeFor s 2 else s

/-- The access is a core's, and a reset has halted the cores (R253 step 1). -/
def silent (s : State) (a : Acc) : Bool := decide (a.master.toNat ≤ 3) && coresHalted s
/-- A write access (R14 to R16, R69, R70, R73, R79, R80). -/
def busWrite (a : Acc) (off size : Nat) (data : Word) (inp : BusIn) (s : State) : State :=
  if silent s a ∨ off ≥ 0x1000000 then s else
  let s := wakeByHost (coreStores s inp) a
  match writeCause s a off size with
  | some c =>
    let s := busLog s a true off size data c
    (match pageOf off with
     | .page k _ => if c = .rights then wdRefused s k a (off % 4096) data else s
     | _ => s)
  | none =>
    match pageOf off with
    | .page k i =>
      if k = .twd ∧ s.tbLoss then { s with twdLate := s.twdLate ++ [(a, off, data)] }
      else writeOn s a inp k i (off % 4096) data
    | .aperture => apertureAccess s a true (off - 0xC00000) data
    | .reserved => s

/-- What a read does at its page beside answering (R59, R163): the word it returns. -/
def readOn (s : State) (k : PageKind) (i o : Nat) (ecc : EccRes) : State × Word :=
  if k = .tb ∧ o = 0x044 then (rset s (tbReg 0x048) (BitVec.ofNat 32 (s.tbTime / 2 ^ 32)), shown s k i o)
  else if k = .vst ∧ o = 0x060 then vstDiag s ecc
  else (s, shown s k i o)
/-- A read access: the word it returns, none where the answer comes later or has been given (the remote aperture). -/
def busReadWord (a : Acc) (off size : Nat) (ecc : EccRes) (s : State) : State × Option Word :=
  if silent s a ∨ off ≥ 0x1000000 then (s, none) else
  let s := wakeByHost s a
  match readCause s a off size with
  | some c => (busLog s a false off size 0 c, some 0)
  | none =>
    match pageOf off with
    | .page k i =>
      if pagePresent s.part k i && pageUp s k i then
        let (s, w) := readOn s k i (off % 4096) ecc
        (s, some w)
      else (s, some (readReg s off))
    | .aperture => (apertureAccess s a false (off - 0xC00000) 0, none)
    | .reserved => (s, some 0)
/-- A read access whose answer goes back to its master. -/
def busRead (a : Acc) (off size : Nat) (ecc : EccRes) (s : State) : State :=
  match busReadWord a off size ecc s with
  | (s, some w) => emit s (.bus a.master off w)
  | (s, none) => s

/-- TIMEBASE_RETURN (R54): what waited for it happens; task-watchdog writes that arrived meanwhile take effect (R351). -/
def execTimebaseReturn (s : State) : Host.Outcome State Fault Refusal :=
  done (
    if !s.tbLoss then s else
    let s := irq { s with tbLoss := false, tbLocked := true } .tb 0 1
    let s := if temUp s then sample s 0x41 false else s
    let s := grantResume (svcResume (bfResume s))
    s.twdLate.foldl (fun s w => writeOn s w.1 {} .twd 0 (w.2.1 % 4096) w.2.2) { s with twdLate := [] })

end Sys2Proof.Machine
end

