-- ==== Sys2Proof/Machine/LmsRx.lean ====
section
/-! DEFINITION. Machine/LmsRx.lean: frames of the ring as they arrive: forwarding, reliable delivery at the receiver, and what each
type does at the node it is addressed to (R408 to R412, R418 to R424, R449, R453). -/
namespace Sys2Proof.Machine

/-! ### The form of a frame (R407, R408) -/

/-- The bytes from `o` up to but not including `e` are 0. -/
def zeroAt (p : Bytes) (o e : Nat) : Bool := allZero (sliceZ p o (e - o))
/-- The payload has the length and the fixed fields of its type. -/
def payloadOk (t : Nat) (p : Bytes) : Bool :=
  let n := p.length
  let words := fieldLe p 4 1
  match t with
  | 0x01 => decide (n = 6)
  | 0x02 => decide (n = 3 + 3 * fieldLe p 2 1)
  | 0x03 => decide (n = 5 + 3 * fieldLe p 3 1)
  | 0x04 => decide (n = 4)
  | 0x05 => decide (n = 4) && decide (fieldLe p 0 1 < 2) && decide (fieldLe p 1 1 < 2) && zeroAt p 3 4
  | 0x06 => decide (n = 0)
  | 0x10 => decide (n = 5) && decide (1 ≤ words) && decide (words ≤ 64)
  | 0x11 => decide (n = 8 + 4 * words) && decide (1 ≤ words) && decide (words ≤ 64) && zeroAt p 5 8
  | 0x12 => decide (4 ≤ n) && decide (n % 4 = 0) && zeroAt p 2 4
  | 0x20 => decide (n = 12) && zeroAt p 2 4
  | 0x30 => decide (n = 68)
  | 0x31 => decide (n = 10) && decide (fieldLe p 3 1 < 2) && decide (1 ≤ fieldLe p 8 2) && decide (fieldLe p 8 2 ≤ 256)
  | 0x32 => decide (4 ≤ n)
  | 0x33 => decide (9 ≤ n) && zeroAt p 3 4
  | 0x34 => decide (n = 20) && zeroAt p 3 4
  | 0x35 => decide (n = 6) && zeroAt p 3 4
  | 0x36 => decide (n = 3)
  | 0x40 => decide (8 ≤ n)
  | 0x41 => decide (n = 8)
  | 0x42 => decide (n = 4)
  | 0x50 => decide (1 ≤ n)
  | 0x51 => decide (n = 8) && zeroAt p 2 4
  | _ => false
/-- The frame is of a type of R408 and well formed. -/
def frameOk (f : Frame17) : Bool :=
  payloadOk f.type f.payload && decide (f.payload.length ≤ 264) && decide (f.flags < 16) && decide (f.hops < 128) &&
  (f.flags.testBit 0 == reliable f.type)

/-- A frame discarded under R408 on lane `x`. -/
def discardFrame (s : State) (x : Nat) : State := report (rcount s (sideReg x 0x048) 31 16 1) .lms x 0x1401 0 3

/-! ### Answers (R411) -/

/-- An answer to request `f` of a node, stored until it is acknowledged. -/
def answerFrame (s : State) (f : Frame17) (type : Nat) (payload : Bytes) : State :=
  let p := peer s f.src
  let q := (p.txSeq + p.queue.length) % 65536
  sendFrame (setPeer s f.src { p with replies := p.replies ++ [(f.seq, q)] }) f.src type payload
/-- The stored answer to a request that is repeated. -/
def answerAgain (s : State) (f : Frame17) : State :=
  let p := peer s f.src
  match p.replies.find? fun r => decide (r.1 = f.seq) with
  | none => s
  | some r =>
    match p.unacked.find? fun u => decide (u.1.seq = r.2) with
    | some (u, _) => transmit s (routeSide s f.src) { u with ack := p.rxNext, dstInc := p.inc }
    | none => s

/-! ### Remote register access at the target and the requester (R418, R419, R424) -/

/-- The master of a remote access (R419). -/
def remoteAcc (n : Nat) : Acc := ⟨BitVec.ofNat 8 (0x80 + n), false⟩
/-- A REG_RD: `k` words read in turn. -/
def readWords (n off : Nat) : Nat → State → State × Bytes
  | 0, s => (s, [])
  | k + 1, s =>
    let (s, w) := busReadWord (remoteAcc n) off 4 .clean s
    let (s, rest) := readWords n (off + 4) k s
    (s, leBytes 4 (w.getD 0).toNat ++ rest)
/-- A REG_RD at its target. -/
def regRdIn (s : State) (f : Frame17) : State :=
  let off := fieldLe f.payload 0 3
  let k := fieldLe f.payload 4 1
  if off + 4 * k > 0xC00000 then answerFrame s f 0x12 (leBytes 2 0x1404 ++ [0, 0])
  else
    let (s, d) := readWords f.src off k s
    answerFrame s f 0x12 (zeros 4 ++ d)
/-- A REG_WR at its target. -/
def regWrIn (s : State) (f : Frame17) (inp : BusIn) : State :=
  let off := fieldLe f.payload 0 3
  let k := fieldLe f.payload 4 1
  if off + 4 * k > 0xC00000 then answerFrame s f 0x12 (leBytes 2 0x1404 ++ [0, 0])
  else
    let s := (List.range k).foldl (fun s i =>
      busWrite (remoteAcc f.src) (off + 4 * i) 4 (wordAtLe (f.payload.drop 8) i) inp s) s
    answerFrame s f 0x12 (zeros 4)

/-- An item of an earlier transfer of instance `i` is discarded and counted (R392). -/
def staleItem (s : State) (i : Nat) : State := rcount s (instReg i 0x0AC) 15 8 1
/-- A REG_RSP completes the oldest access that waits for node `f.src` (R418, R424). -/
def regRspIn (s : State) (f : Frame17) : State :=
  let status := fieldLe f.payload 0 2
  let data := f.payload.drop 4
  match s.raReqs.find? fun r => decide (r.node = f.src) with
  | none => s
  | some r =>
    let s := { s with raReqs := s.raReqs.eraseP fun r => decide (r.node = f.src) }
    match r.bulk with
    | some (c, g) =>
      (match bulk s c with
       | some b =>
         if b.gen ≠ g ∨ (inst s 0).gen ≠ g then staleItem s 0
         else if status ≠ 0 then bulkEnd s c status
         else
           let d := sliceZ data 0 (4 * r.words)
           bulkMoved (emit s (.host 0 (b.haddr + rfld s (lms (0x0D8 + 32 * c)) 22 0) d)) c d.length
       | none => staleItem s 0)
    | none =>
      if status ≠ 0 then raFail s r status
      else if r.write then s
      else emit s (.bus r.master r.off (wordAtLe data 0))

/-! ### Remote jobs (R392, R422, R423) -/

/-- At the executing node: the next part of the job's inputs is asked for. -/
def nextBufRd (s : State) (tag : Nat) : State :=
  match job? s tag with
  | none => s
  | some j =>
    match j.sub with
    | .remote node home _ gen =>
      let ask (buf have_ all : Nat) : State :=
        sendFrame s node 0x31 (leBytes 2 home ++ leBytes 1 gen ++ leBytes 1 buf ++ leBytes 4 have_ ++ leBytes 2 (min 256 (all - have_)))
      if j.rsrc.length < dSrcLen j.desc then ask 0 j.rsrc.length (dSrcLen j.desc)
      else if j.raux.length < auxLen j.desc then ask 1 j.raux.length (auxLen j.desc)
      else s
    | _ => s
/-- The tag of the job that home node `node` calls `home`. -/
def remoteTag (s : State) (node home : Nat) : Option Nat :=
  (s.jobs.find? fun e => match e.2.sub with | .remote n h _ _ => decide (n = node) && decide (h = home) | _ => false).map (·.1)
/-- A JOB_REQ at the executing node: accepted with tag `want` where that is free, else the lowest free one; or refused, in the hardware
phase of a reset too. -/
def jobReqIn (s : State) (f : Frame17) (want : Nat) : State :=
  let p := f.payload
  let home := fieldLe p 0 2
  let gen := fieldLe p 3 1
  let sub : Sub := .remote f.src home (fieldLe p 2 1) gen
  let free (t : Nat) : Bool := decide (t < 1024) && (job? s t).isNone
  let tag := if free want then some want else (List.range 1024).find? free
  match tag with
  | some t =>
    if !rbit s (lms 0x084) 12 ∨ !quotaLeft s sub ∨ s.hw.isSome then sendFrame s f.src 0x35 (leBytes 2 home ++ leBytes 1 gen ++ [0] ++ leBytes 2 0x1405)
    else nextBufRd (newJob s t sub gen (p.drop 4)) t
  | none => sendFrame s f.src 0x35 (leBytes 2 home ++ leBytes 1 gen ++ [0] ++ leBytes 2 0x1405)
/-- A BUF_DATA at the executing node. -/
def bufDataIn (s : State) (f : Frame17) : State :=
  match remoteTag s f.src (fieldLe f.payload 0 2) with
  | none => s
  | some t =>
    match job? s t with
    | none => s
    | some j =>
      let d := f.payload.drop 4
      if fieldLe f.payload 2 2 ≠ 0 then squash s t
      else if j.rsrc.length < dSrcLen j.desc then nextBufRd (setJob s t { j with rsrc := j.rsrc ++ d }) t
      else if j.raux.length < auxLen j.desc then nextBufRd (setJob s t { j with raux := j.raux ++ d }) t
      else s
/-- A JOB_CANCEL at the executing node. -/
def jobCancelIn (s : State) (f : Frame17) : State :=
  match remoteTag s f.src (fieldLe f.payload 0 2) with
  | none => s
  | some t =>
    match job? s t with
    | some j =>
      (match j.sub with
       | .remote _ _ _ g => if g = fieldLe f.payload 2 1 then squash s t else s
       | _ => s)
    | none => s

/-- At the home node: the forwarded job an item of node `f.src` is accepted for (R392). -/
def homeJob (s : State) (f : Frame17) : Option (Nat × Job × Nat) :=
  let tag := fieldLe f.payload 0 2
  match job? s tag with
  | some j =>
    (match j.sub with
     | .inst i =>
       if j.fwd = some f.src ∧ f.dstInc = s.incarnation ∧ j.gen = fieldLe f.payload 2 1 ∧ (inst s i).gen = j.gen then some (tag, j, i)
       else none
     | _ => none)
  | none => none
/-- The instance to which an item that is not accepted is charged: the one the tag was last forwarded for. -/
def staleFor (s : State) (f : Frame17) : State :=
  match s.issued.find? fun e => decide (e.2.2.2 = fieldLe f.payload 0 2) with
  | some e => staleItem s e.1
  | none => s
/-- A forwarded job ends at home. -/
def homeEnds (s : State) (tag : Nat) (j : Job) (x : JobRes) (ws : List Walk) : State :=
  finish (tstop (setJob s tag { j with fwd := none }) (.remJob tag)) tag x ws
/-- The code with which a page access of a forwarded job ends it: an invalidated translation is 0x0D06 (R394). -/
def remoteCode : TrRes → Nat | .err code => code | _ => 0x0D06
/-- A BUF_RD at the home node; `mem` is what host memory holds there. -/
def bufRdIn (s : State) (f : Frame17) (ws : List Walk) (mem : Bytes) : State :=
  match homeJob s f with
  | none => staleFor s f
  | some (tag, j, i) =>
    let aux := decide (fieldLe f.payload 3 1 = 1)
    let off := fieldLe f.payload 4 4
    let n := fieldLe f.payload 8 2
    let base := if aux then dAux j.desc else dSrc j.desc
    let all := if aux then dAuxLen j.desc else dSrcLen j.desc
    if off + n > all then answerFrame s f 0x32 (leBytes 2 tag ++ leBytes 2 0x0D01)
    else
      match translateAll s i 1 false tag j.gen (pieces (base + off) n) ws with
      | (s, _, _, none) => answerFrame s f 0x32 (leBytes 2 tag ++ zeros 2 ++ sliceZ mem 0 n)
      | (s, _, ws, some r) =>
        let s := answerFrame s f 0x32 (leBytes 2 tag ++ leBytes 2 (remoteCode r))
        match job? s tag with
        | some j => homeEnds s tag j { status := remoteCode r } ws
        | none => s
/-- A BUF_WR at the home node: it writes the job's output, at dst or, for the midstate of a HASH, at aux (R198, R422, assumption log
115). -/
def bufWrIn (s : State) (f : Frame17) (ws : List Walk) : State :=
  match homeJob s f with
  | none => staleFor s f
  | some (tag, j, i) =>
    let off := fieldLe f.payload 4 4
    let d := f.payload.drop 8
    let (dst, room) := outAt j.desc
    if off + d.length > room then staleItem s i
    else
      let (s, hs, ws, stop) := translateAll s i 3 true tag j.gen (pieces (dst + off) d.length) ws
      let (s, _) := hs.foldl (fun (p : State × Nat) h => (emit p.1 (.host i h.1 ((d.drop p.2).take h.2)), p.2 + h.2)) (s, 0)
      match stop with
      | none => s
      | some r => homeEnds s tag j { status := remoteCode r } ws
/-- A JOB_DONE at the home node. -/
def jobDoneIn (s : State) (f : Frame17) (ws : List Walk) : State :=
  match homeJob s f with
  | none => staleFor s f
  | some (tag, j, _) =>
    let p := f.payload
    let flags := fieldLe p 7 1
    homeEnds s tag { j with approved := flags.testBit 1, faulted := j.faulted || flags.testBit 2, preempted := j.preempted || flags.testBit 3 }
      { status := fieldLe p 4 2, outLen := fieldLe p 8 4, result := fieldLe p 12 8 } ws
/-- A JOB_ABORT at the home node. -/
def jobAbortIn (s : State) (f : Frame17) (ws : List Walk) : State :=
  match homeJob s f with
  | none => staleFor s f
  | some (tag, j, _) => homeEnds s tag j { status := fieldLe f.payload 4 2, ran := false } ws

/-! ### Pushes over the ring (R295, R296, R424) -/

/-- The target takes pushes over the ring. -/
def lmsPushOk (s : State) : Bool := mayPush s 2 && rbit s (lms 0x084) 13
/-- A PUSH_DATA at its target. -/
def pushDataIn (s : State) (f : Frame17) : State :=
  let off := fieldLe f.payload 0 4
  let d := f.payload.drop 4
  if !lmsPushOk s ∨ off + d.length > 0x400000 then answerFrame s f 0x42 (leBytes 2 0x1407 ++ leBytes 2 (rfld s (romReg 0x118) 31 16))
  else pushBytes s 2 off (d.map some)
/-- A PUSH_CTRL at its target. -/
def pushCtrlIn (s : State) (f : Frame17) (env : RomEnv) : State :=
  if !lmsPushOk s then answerFrame s f 0x42 (leBytes 2 0x1407 ++ leBytes 2 (rfld s (romReg 0x118) 31 16))
  else
    let s := { ownPush s 2 with pushLen := wordAtLe f.payload 0 }
    if wordAtLe f.payload 1 ≠ 0xA5C30001 then answerFrame s f 0x42 (zeros 2 ++ leBytes 2 (rfld s (romReg 0x118) 31 16))
    else
      let (s, code) := pushGo s 2 env
      answerFrame s f 0x42 (zeros 2 ++ leBytes 2 code)
/-- A PUSH_RSP at node 0. -/
def pushRspIn (s : State) (f : Frame17) : State :=
  match pushChannel s f.src with
  | none => staleItem s 0
  | some c =>
    if (bulk s c).any fun b => decide (b.gen = (inst s 0).gen) then
      bulkEnd s c (if fieldLe f.payload 0 2 ≠ 0 then fieldLe f.payload 0 2 else fieldLe f.payload 2 2)
    else staleItem s 0

/-! ### Delivery -/

/-- A PAIR frame by its kind (R449, R453, R454): 1 a request, 2 a health report, 3 a grant, 4 a mirror record. -/
def pairIn (s : State) (f : Frame17) : State :=
  let p := f.payload
  match fieldLe p 0 1 with
  | 1 => witnessIn s f.src p
  | 2 => witnessIn s f.src p
  | 3 => grantIn s p
  | 4 =>
    (match fieldLe p 1 1 with
     | 1 => mirrorCounter s f.src p
     | 2 => mirrorQuarantineIn s f.src p
     | _ => mirrorFirmware s f.src p)
  | _ => report s .lms 0 0x1401 0 3
/-- A frame addressed to this node has its effect. -/
def deliverFrame (s : State) (f : Frame17) (inp : LmsIn) : State :=
  match f.type with
  | 0x04 => statusIn s f.src f.payload
  | 0x05 => if myNode s = 0 then discoverIn s 50 else s
  | 0x06 => if f.flags.testBit 3 then learnInc (giveUp s f.src 0x1402) f.src f.srcInc else s
  | 0x10 => regRdIn s f
  | 0x11 => regWrIn s f inp.bus
  | 0x12 => regRspIn s f
  | 0x20 => queueEvent s (fieldLe f.payload 0 2) f.src (wordAtLe f.payload 1)
  | 0x30 => jobReqIn s f inp.tag
  | 0x31 => bufRdIn s f inp.walks inp.mem
  | 0x32 => bufDataIn s f
  | 0x33 => bufWrIn s f inp.walks
  | 0x34 => jobDoneIn s f inp.walks
  | 0x35 => jobAbortIn s f inp.walks
  | 0x36 => jobCancelIn s f
  | 0x40 => pushDataIn s f
  | 0x41 => pushCtrlIn s f inp.rom
  | 0x42 => pushRspIn s f
  | 0x50 => pairIn s f
  | 0x51 => beatIn s f.src
  | _ => s

/-- The next reliable frame of its source is taken in order (R411). -/
def takeFrame (s : State) (f : Frame17) (inp : LmsIn) : State :=
  let p := peer s f.src
  let s := setPeer s f.src { p with rxNext := (p.rxNext + 1) % 65536, held := p.held.filter fun h => !(h.1.seq == f.seq) }
  deliverFrame (if (tget s (.ackDelay f.src)).isSome then s else tset s (.ackDelay f.src) (us 2)) f inp
/-- Frames held out of order that are now in order. -/
def takeHeld (n : Nat) : Nat → State → State
  | 0, s => s
  | k + 1, s =>
    match (peer s n).held.find? fun h => decide (h.1.seq = (peer s n).rxNext) with
    | none => s
    | some (f, inp) => takeHeld n k (takeFrame s f inp)
/-- An ACK frame sent at once; with sync it carries this node's incarnation (R411, R412). -/
def sendAck (s : State) (n : Nat) (sync : Bool) : State :=
  let s := tstop s (.ackDelay n)
  let f := frameTo s n 0x06 []
  transmit s (routeSide s n) (if sync then { f with flags := f.flags + 8 } else f)
/-- A reliable frame at its receiver (R411, R412). -/
def reliableIn (s : State) (f : Frame17) (inp : LmsIn) : State :=
  if f.dstInc ≠ 0 ∧ f.dstInc ≠ s.incarnation then sendAck s f.src true
  else
    let p := peer s f.src
    if f.seq = p.rxNext then takeHeld f.src 8 (takeFrame s f inp)
    else if seqBefore f.seq p.rxNext then answerAgain (sendAck s f.src false) f
    else if p.held.length ≥ 8 ∨ p.held.any (fun h => h.1.seq == f.seq) then s
    else setPeer s f.src { p with held := p.held ++ [(f, inp)] }

/-- The types that wake the device (R485). -/
def wakeTypes : List Nat := [0x10, 0x11, 0x30, 0x31, 0x32, 0x33, 0x34, 0x35, 0x36, 0x40, 0x41, 0x50]
/-- A frame addressed to this node: it wakes the device, its acknowledgement is taken, and it is delivered (R411, R427, R485).  A PUSH_RSP
is taken before the acknowledgement it carries, so that a refused last PUSH_DATA does not end its channel with 0 (R424). -/
def addressedIn (s : State) (f : Frame17) (inp : LmsIn) : State :=
  let s := if pwrState s ≠ 0 ∧ wakeTypes.contains f.type then wakeFor s 3 else s
  if f.type = 0x42 then ackIn (reliableIn s f inp) f
  else
    let s := ackIn s f
    if reliable f.type then reliableIn s f inp else deliverFrame s f inp

/-- A frame that goes on leaves by the other side (R409, R410). -/
def forwardFrame (s : State) (x : Nat) (f : Frame17) : State :=
  if f.hops + 1 ≥ 128 then discardFrame s x else transmit s (1 - x) { f with hops := f.hops + 1 }
/-- A frame arrives on receive lane `x` (R406 to R416): it restarts the silent timer and is counted; what arrives on a wrapped side
is discarded but for the frames that form the ring. -/
def receive (s : State) (x : Nat) (f : Frame17) (inp : LmsIn) : State :=
  if !sideOn s x then s else
  let s := rcount (heard s x) (sideReg x 0x04C) 31 0 1
  if !frameOk f then discardFrame s x
  else if f.type = 0x01 then helloIn s x f
  else if !sideUp s x then s
  else if f.type = 0x02 then (if s.tbLoss then s else discoverIn' s x f)
  else if f.type = 0x03 then
    if f.src = myNode s ∧ f.srcInc = s.incarnation then s else forwardFrame (topologyIn s f) x f
  else if (side s x).wrapped then s
  else if f.dst = myNode s then addressedIn s f inp
  else if f.dst = 0xFF then
    if f.src = myNode s then s else forwardFrame (deliverFrame s f inp) x f
  else forwardFrame s x f

/-- A frame of one type arrives. -/
def arrive (type x : Nat) (f : Frame17) (inp : LmsIn) (s : State) : Host.Outcome State Fault Refusal :=
  done (ringNote s (receive s x { f with type := type } inp))
/-- A PAIR frame of one kind arrives. -/
def arrivePair (kind x : Nat) (f : Frame17) (inp : LmsIn) (s : State) : Host.Outcome State Fault Refusal :=
  arrive 0x50 x { f with payload := BitVec.ofNat 8 kind :: f.payload.drop 1 } inp s
/-- A mirror record of one kind arrives. -/
def arriveMirror (kind x : Nat) (f : Frame17) (inp : LmsIn) (s : State) : Host.Outcome State Fault Refusal :=
  arrive 0x50 x { f with payload := 4 :: BitVec.ofNat 8 kind :: f.payload.drop 2 } inp s

/-! ### The rows -/

/-- LINK_HELLO (R406). -/
def execLinkHello (x : Nat) (f : Frame17) (s : State) : Host.Outcome State Fault Refusal := arrive 0x01 x f {} s
/-- FRAME_FORWARD (R409): a frame that is not addressed to this node. -/
def execFrameForward (x : Nat) (f : Frame17) (inp : LmsIn) (s : State) : Host.Outcome State Fault Refusal :=
  if f.dst = myNode s then done s else done (ringNote s (receive s x f inp))
/-- DISCOVER (R413). -/
def execDiscover (x : Nat) (f : Frame17) (s : State) : Host.Outcome State Fault Refusal := arrive 0x02 x f {} s
/-- TOPOLOGY (R413). -/
def execTopology (x : Nat) (f : Frame17) (s : State) : Host.Outcome State Fault Refusal := arrive 0x03 x f {} s
/-- STATUS (R426). -/
def execStatus (x : Nat) (f : Frame17) (s : State) : Host.Outcome State Fault Refusal := arrive 0x04 x f {} s
/-- LINK_EVENT (R415). -/
def execLinkEvent (x : Nat) (f : Frame17) (s : State) : Host.Outcome State Fault Refusal := arrive 0x05 x f {} s
/-- ACK (R411). -/
def execAck (x : Nat) (f : Frame17) (s : State) : Host.Outcome State Fault Refusal := arrive 0x06 x f {} s
/-- REG_RD (R419). -/
def execRegRd (x : Nat) (f : Frame17) (s : State) : Host.Outcome State Fault Refusal := arrive 0x10 x f {} s
/-- REG_WR (R419). -/
def execRegWr (x : Nat) (f : Frame17) (inp : LmsIn) (s : State) : Host.Outcome State Fault Refusal := arrive 0x11 x f inp s
/-- REG_RSP (R418). -/
def execRegRsp (x : Nat) (f : Frame17) (s : State) : Host.Outcome State Fault Refusal := arrive 0x12 x f {} s
/-- EVENT (R421). -/
def execEvent (x : Nat) (f : Frame17) (s : State) : Host.Outcome State Fault Refusal := arrive 0x20 x f {} s
/-- JOB_REQ (R422). -/
def execJobReq (x : Nat) (f : Frame17) (inp : LmsIn) (s : State) : Host.Outcome State Fault Refusal := arrive 0x30 x f inp s
/-- BUF_RD (R422). -/
def execBufRd (x : Nat) (f : Frame17) (inp : LmsIn) (s : State) : Host.Outcome State Fault Refusal := arrive 0x31 x f inp s
/-- BUF_DATA (R422). -/
def execBufData (x : Nat) (f : Frame17) (s : State) : Host.Outcome State Fault Refusal := arrive 0x32 x f {} s
/-- BUF_WR (R422). -/
def execBufWr (x : Nat) (f : Frame17) (inp : LmsIn) (s : State) : Host.Outcome State Fault Refusal := arrive 0x33 x f inp s
/-- JOB_DONE (R422). -/
def execJobDone (x : Nat) (f : Frame17) (inp : LmsIn) (s : State) : Host.Outcome State Fault Refusal := arrive 0x34 x f inp s
/-- JOB_ABORT (R423). -/
def execJobAbort (x : Nat) (f : Frame17) (inp : LmsIn) (s : State) : Host.Outcome State Fault Refusal := arrive 0x35 x f inp s
/-- JOB_CANCEL (R423). -/
def execJobCancel (x : Nat) (f : Frame17) (s : State) : Host.Outcome State Fault Refusal := arrive 0x36 x f {} s
/-- PUSH_DATA (R424). -/
def execPushData (x : Nat) (f : Frame17) (s : State) : Host.Outcome State Fault Refusal := arrive 0x40 x f {} s
/-- PUSH_CTRL (R424). -/
def execPushCtrl (x : Nat) (f : Frame17) (inp : LmsIn) (s : State) : Host.Outcome State Fault Refusal := arrive 0x41 x f inp s
/-- PUSH_RSP (R424). -/
def execPushRsp (x : Nat) (f : Frame17) (s : State) : Host.Outcome State Fault Refusal := arrive 0x42 x f {} s
/-- PAIR_REQUEST (R449). -/
def execPairRequest (x : Nat) (f : Frame17) (s : State) : Host.Outcome State Fault Refusal := arrivePair 1 x f {} s
/-- PAIR_HEALTH_REPORT (R449). -/
def execPairHealthReport (x : Nat) (f : Frame17) (s : State) : Host.Outcome State Fault Refusal := arrivePair 2 x f {} s
/-- GRANT_FRAME (R449). -/
def execGrantFrame (x : Nat) (f : Frame17) (s : State) : Host.Outcome State Fault Refusal := arrivePair 3 x f {} s
/-- MIRROR_COUNTER (R453). -/
def execMirrorCounter (x : Nat) (f : Frame17) (s : State) : Host.Outcome State Fault Refusal := arriveMirror 1 x f {} s
/-- MIRROR_QUARANTINE (R453). -/
def execMirrorQuarantine (x : Nat) (f : Frame17) (s : State) : Host.Outcome State Fault Refusal := arriveMirror 2 x f {} s
/-- MIRROR_FIRMWARE_RECORD (R453): kinds 0x10 to 0x1F, of which `kind` gives the low four bits. -/
def execMirrorFirmwareRecord (kind x : Nat) (f : Frame17) (s : State) : Host.Outcome State Fault Refusal :=
  arriveMirror (0x10 + kind % 16) x f {} s
/-- PAIR_BEAT (R450). -/
def execPairBeat (x : Nat) (f : Frame17) (s : State) : Host.Outcome State Fault Refusal := arrive 0x51 x f {} s
/-- MALFORMED_FRAME (R408, R409): a CRC failure found here, or a frame that R408 discards. -/
def execMalformedFrame (x : Nat) (crc : Bool) (s : State) : Host.Outcome State Fault Refusal :=
  done (
    if !sideOn s x then s else
    let s := rcount (heard s x) (sideReg x 0x04C) 31 0 1
    if crc then rcount s (sideReg x 0x048) 15 0 1 else discardFrame s x)

end Sys2Proof.Machine
end

