-- ==== Sys2Proof/Machine/RegCmds.lean ====
section
/-! DEFINITION. Machine/RegCmds.lean: the commands that are one access of one register, each as the access it makes.  A command
named after a field's value makes its access with that value, whatever the word it carries holds there. -/
namespace Sys2Proof.Machine

/-- A word write of a register. -/
def writeReg (a : Acc) (off : Nat) (data : Word) (inp : BusIn) (s : State) : Host.Outcome State Fault Refusal :=
  done (busWrite a off 4 data inp s)
/-- A word with the value `v` in bits [hi:lo]. -/
def withField (w : Word) (hi lo v : Nat) : Word := setFld w hi lo v

/-! ### Any access, and the page header (R16, R65, R66, R79) -/

/-- REGISTER_WRITE (R16). -/
def execRegisterWrite (a : Acc) (off size : Nat) (data : Word) (inp : BusIn) (s : State) : Host.Outcome State Fault Refusal :=
  done (busWrite a off size data inp s)
/-- PAGE_IRQ_CLEAR (R66). -/
def execPageIrqClear (a : Acc) (page : Nat) (data : Word) (s : State) : Host.Outcome State Fault Refusal :=
  writeReg a (page * 4096 + 0x010) data {} s
/-- PAGE_IRQ_FORCE (R66). -/
def execPageIrqForce (a : Acc) (page : Nat) (data : Word) (s : State) : Host.Outcome State Fault Refusal :=
  writeReg a (page * 4096 + 0x018) data {} s
/-- PAGE_LOCK (R66). -/
def execPageLock (a : Acc) (page : Nat) (s : State) : Host.Outcome State Fault Refusal :=
  writeReg a (page * 4096 + 0x01C) 1 {} s
/-- PAGE_ERR_CLEAR (R65). -/
def execPageErrClear (a : Acc) (page : Nat) (data : Word) (s : State) : Host.Outcome State Fault Refusal :=
  writeReg a (page * 4096 + 0x020) (data ||| 0x80000000) {} s
/-- BERR_CLEAR (R79). -/
def execBerrClear (a : Acc) (s : State) : Host.Outcome State Fault Refusal := writeReg a (reg .cap 0 0x084) 1 {} s

/-! ### Timebase and resets (R59, R60, R274) -/

/-- TB_TIME_READ (R59). -/
def execTbTimeRead (a : Acc) (s : State) : Host.Outcome State Fault Refusal := done (busRead a (tbReg 0x044) 4 .clean s)
/-- DLYMON_START (R60). -/
def execDlymonStart (a : Acc) (data : Word) (s : State) : Host.Outcome State Fault Refusal :=
  writeReg a (tbReg 0x050) (data ||| 0x80000000) {} s
/-- RST_REQ_DEVICE (R274). -/
def execRstReqDevice (a : Acc) (data : Word) (inp : RstIn) (s : State) : Host.Outcome State Fault Refusal :=
  writeReg a (romReg 0x044) (withField data 3 0 1) { rst := inp } s
/-- RST_REQ_CONTROL (R274). -/
def execRstReqControl (a : Acc) (data : Word) (inp : RstIn) (s : State) : Host.Outcome State Fault Refusal :=
  writeReg a (romReg 0x044) (withField data 3 0 2) { rst := inp } s
/-- RST_REQ_PORT (R274). -/
def execRstReqPort (a : Acc) (data : Word) (inp : RstIn) (s : State) : Host.Outcome State Fault Refusal :=
  writeReg a (romReg 0x044) (withField data 3 0 3) { rst := inp } s

/-! ### Ports (R116, R125, R127, R163, R167) -/

/-- A write of a code to FGPn_CMD. -/
def portCmd (a : Acc) (n code : Nat) (s : State) : Host.Outcome State Fault Refusal :=
  writeReg a (reg .fgpCtl n 0x084) (BitVec.ofNat 32 code) {} s
/-- CMD_MEASURE. -/
def execCmdMeasure (a : Acc) (n : Nat) (s : State) : Host.Outcome State Fault Refusal := portCmd a n 1 s
/-- CMD_RELEASE. -/
def execCmdRelease (a : Acc) (n : Nat) (s : State) : Host.Outcome State Fault Refusal := portCmd a n 2 s
/-- CMD_HOLD. -/
def execCmdHold (a : Acc) (n : Nat) (s : State) : Host.Outcome State Fault Refusal := portCmd a n 3 s
/-- CMD_STAGE. -/
def execCmdStage (a : Acc) (n : Nat) (s : State) : Host.Outcome State Fault Refusal := portCmd a n 4 s
/-- CMD_ACTIVATE. -/
def execCmdActivate (a : Acc) (n : Nat) (s : State) : Host.Outcome State Fault Refusal := portCmd a n 5 s
/-- CMD_RECOVER. -/
def execCmdRecover (a : Acc) (n : Nat) (s : State) : Host.Outcome State Fault Refusal := portCmd a n 6 s
/-- CMD_UNQUARANTINE. -/
def execCmdUnquarantine (a : Acc) (n : Nat) (s : State) : Host.Outcome State Fault Refusal := portCmd a n 7 s
/-- CMD_INVALID (R168). -/
def execCmdInvalid (a : Acc) (n code : Nat) (s : State) : Host.Outcome State Fault Refusal := portCmd a n code s

/-- The offset of a register of the latched set of port `n`. -/
def latchedOff (n : Nat) : LatchedReg → Nat
  | .winBase w => reg .fgpWin n (0x100 + 16 * w)
  | .winLimit w => reg .fgpWin n (0x104 + 16 * w)
  | .winPolicy w => reg .fgpWin n (0x108 + 16 * w)
  | .winMap w => reg .fgpWin n (0x10C + 16 * w)
  | .abMap => reg .fgpCtl n 0x090
  | .abCtrl => reg .fgpCtl n 0x094
  | .relCfg => reg .fgpCtl n 0x08C
  | .frameRange => reg .fgpCtl n 0x09C
/-- LATCHED_SET_WRITE (R127). -/
def execLatchedSetWrite (a : Acc) (n : Nat) (r : LatchedReg) (data : Word) (s : State) : Host.Outcome State Fault Refusal :=
  writeReg a (latchedOff n r) data {} s
/-- The offset of a register of the protocol set of port `n`. -/
def protoOff (n : Nat) : ProtoReg → Nat
  | .protoCfg => reg .fgpCtl n 0x040
  | .protoDummy => reg .fgpCtl n 0x044
  | .flashCfg => reg .fgpCtl n 0x04C
  | .flashRdop => reg .fgpCtl n 0x050
  | .fsck => reg .fgpCtl n 0x054
/-- PROTOCOL_SET_WRITE (R127). -/
def execProtocolSetWrite (a : Acc) (n : Nat) (r : ProtoReg) (data : Word) (s : State) : Host.Outcome State Fault Refusal :=
  writeReg a (protoOff n r) data {} s
/-- ARM_WRITE (R116). -/
def execArmWrite (a : Acc) (n : Nat) (data : Word) (s : State) : Host.Outcome State Fault Refusal :=
  writeReg a (reg .fgpWin n 0x044) data {} s
/-- MB_PUBLISH (R125). -/
def execMbPublish (a : Acc) (n : Nat) (data : Word) (s : State) : Host.Outcome State Fault Refusal :=
  writeReg a (reg .fgpMb n 0x04C) data {} s
/-- VST_DIAG_READ (R163). -/
def execVstDiagRead (a : Acc) (ecc : EccRes) (s : State) : Host.Outcome State Fault Refusal :=
  done (busRead a (reg .vst 0 0x060) 4 ecc s)

/-! ### Rings and lanes (R194, R206) -/

/-- The register that holds SQ_TAIL of a ring. -/
def sqTailOff : RingId → Nat | .core q => reg .cje 0 (0x090 + 32 * q) | .inst i => reg .doorbell i 0x044
/-- The register that holds CQ_HEAD of a ring. -/
def cqHeadOff : RingId → Nat | .core q => reg .cje 0 (0x094 + 32 * q) | .inst i => reg .doorbell i 0x048
/-- The register that enables a ring. -/
def ringCfgOff : RingId → Nat | .core q => reg .cje 0 (0x08C + 32 * q) | .inst i => reg .inst i 0x058
/-- SQ_DOORBELL (R194). -/
def execSqDoorbell (a : Acc) (r : RingId) (data : Word) (stores : List (Nat × Bytes)) (s : State) :
    Host.Outcome State Fault Refusal := writeReg a (sqTailOff r) data { sram := stores } s
/-- CQ_HEAD_WRITE (R194). -/
def execCqHeadWrite (a : Acc) (r : RingId) (data : Word) (s : State) : Host.Outcome State Fault Refusal :=
  writeReg a (cqHeadOff r) data {} s
/-- RING_ENABLE (R194): the enable bit is set in the word written. -/
def execRingEnable (a : Acc) (r : RingId) (data : Word) (s : State) : Host.Outcome State Fault Refusal :=
  writeReg a (ringCfgOff r) (data ||| 0x100) {} s
/-- LANE_RESERVE_WRITE (R206). -/
def execLaneReserveWrite (a : Acc) (m : Nat) (data : Word) (s : State) : Host.Outcome State Fault Refusal :=
  writeReg a (reg .lane m 0x040) data {} s

/-! ### Device start (R262, R268, R270, R278, R294, R300) -/

/-- BOOT_DBG_LOCK_WRITE (R268). -/
def execBootDbgLockWrite (a : Acc) (data : Word) (s : State) : Host.Outcome State Fault Refusal :=
  writeReg a (romReg 0x054) data {} s
/-- CORE_RELEASE (R270). -/
def execCoreRelease (a : Acc) (data : Word) (inp : BusIn) (s : State) : Host.Outcome State Fault Refusal :=
  writeReg a (romReg 0x058) data inp s
/-- LC_SUBMIT (R262). -/
def execLcSubmit (a : Acc) (data : Word) (inp : RstIn) (s : State) : Host.Outcome State Fault Refusal :=
  writeReg a (romReg 0x05C) (data ||| 1) { rst := inp } s
/-- HEALTH_CONFIRM (R294). -/
def execHealthConfirm (a : Acc) (data : Word) (s : State) : Host.Outcome State Fault Refusal :=
  writeReg a (romReg 0x114) (data ||| 1) {} s
/-- A write of BOOT_BF_CMD with op `op`. -/
def bfCmd (a : Acc) (op : Nat) (data : Word) (inp : BusIn) (s : State) : Host.Outcome State Fault Refusal :=
  writeReg a (romReg 0x128) (withField data 3 0 op) inp s
/-- BF_READ (R300). -/
def execBfRead (a : Acc) (data : Word) (s : State) : Host.Outcome State Fault Refusal := bfCmd a 1 data {} s
/-- BF_PROGRAM (R278). -/
def execBfProgram (a : Acc) (data : Word) (inp : BusIn) (s : State) : Host.Outcome State Fault Refusal := bfCmd a 2 data inp s
/-- BF_ERASE_4K (R278). -/
def execBfErase4K (a : Acc) (data : Word) (s : State) : Host.Outcome State Fault Refusal := bfCmd a 3 data {} s
/-- BF_ERASE_64K (R278). -/
def execBfErase64K (a : Acc) (data : Word) (s : State) : Host.Outcome State Fault Refusal := bfCmd a 4 data {} s

/-! ### The TAP's access to the debug module (R264, R265) -/

/-- The word a TAP read of the debug module's bus access shifts out. -/
def tapOut (s : State) (w : Option Word) : State := match w with | some w => emit s (.tap (leBytes 4 w.toNat)) | none => s
/-- TAP_DMI: an access of the debug module, which refuses it while its part of R264 is closed; the debug module's other registers are
those of the RISC-V Debug Specification. -/
def execTapDmi (op : DmiOp) (inp : BusIn) (s : State) : Host.Outcome State Fault Refusal :=
  tapCmd s fun s =>
    let s := tapScan s 0x11
    let a : Acc := ⟨4, true⟩
    let coreOpen (c : Nat) : Bool := decide (c < 4) && debugOpen s (if c = 0 then 1 else 2)
    match op with
    | .halt c => if coreOpen c then twdFreeze { s with halted := s.halted ||| BitVec.ofNat 32 (2 ^ c) } else s
    | .resume c => if coreOpen c then twdFreeze { s with halted := s.halted &&& ~~~ BitVec.ofNat 32 (2 ^ c) } else s
    | .busRead off size => if debugOpen s 3 then (let (s, w) := busReadWord a off size inp.ecc s; tapOut s w) else s
    | .busWrite off size data => if debugOpen s 3 then busWrite a off size data inp s else s
    | .other => if debugOpen s 1 || debugOpen s 2 || debugOpen s 3 then
        emit { s with fresh := s.fresh + 1 } (.tap (leBytes 4 (Config.dmi s.fresh).toNat))
      else s

/-! ### Watchdogs (R342 to R348) -/

/-- BWD_KICK (R343). -/
def execBwdKick (a : Acc) (data : Word) (s : State) : Host.Outcome State Fault Refusal := writeReg a (reg .bwd 0 0x048) data {} s
/-- BWD_HANDOVER (R342). -/
def execBwdHandover (a : Acc) (data : Word) (s : State) : Host.Outcome State Fault Refusal :=
  writeReg a (reg .bwd 0 0x050) data {} s
/-- TWD_ARM (R346). -/
def execTwdArm (a : Acc) (data : Word) (s : State) : Host.Outcome State Fault Refusal := writeReg a (reg .twd 0 0x04C) data {} s
/-- TWD_CHECKIN (R348). -/
def execTwdCheckin (a : Acc) (data : Word) (s : State) : Host.Outcome State Fault Refusal :=
  writeReg a (reg .twd 0 0x050) data {} s

/-! ### Fuses and counters (R309 to R312, R318, R319) -/

/-- A write of FUS_CMD with op `op`. -/
def fuseCmd (a : Acc) (op : Nat) (data : Word) (s : State) : Host.Outcome State Fault Refusal :=
  writeReg a (reg .fus 0 0x044) (withField data 3 0 op) {} s
/-- FUSE_READ. -/
def execFuseRead (a : Acc) (data : Word) (s : State) : Host.Outcome State Fault Refusal := fuseCmd a 1 data s
/-- FUSE_PROGRAM. -/
def execFuseProgram (a : Acc) (data : Word) (s : State) : Host.Outcome State Fault Refusal := fuseCmd a 2 data s
/-- FUSE_REPAIR. -/
def execFuseRepair (a : Acc) (data : Word) (s : State) : Host.Outcome State Fault Refusal := fuseCmd a 3 data s
/-- FUSE_LOCK. -/
def execFuseLock (a : Acc) (data : Word) (s : State) : Host.Outcome State Fault Refusal := fuseCmd a 4 data s
/-- ROOT_GEN. -/
def execRootGen (a : Acc) (data : Word) (s : State) : Host.Outcome State Fault Refusal := fuseCmd a 5 data s
/-- STRICT_CHECK. -/
def execStrictCheck (a : Acc) (data : Word) (s : State) : Host.Outcome State Fault Refusal := fuseCmd a 6 data s
/-- A write of CST_COREq_CMD with op `op`. -/
def cstCmd (a : Acc) (q op : Nat) (data : Word) (s : State) : Host.Outcome State Fault Refusal :=
  writeReg a (reg .cst 0 (0x080 + 16 * q)) (withField data 1 0 op) {} s
/-- CST_INCREMENT. -/
def execCstIncrement (a : Acc) (q : Nat) (data : Word) (s : State) : Host.Outcome State Fault Refusal := cstCmd a q 1 data s
/-- CST_RAISE. -/
def execCstRaise (a : Acc) (q : Nat) (data : Word) (s : State) : Host.Outcome State Fault Refusal := cstCmd a q 2 data s
/-- CST_OWNER_WRITE (R319). -/
def execCstOwnerWrite (a : Acc) (c : Nat) (data : Word) (s : State) : Host.Outcome State Fault Refusal :=
  writeReg a (reg .cst 0 (0x400 + 4 * c)) data {} s

/-! ### TEM, I3C and service port (R336, R366, R367, R373) -/

/-- TEM_TOKEN_LOAD (R336). -/
def execTemTokenLoad (a : Acc) (data : Word) (s : State) : Host.Outcome State Fault Refusal :=
  writeReg a (reg .tem 0 0x058) (data ||| 1) {} s
/-- I3C_TX_SEND (R366). -/
def execI3cTxSend (a : Acc) (data : Word) (s : State) : Host.Outcome State Fault Refusal :=
  writeReg a (reg .i3c 0 0x050) (data ||| 0x10000) {} s
/-- I3C_TX_CANCEL (R366). -/
def execI3cTxCancel (a : Acc) (s : State) : Host.Outcome State Fault Refusal := writeReg a (reg .i3c 0 0x050) 0x20000 {} s
/-- I3C_RX_POP (R367). -/
def execI3cRxPop (a : Acc) (s : State) : Host.Outcome State Fault Refusal := writeReg a (reg .i3c 0 0x04C) 1 {} s
/-- SVC_FW_ANSWER (R373). -/
def execSvcFwAnswer (a : Acc) (data : Word) (s : State) : Host.Outcome State Fault Refusal :=
  writeReg a (reg .svc 0 0x054) data {} s

/-! ### Service instances (R380 to R400) -/

/-- A write of INSTi_CMD with op `op`. -/
def instCmd (a : Acc) (i op : Nat) (data : Word) (inp : BusIn) (s : State) : Host.Outcome State Fault Refusal :=
  writeReg a (reg .inst i 0x084) (withField data 3 0 op) inp s
/-- INST_CREATE (R380). -/
def execInstCreate (a : Acc) (i : Nat) (data : Word) (s : State) : Host.Outcome State Fault Refusal := instCmd a i 1 data {} s
/-- INST_DESTROY (R390). -/
def execInstDestroy (a : Acc) (i : Nat) (data : Word) (s : State) : Host.Outcome State Fault Refusal := instCmd a i 2 data {} s
/-- INST_RESET (R390). -/
def execInstReset (a : Acc) (i : Nat) (data : Word) (inp : BusIn) (s : State) : Host.Outcome State Fault Refusal :=
  instCmd a i 3 data inp s
/-- INST_FREEZE (R395). -/
def execInstFreeze (a : Acc) (i : Nat) (data : Word) (s : State) : Host.Outcome State Fault Refusal := instCmd a i 4 data {} s
/-- INST_THAW (R378). -/
def execInstThaw (a : Acc) (i : Nat) (data : Word) (s : State) : Host.Outcome State Fault Refusal := instCmd a i 5 data {} s
/-- INST_SAVE (R397). -/
def execInstSave (a : Acc) (i : Nat) (data : Word) (inp : BusIn) (s : State) : Host.Outcome State Fault Refusal :=
  instCmd a i 6 data inp s
/-- INST_RESTORE (R400). -/
def execInstRestore (a : Acc) (i : Nat) (data : Word) (inp : BusIn) (s : State) : Host.Outcome State Fault Refusal :=
  instCmd a i 7 data inp s
/-- INST_RESUME (R389). -/
def execInstResume (a : Acc) (i : Nat) (inp : BusIn) (s : State) : Host.Outcome State Fault Refusal :=
  writeReg a (reg .inst i 0x0A8) 1 inp s
/-- INST_ABORT (R389). -/
def execInstAbort (a : Acc) (i : Nat) (inp : BusIn) (s : State) : Host.Outcome State Fault Refusal :=
  writeReg a (reg .inst i 0x0A8) 2 inp s
/-- INST_INVAL (R389). -/
def execInstInval (a : Acc) (i : Nat) (inp : BusIn) (s : State) : Host.Outcome State Fault Refusal :=
  writeReg a (reg .inst i 0x0A8) 4 inp s
/-- A write of INSTi_CTR_CMD with op `op`. -/
def instCtrCmd (a : Acc) (i op : Nat) (data : Word) (s : State) : Host.Outcome State Fault Refusal :=
  writeReg a (reg .inst i 0x0B0) (withField data 1 0 op) {} s
/-- INST_CTR_INCREMENT (R382). -/
def execInstCtrIncrement (a : Acc) (i : Nat) (data : Word) (s : State) : Host.Outcome State Fault Refusal :=
  instCtrCmd a i 1 data s
/-- INST_CTR_RAISE (R382). -/
def execInstCtrRaise (a : Acc) (i : Nat) (data : Word) (s : State) : Host.Outcome State Fault Refusal :=
  instCtrCmd a i 2 data s
/-- MGR_DOORBELL (R383). -/
def execMgrDoorbell (a : Acc) (data : Word) (s : State) : Host.Outcome State Fault Refusal :=
  writeReg a (reg .inst 0 0x420) data {} s
/-- MGR_PUBLISH (R383). -/
def execMgrPublish (a : Acc) (data : Word) (s : State) : Host.Outcome State Fault Refusal :=
  writeReg a (reg .inst 0 0x428) (data ||| 0x80000000) {} s

/-! ### The ring (R418, R424, R429) -/

/-- REMOTE_APERTURE_ACCESS (R418): a word access at aperture offset `o`. -/
def execRemoteApertureAccess (a : Acc) (write : Bool) (o : Nat) (data : Word) (s : State) : Host.Outcome State Fault Refusal :=
  done (if write then busWrite a (0xC00000 + o) 4 data {} s else busRead a (0xC00000 + o) 4 .clean s)
/-- EVQ_POP (R429). -/
def execEvqPop (a : Acc) (s : State) : Host.Outcome State Fault Refusal := writeReg a (reg .lms 0 0x09C) 1 {} s
/-- A start of bulk channel `c` with kind `k`. -/
def bulkCmd (a : Acc) (c k : Nat) (data : Word) (inp : BusIn) (s : State) : Host.Outcome State Fault Refusal :=
  writeReg a (reg .lms 0 (0x0D0 + 32 * c)) (withField data 1 0 k) inp s
/-- BULK_PUSH (R424): `mem` is the host memory read, none where a read of it fails. -/
def execBulkPush (a : Acc) (c : Nat) (data : Word) (mem : Option Bytes) (s : State) : Host.Outcome State Fault Refusal :=
  bulkCmd a c 1 data { blob := mem } s
/-- BULK_FETCH (R424). -/
def execBulkFetch (a : Acc) (c : Nat) (data : Word) (s : State) : Host.Outcome State Fault Refusal := bulkCmd a c 2 data {} s

/-! ### Pairs (R443, R449, R452 to R454, R458) -/

/-- PAIR_REQ_RENEW (R443). -/
def execPairReqRenew (a : Acc) (data : Word) (s : State) : Host.Outcome State Fault Refusal :=
  writeReg a (pairReg 0x058) (withField data 1 0 1) {} s
/-- PAIR_REQ_CLAIM (R443). -/
def execPairReqClaim (a : Acc) (data : Word) (s : State) : Host.Outcome State Fault Refusal :=
  writeReg a (pairReg 0x058) (withField data 1 0 2) {} s
/-- PAIR_GRANT_GO (R449). -/
def execPairGrantGo (a : Acc) (data : Word) (s : State) : Host.Outcome State Fault Refusal :=
  writeReg a (pairReg 0x130) (data ||| 1) {} s
/-- PAIR_HEALTH_CTRL (R454). -/
def execPairHealthCtrl (a : Acc) (s : State) : Host.Outcome State Fault Refusal := writeReg a (pairReg 0x144) 1 {} s
/-- PAIR_WARM (R452). -/
def execPairWarm (a : Acc) (data : Word) (s : State) : Host.Outcome State Fault Refusal := writeReg a (pairReg 0x078) data {} s
/-- MIRROR_SEND (R453). -/
def execMirrorSend (a : Acc) (data : Word) (s : State) : Host.Outcome State Fault Refusal :=
  writeReg a (pairReg 0x134) (data ||| 0x80000000) {} s
/-- PAIR_MRX_POP (R458). -/
def execPairMrxPop (a : Acc) (s : State) : Host.Outcome State Fault Refusal := writeReg a (pairReg 0x140) 1 {} s
/-- PAIR_WIN_POP (R458). -/
def execPairWinPop (a : Acc) (s : State) : Host.Outcome State Fault Refusal := writeReg a (pairReg 0x14C) 1 {} s
/-- PAIR_WOUT_SEND (R449). -/
def execPairWoutSend (a : Acc) (data : Word) (s : State) : Host.Outcome State Fault Refusal :=
  writeReg a (pairReg 0x150) (data ||| 0x80000000) {} s

/-! ### Event hub and power (R465, R477, R483, R484) -/

/-- EVH_ROUTE_WRITE (R465): the entry of source `src`. -/
def execEvhRouteWrite (a : Acc) (src : Nat) (data : Word) (s : State) : Host.Outcome State Fault Refusal :=
  writeReg a (reg .evhRoute (src / 192) (0x100 + 4 * (src % 192))) data {} s
/-- PWR_DOMAIN_EN_WRITE (R477). -/
def execPwrDomainEnWrite (a : Acc) (data : Word) (s : State) : Host.Outcome State Fault Refusal :=
  writeReg a (pwrReg 0x044) data {} s
/-- REST_ENTER (R483). -/
def execRestEnter (a : Acc) (data : Word) (s : State) : Host.Outcome State Fault Refusal :=
  writeReg a (pwrReg 0x04C) (withField data 1 0 1) {} s
/-- REST_CANCEL (R484). -/
def execRestCancel (a : Acc) (data : Word) (s : State) : Host.Outcome State Fault Refusal :=
  writeReg a (pwrReg 0x04C) (withField data 1 0 2) {} s

end Sys2Proof.Machine
end

