-- ==== Sys2Proof/Machine/Dispatch.lean ====
section
/-! DEFINITION. Machine/Dispatch.lean: each command's meaning. -/
namespace Sys2Proof.Machine

def exec (i : Instr) (s : State) : Host.Outcome State Fault Refusal :=
  match i with
  | .supplyFall rail tear r t => Sys2Proof.Machine.execSupplyFall rail tear r t s
  | .porEnd xinCmos straps backup => Sys2Proof.Machine.execPorEnd xinCmos straps backup s
  | .devRstNAssert inp => Sys2Proof.Machine.execDevRstNAssert inp s
  | .devRstNRelease inp => Sys2Proof.Machine.execDevRstNRelease inp s
  | .rstReqDevice acc data inp => Sys2Proof.Machine.execRstReqDevice acc data inp s
  | .rstReqControl acc data inp => Sys2Proof.Machine.execRstReqControl acc data inp s
  | .rstReqPort acc data inp => Sys2Proof.Machine.execRstReqPort acc data inp s
  | .lockstepMismatch inp => Sys2Proof.Machine.execLockstepMismatch inp s
  | .debugModuleReset inp => Sys2Proof.Machine.execDebugModuleReset inp s
  | .romFetchViolation inp => Sys2Proof.Machine.execRomFetchViolation inp s
  | .romFlow env => Sys2Proof.Machine.execRomFlow env s
  | .registerWrite acc off size data inp => Sys2Proof.Machine.execRegisterWrite acc off size data inp s
  | .pageIrqClear acc page data => Sys2Proof.Machine.execPageIrqClear acc page data s
  | .pageIrqForce acc page data => Sys2Proof.Machine.execPageIrqForce acc page data s
  | .pageLock acc page => Sys2Proof.Machine.execPageLock acc page s
  | .pageErrClear acc page data => Sys2Proof.Machine.execPageErrClear acc page data s
  | .berrClear acc => Sys2Proof.Machine.execBerrClear acc s
  | .tbTimeRead acc => Sys2Proof.Machine.execTbTimeRead acc s
  | .dlymonStart acc data => Sys2Proof.Machine.execDlymonStart acc data s
  | .dlymonDone => Sys2Proof.Machine.execDlymonDone s
  | .timebaseLoss lockLost => Sys2Proof.Machine.execTimebaseLoss lockLost s
  | .timebaseReturn => Sys2Proof.Machine.execTimebaseReturn s
  | .platformRead n op ext addr len inp => Sys2Proof.Machine.execPlatformRead n op ext addr len inp s
  | .legacyRead n op addr len slow inp => Sys2Proof.Machine.execLegacyRead n op addr len slow inp s
  | .pageProgram n op ext addr data => Sys2Proof.Machine.execPageProgram n op ext addr data s
  | .erase4K n op4 ext addr => Sys2Proof.Machine.execErase4K n op4 ext addr s
  | .erase32K n op4 ext addr => Sys2Proof.Machine.execErase32K n op4 ext addr s
  | .erase64K n op4 ext addr => Sys2Proof.Machine.execErase64K n op4 ext addr s
  | .chipErase n alt ext => Sys2Proof.Machine.execChipErase n alt ext s
  | .writeEnable n ext => Sys2Proof.Machine.execWriteEnable n ext s
  | .writeDisable n ext => Sys2Proof.Machine.execWriteDisable n ext s
  | .readStatus n ext => Sys2Proof.Machine.execReadStatus n ext s
  | .readFlagStatus n ext => Sys2Proof.Machine.execReadFlagStatus n ext s
  | .readRegister35 n ext => Sys2Proof.Machine.execReadRegister35 n ext s
  | .readRegister15 n ext => Sys2Proof.Machine.execReadRegister15 n ext s
  | .readMode n ext => Sys2Proof.Machine.execReadMode n ext s
  | .readId n ext len => Sys2Proof.Machine.execReadId n ext len s
  | .readSfdp n ext addr len ready => Sys2Proof.Machine.execReadSfdp n ext addr len ready s
  | .securityIdRead n unique len => Sys2Proof.Machine.execSecurityIdRead n unique len s
  | .writeStatus n ext data => Sys2Proof.Machine.execWriteStatus n ext data s
  | .writeMode n ext addr data => Sys2Proof.Machine.execWriteMode n ext addr data s
  | .setBurstWrap n data => Sys2Proof.Machine.execSetBurstWrap n data s
  | .enter4Byte n => Sys2Proof.Machine.execEnter4Byte n s
  | .exit4Byte n => Sys2Proof.Machine.execExit4Byte n s
  | .resetEnable n ext => Sys2Proof.Machine.execResetEnable n ext s
  | .protocolReset n ext => Sys2Proof.Machine.execProtocolReset n ext s
  | .protectionWrite n op => Sys2Proof.Machine.execProtectionWrite n op s
  | .noOpCommand n op ext => Sys2Proof.Machine.execNoOpCommand n op ext s
  | .unsupportedOpcode n op ext => Sys2Proof.Machine.execUnsupportedOpcode n op ext s
  | .platformCsDeassert n => Sys2Proof.Machine.execPlatformCsDeassert n s
  | .busyPoll n wip => Sys2Proof.Machine.execBusyPoll n wip s
  | .cs0BusyTimeout n => Sys2Proof.Machine.execCs0BusyTimeout n s
  | .ownAccessIssue n data => Sys2Proof.Machine.execOwnAccessIssue n data s
  | .flashResetPulseEnd n => Sys2Proof.Machine.execFlashResetPulseEnd n s
  | .flashResetQuietEnd n => Sys2Proof.Machine.execFlashResetQuietEnd n s
  | .preqChange n level => Sys2Proof.Machine.execPreqChange n level s
  | .cmdMeasure acc n => Sys2Proof.Machine.execCmdMeasure acc n s
  | .cmdRelease acc n => Sys2Proof.Machine.execCmdRelease acc n s
  | .cmdHold acc n => Sys2Proof.Machine.execCmdHold acc n s
  | .cmdStage acc n => Sys2Proof.Machine.execCmdStage acc n s
  | .cmdActivate acc n => Sys2Proof.Machine.execCmdActivate acc n s
  | .cmdRecover acc n => Sys2Proof.Machine.execCmdRecover acc n s
  | .cmdUnquarantine acc n => Sys2Proof.Machine.execCmdUnquarantine acc n s
  | .cmdInvalid acc n code => Sys2Proof.Machine.execCmdInvalid acc n code s
  | .latchedSetWrite acc n reg data => Sys2Proof.Machine.execLatchedSetWrite acc n reg data s
  | .protocolSetWrite acc n reg data => Sys2Proof.Machine.execProtocolSetWrite acc n reg data s
  | .armWrite acc n data => Sys2Proof.Machine.execArmWrite acc n data s
  | .mbPublish acc n data => Sys2Proof.Machine.execMbPublish acc n data s
  | .responseVisible n => Sys2Proof.Machine.execResponseVisible n s
  | .manifestCheckMeasure tag man => Sys2Proof.Machine.execManifestCheckMeasure tag man s
  | .manifestCheckStage tag man dtts => Sys2Proof.Machine.execManifestCheckStage tag man dtts s
  | .manifestCheckGolden tag man => Sys2Proof.Machine.execManifestCheckGolden tag man s
  | .treeLoadDone n dtts => Sys2Proof.Machine.execTreeLoadDone n dtts s
  | .fillBlockDone n data => Sys2Proof.Machine.execFillBlockDone n data s
  | .refillDone n data => Sys2Proof.Machine.execRefillDone n data s
  | .leafFetchDone n data ecc => Sys2Proof.Machine.execLeafFetchDone n data ecc s
  | .hashSegment n fa lane => Sys2Proof.Machine.execHashSegment n fa lane s
  | .blockCheck n fa => Sys2Proof.Machine.execBlockCheck n fa s
  | .deferralExpiry n fa => Sys2Proof.Machine.execDeferralExpiry n fa s
  | .releaseD1Expiry n => Sys2Proof.Machine.execReleaseD1Expiry n s
  | .releaseD2Expiry n => Sys2Proof.Machine.execReleaseD2Expiry n s
  | .activationQuiesced n => Sys2Proof.Machine.execActivationQuiesced n s
  | .goldenVerifyDone n blks => Sys2Proof.Machine.execGoldenVerifyDone n blks s
  | .recoveryUnitDone n blks rb1 retry busyAt => Sys2Proof.Machine.execRecoveryUnitDone n blks rb1 retry busyAt s
  | .scrubTick k ecc => Sys2Proof.Machine.execScrubTick k ecc s
  | .eccWriteback => Sys2Proof.Machine.execEccWriteback s
  | .vstDiagRead acc ecc => Sys2Proof.Machine.execVstDiagRead acc ecc s
  | .sqDoorbell acc ring data stores => Sys2Proof.Machine.execSqDoorbell acc ring data stores s
  | .cqHeadWrite acc ring data => Sys2Proof.Machine.execCqHeadWrite acc ring data s
  | .ringEnable acc ring data => Sys2Proof.Machine.execRingEnable acc ring data s
  | .descriptorFetch ring tag desc walk => Sys2Proof.Machine.execDescriptorFetch ring tag desc walk s
  | .jobDispatch tag unit lane walks => Sys2Proof.Machine.execJobDispatch tag unit lane walks s
  | .preemption lane blocks io => Sys2Proof.Machine.execPreemption lane blocks io s
  | .yield lane blocks io => Sys2Proof.Machine.execYield lane blocks io s
  | .jobResume tag unit rcd walks => Sys2Proof.Machine.execJobResume tag unit rcd walks s
  | .completionWrite tag walks => Sys2Proof.Machine.execCompletionWrite tag walks s
  | .jobTimeout tag walks => Sys2Proof.Machine.execJobTimeout tag walks s
  | .laneReserveWrite acc m data => Sys2Proof.Machine.execLaneReserveWrite acc m data s
  | .nop tag io => Sys2Proof.Machine.execNop tag io s
  | .hash tag io => Sys2Proof.Machine.execHash tag io s
  | .hmacGenerate tag io => Sys2Proof.Machine.execHmacGenerate tag io s
  | .hmacVerify tag io => Sys2Proof.Machine.execHmacVerify tag io s
  | .kdf tag io => Sys2Proof.Machine.execKdf tag io s
  | .drbg tag io => Sys2Proof.Machine.execDrbg tag io s
  | .ed25519Sign tag io => Sys2Proof.Machine.execEd25519Sign tag io s
  | .ed25519Verify tag io => Sys2Proof.Machine.execEd25519Verify tag io s
  | .x25519 tag io => Sys2Proof.Machine.execX25519 tag io s
  | .gcmEnc tag io => Sys2Proof.Machine.execGcmEnc tag io s
  | .gcmDec tag io => Sys2Proof.Machine.execGcmDec tag io s
  | .selfTest tag bad => Sys2Proof.Machine.execSelfTest tag bad s
  | .selfTestTimeout tag => Sys2Proof.Machine.execSelfTestTimeout tag s
  | .entropyHealthFailure => Sys2Proof.Machine.execEntropyHealthFailure s
  | .keyGen tag io => Sys2Proof.Machine.execKeyGen tag io s
  | .keyPub tag io => Sys2Proof.Machine.execKeyPub tag io s
  | .keyImport tag io => Sys2Proof.Machine.execKeyImport tag io s
  | .keyWrap tag io => Sys2Proof.Machine.execKeyWrap tag io s
  | .keyUnwrap tag io => Sys2Proof.Machine.execKeyUnwrap tag io s
  | .keyInvalidate tag io => Sys2Proof.Machine.execKeyInvalidate tag io s
  | .measExtend tag io => Sys2Proof.Machine.execMeasExtend tag io s
  | .wmsBuild tag io => Sys2Proof.Machine.execWmsBuild tag io s
  | .policyCommit tag io => Sys2Proof.Machine.execPolicyCommit tag io s
  | .fwRecord tag io => Sys2Proof.Machine.execFwRecord tag io s
  | .aliasCreate tag io => Sys2Proof.Machine.execAliasCreate tag io s
  | .keyScrubPass => Sys2Proof.Machine.execKeyScrubPass s
  | .bootDbgLockWrite acc data => Sys2Proof.Machine.execBootDbgLockWrite acc data s
  | .coreRelease acc data inp => Sys2Proof.Machine.execCoreRelease acc data inp s
  | .lcSubmit acc data inp => Sys2Proof.Machine.execLcSubmit acc data inp s
  | .healthConfirm acc data => Sys2Proof.Machine.execHealthConfirm acc data s
  | .tapExtest cells pins => Sys2Proof.Machine.execTapExtest cells pins s
  | .tapSamplePreload cells pins => Sys2Proof.Machine.execTapSamplePreload cells pins s
  | .tapIdcode => Sys2Proof.Machine.execTapIdcode s
  | .tapNonce => Sys2Proof.Machine.execTapNonce s
  | .tapToken t => Sys2Proof.Machine.execTapToken t s
  | .tapTokenStatus => Sys2Proof.Machine.execTapTokenStatus s
  | .tokenReset inp => Sys2Proof.Machine.execTokenReset inp s
  | .tapDtmcs => Sys2Proof.Machine.execTapDtmcs s
  | .tapDmi op inp => Sys2Proof.Machine.execTapDmi op inp s
  | .tapBypass => Sys2Proof.Machine.execTapBypass s
  | .bfRead acc data => Sys2Proof.Machine.execBfRead acc data s
  | .bfProgram acc data inp => Sys2Proof.Machine.execBfProgram acc data inp s
  | .bfErase4k acc data => Sys2Proof.Machine.execBfErase4K acc data s
  | .bfErase64k acc data => Sys2Proof.Machine.execBfErase64K acc data s
  | .bfBusyPoll wip => Sys2Proof.Machine.execBfBusyPoll wip s
  | .bfBusyTimeout => Sys2Proof.Machine.execBfBusyTimeout s
  | .bfCommandDone data ok => Sys2Proof.Machine.execBfCommandDone data ok s
  | .pushApertureWrite off bs => Sys2Proof.Machine.execPushApertureWrite off bs s
  | .pushGo data env => Sys2Proof.Machine.execPushGo data env s
  | .bwdKick acc data => Sys2Proof.Machine.execBwdKick acc data s
  | .bwdHandover acc data => Sys2Proof.Machine.execBwdHandover acc data s
  | .bwdHalfPeriod => Sys2Proof.Machine.execBwdHalfPeriod s
  | .bwdBite inp => Sys2Proof.Machine.execBwdBite inp s
  | .twdArm acc data => Sys2Proof.Machine.execTwdArm acc data s
  | .twdCheckin acc data => Sys2Proof.Machine.execTwdCheckin acc data s
  | .twdPeriodEnd => Sys2Proof.Machine.execTwdPeriodEnd s
  | .twdBite inp => Sys2Proof.Machine.execTwdBite inp s
  | .fuseRead acc data => Sys2Proof.Machine.execFuseRead acc data s
  | .fuseProgram acc data => Sys2Proof.Machine.execFuseProgram acc data s
  | .fusePulseEnd r n t => Sys2Proof.Machine.execFusePulseEnd r n t s
  | .fuseRepair acc data => Sys2Proof.Machine.execFuseRepair acc data s
  | .fuseLock acc data => Sys2Proof.Machine.execFuseLock acc data s
  | .rootGen acc data => Sys2Proof.Machine.execRootGen acc data s
  | .strictCheck acc data => Sys2Proof.Machine.execStrictCheck acc data s
  | .tamperCountAdvance r t => Sys2Proof.Machine.execTamperCountAdvance r t s
  | .cstIncrement acc q data => Sys2Proof.Machine.execCstIncrement acc q data s
  | .cstRaise acc q data => Sys2Proof.Machine.execCstRaise acc q data s
  | .cstOwnerWrite acc c data => Sys2Proof.Machine.execCstOwnerWrite acc c data s
  | .counterOperationDone k aFails bFails => Sys2Proof.Machine.execCounterOperationDone k aFails bFails s
  | .reconcileDone bad => Sys2Proof.Machine.execReconcileDone bad s
  | .supplySample k code => Sys2Proof.Machine.execSupplySample k code s
  | .temperatureSample k code => Sys2Proof.Machine.execTemperatureSample k code s
  | .tbclkGlitch bad => Sys2Proof.Machine.execTbclkGlitch bad s
  | .meshPass bad => Sys2Proof.Machine.execMeshPass bad s
  | .caseInputChange k level => Sys2Proof.Machine.execCaseInputChange k level s
  | .vbatSample code => Sys2Proof.Machine.execVbatSample code s
  | .stateCodeCheck k code => Sys2Proof.Machine.execStateCodeCheck k code s
  | .temTokenLoad acc data => Sys2Proof.Machine.execTemTokenLoad acc data s
  | .batteryWindowClose => Sys2Proof.Machine.execBatteryWindowClose s
  | .batteryWindowExpiry => Sys2Proof.Machine.execBatteryWindowExpiry s
  | .pciePerst => Sys2Proof.Machine.execPciePerst s
  | .pcieHotReset => Sys2Proof.Machine.execPcieHotReset s
  | .pcieLinkDown => Sys2Proof.Machine.execPcieLinkDown s
  | .pcieLinkUp speed lanes => Sys2Proof.Machine.execPcieLinkUp speed lanes s
  | .pfFlr => Sys2Proof.Machine.execPfFlr s
  | .vfFlr k => Sys2Proof.Machine.execVfFlr k s
  | .vfEnableWrite en num ari => Sys2Proof.Machine.execVfEnableWrite en num ari s
  | .atsInvalidate fn addr len ws => Sys2Proof.Machine.execAtsInvalidate fn addr len ws s
  | .prgResponse idx success ws => Sys2Proof.Machine.execPrgResponse idx success ws s
  | .pcieCompletionTimeout tag ws => Sys2Proof.Machine.execPcieCompletionTimeout tag ws s
  | .mctpPacketWrite bytes => Sys2Proof.Machine.execMctpPacketWrite bytes s
  | .mctpPacketRead => Sys2Proof.Machine.execMctpPacketRead s
  | .ibi acked => Sys2Proof.Machine.execIbi acked s
  | .i3cTxSend acc data => Sys2Proof.Machine.execI3cTxSend acc data s
  | .i3cTxCancel acc => Sys2Proof.Machine.execI3cTxCancel acc s
  | .i3cRxPop acc => Sys2Proof.Machine.execI3cRxPop acc s
  | .i3cTxTimeout => Sys2Proof.Machine.execI3cTxTimeout s
  | .enec events => Sys2Proof.Machine.execEnec events s
  | .disec events => Sys2Proof.Machine.execDisec events s
  | .rstdaa => Sys2Proof.Machine.execRstdaa s
  | .entdaa a => Sys2Proof.Machine.execEntdaa a s
  | .setdasa sa a => Sys2Proof.Machine.execSetdasa sa a s
  | .setnewda a => Sys2Proof.Machine.execSetnewda a s
  | .setmwl n => Sys2Proof.Machine.execSetmwl n s
  | .setmrl n => Sys2Proof.Machine.execSetmrl n s
  | .getmwl => Sys2Proof.Machine.execGetmwl s
  | .getmrl => Sys2Proof.Machine.execGetmrl s
  | .getpid => Sys2Proof.Machine.execGetpid s
  | .getbcr => Sys2Proof.Machine.execGetbcr s
  | .getdcr => Sys2Proof.Machine.execGetdcr s
  | .getstatus => Sys2Proof.Machine.execGetstatus s
  | .rstact act => Sys2Proof.Machine.execRstact act s
  | .hello seq payload => Sys2Proof.Machine.execHello seq payload s
  | .baud seq payload => Sys2Proof.Machine.execBaud seq payload s
  | .baudSwitch => Sys2Proof.Machine.execBaudSwitch s
  | .baudRevert => Sys2Proof.Machine.execBaudRevert s
  | .sessionOpen seq payload => Sys2Proof.Machine.execSessionOpen seq payload s
  | .data seq payload readBack => Sys2Proof.Machine.execData seq payload readBack s
  | .sessionClose seq payload => Sys2Proof.Machine.execSessionClose seq payload s
  | .sessionTimeout => Sys2Proof.Machine.execSessionTimeout s
  | .svcPushWrite seq payload => Sys2Proof.Machine.execSvcPushWrite seq payload s
  | .svcPushGo seq payload env => Sys2Proof.Machine.execSvcPushGo seq payload env s
  | .svcFirmwareRequest k seq payload => Sys2Proof.Machine.execSvcFirmwareRequest k seq payload s
  | .svcFwAnswer acc data => Sys2Proof.Machine.execSvcFwAnswer acc data s
  | .svcFrameAbort => Sys2Proof.Machine.execSvcFrameAbort s
  | .instCreate acc k data => Sys2Proof.Machine.execInstCreate acc k data s
  | .instDestroy acc k data => Sys2Proof.Machine.execInstDestroy acc k data s
  | .instReset acc k data inp => Sys2Proof.Machine.execInstReset acc k data inp s
  | .drainTimeout k => Sys2Proof.Machine.execDrainTimeout k s
  | .generationDelayEnd k ws => Sys2Proof.Machine.execGenerationDelayEnd k ws s
  | .instFreeze acc k data => Sys2Proof.Machine.execInstFreeze acc k data s
  | .instanceFrozen k => Sys2Proof.Machine.execInstanceFrozen k s
  | .instThaw acc k data => Sys2Proof.Machine.execInstThaw acc k data s
  | .instSave acc k data inp => Sys2Proof.Machine.execInstSave acc k data inp s
  | .instRestore acc k data inp => Sys2Proof.Machine.execInstRestore acc k data inp s
  | .instResume acc k inp => Sys2Proof.Machine.execInstResume acc k inp s
  | .instAbort acc k inp => Sys2Proof.Machine.execInstAbort acc k inp s
  | .instInval acc k inp => Sys2Proof.Machine.execInstInval acc k inp s
  | .instCtrIncrement acc k data => Sys2Proof.Machine.execInstCtrIncrement acc k data s
  | .instCtrRaise acc k data => Sys2Proof.Machine.execInstCtrRaise acc k data s
  | .mgrDoorbell acc data => Sys2Proof.Machine.execMgrDoorbell acc data s
  | .mgrPublish acc data => Sys2Proof.Machine.execMgrPublish acc data s
  | .remoteJobTimeout tag ws => Sys2Proof.Machine.execRemoteJobTimeout tag ws s
  | .heartbeatSend x => Sys2Proof.Machine.execHeartbeatSend x s
  | .blockLock x => Sys2Proof.Machine.execBlockLock x s
  | .linkHello x f => Sys2Proof.Machine.execLinkHello x f s
  | .frameForward x f inp => Sys2Proof.Machine.execFrameForward x f inp s
  | .discoverOriginate => Sys2Proof.Machine.execDiscoverOriginate s
  | .discover x f => Sys2Proof.Machine.execDiscover x f s
  | .topology x f => Sys2Proof.Machine.execTopology x f s
  | .topologyRepeat => Sys2Proof.Machine.execTopologyRepeat s
  | .isolatedTimeout => Sys2Proof.Machine.execIsolatedTimeout s
  | .statusSend => Sys2Proof.Machine.execStatusSend s
  | .status x f => Sys2Proof.Machine.execStatus x f s
  | .nodeAgeing n => Sys2Proof.Machine.execNodeAgeing n s
  | .silentTimeout x => Sys2Proof.Machine.execSilentTimeout x s
  | .linkEvent x f => Sys2Proof.Machine.execLinkEvent x f s
  | .ack x f => Sys2Proof.Machine.execAck x f s
  | .retransmitTimeout n seq => Sys2Proof.Machine.execRetransmitTimeout n seq s
  | .regRd x f => Sys2Proof.Machine.execRegRd x f s
  | .regWr x f inp => Sys2Proof.Machine.execRegWr x f inp s
  | .regRsp x f => Sys2Proof.Machine.execRegRsp x f s
  | .remoteApertureAccess acc write o data => Sys2Proof.Machine.execRemoteApertureAccess acc write o data s
  | .event x f => Sys2Proof.Machine.execEvent x f s
  | .evqPop acc => Sys2Proof.Machine.execEvqPop acc s
  | .jobReq x f inp => Sys2Proof.Machine.execJobReq x f inp s
  | .bufRd x f inp => Sys2Proof.Machine.execBufRd x f inp s
  | .bufData x f => Sys2Proof.Machine.execBufData x f s
  | .bufWr x f inp => Sys2Proof.Machine.execBufWr x f inp s
  | .jobDone x f inp => Sys2Proof.Machine.execJobDone x f inp s
  | .jobAbort x f inp => Sys2Proof.Machine.execJobAbort x f inp s
  | .jobCancel x f => Sys2Proof.Machine.execJobCancel x f s
  | .pushData x f => Sys2Proof.Machine.execPushData x f s
  | .pushCtrl x f inp => Sys2Proof.Machine.execPushCtrl x f inp s
  | .pushRsp x f => Sys2Proof.Machine.execPushRsp x f s
  | .bulkPush acc c data mem => Sys2Proof.Machine.execBulkPush acc c data mem s
  | .bulkFetch acc c data => Sys2Proof.Machine.execBulkFetch acc c data s
  | .bulkProgressTimeout ch => Sys2Proof.Machine.execBulkProgressTimeout ch s
  | .claimLinkFrame claim echo flags ok => Sys2Proof.Machine.execClaimLinkFrame claim echo flags ok s
  | .claimLinkStale => Sys2Proof.Machine.execClaimLinkStale s
  | .pairReqRenew acc data => Sys2Proof.Machine.execPairReqRenew acc data s
  | .pairReqClaim acc data => Sys2Proof.Machine.execPairReqClaim acc data s
  | .requestExpiry => Sys2Proof.Machine.execRequestExpiry s
  | .pairGrantGo acc data => Sys2Proof.Machine.execPairGrantGo acc data s
  | .leaseExpiry => Sys2Proof.Machine.execLeaseExpiry s
  | .holdoffEnd => Sys2Proof.Machine.execHoldoffEnd s
  | .pairBeatSend => Sys2Proof.Machine.execPairBeatSend s
  | .pairBeat x f => Sys2Proof.Machine.execPairBeat x f s
  | .beatTimeout => Sys2Proof.Machine.execBeatTimeout s
  | .claimRequestRepeat => Sys2Proof.Machine.execClaimRequestRepeat s
  | .healthReportTimer => Sys2Proof.Machine.execHealthReportTimer s
  | .pairHealthCtrl acc => Sys2Proof.Machine.execPairHealthCtrl acc s
  | .pairWarm acc data => Sys2Proof.Machine.execPairWarm acc data s
  | .mirrorSend acc data => Sys2Proof.Machine.execMirrorSend acc data s
  | .mirrorCounter x f => Sys2Proof.Machine.execMirrorCounter x f s
  | .mirrorQuarantine x f => Sys2Proof.Machine.execMirrorQuarantine x f s
  | .mirrorFirmwareRecord kind x f => Sys2Proof.Machine.execMirrorFirmwareRecord kind x f s
  | .pairMrxPop acc => Sys2Proof.Machine.execPairMrxPop acc s
  | .pairRequest x f => Sys2Proof.Machine.execPairRequest x f s
  | .pairHealthReport x f => Sys2Proof.Machine.execPairHealthReport x f s
  | .pairWinPop acc => Sys2Proof.Machine.execPairWinPop acc s
  | .pairWoutSend acc data => Sys2Proof.Machine.execPairWoutSend acc data s
  | .evhRouteWrite acc src data => Sys2Proof.Machine.execEvhRouteWrite acc src data s
  | .msixResend fn v => Sys2Proof.Machine.execMsixResend fn v s
  | .pwrDomainEnWrite acc data => Sys2Proof.Machine.execPwrDomainEnWrite acc data s
  | .domainSwitchDone => Sys2Proof.Machine.execDomainSwitchDone s
  | .restEnter acc data => Sys2Proof.Machine.execRestEnter acc data s
  | .restCancel acc data => Sys2Proof.Machine.execRestCancel acc data s
  | .restCoresHalted => Sys2Proof.Machine.execRestCoresHalted s
  | .restEntered => Sys2Proof.Machine.execRestEntered s
  | .wakeTimer => Sys2Proof.Machine.execWakeTimer s
  | .wakeComplete => Sys2Proof.Machine.execWakeComplete s
  | .timebaseLossPersists => Sys2Proof.Machine.execTimebaseLossPersists s
  | .heartbeat x => Sys2Proof.Machine.execHeartbeat x s
  | .ackDelayExpiry n => Sys2Proof.Machine.execAckDelayExpiry n s
  | .malformedFrame x crc => Sys2Proof.Machine.execMalformedFrame x crc s
  | .svcInvalidFrame hdrOk type seq payload => Sys2Proof.Machine.execSvcInvalidFrame hdrOk type seq payload s
  | .grantFrame x f => Sys2Proof.Machine.execGrantFrame x f s
  | .snoopedFlashCommand n fa data poll => Sys2Proof.Machine.execSnoopedFlashCommand n fa data poll s
  | .prgIndexTimeout idx ws => Sys2Proof.Machine.execPrgIndexTimeout idx ws s
  | .configWrite fn f => Sys2Proof.Machine.execConfigWrite fn f s
  | .msixTableWrite fn v addr data masked => Sys2Proof.Machine.execMsixTableWrite fn v addr data masked s
  | .unexpectedCompletion => Sys2Proof.Machine.execUnexpectedCompletion s
  | .testLogicReset => Sys2Proof.Machine.execTestLogicReset s

end Sys2Proof.Machine
end

