-- ==== Sys2Proof/Safety.lean ====
section
/-! DEFINITION. Safety.lean: what a safe run is, in the terms the statements use. -/
namespace Sys2Proof.Machine

/-- Every memory of the state is in canonical form (`Tbl.wf`): equal contents are equal data. -/
def memoriesWf (s : State) : Bool :=
  Tbl.wf resetValue s.regs && Tbl.wf zeroByte s.sram && Tbl.wf zeroByte s.bootSram && Tbl.wf zeroByte s.dillMem &&
  Tbl.wf (fun _ => (0 : Word)) s.fuseR && Tbl.wf (fun _ => (0 : Word)) s.fuseS && Tbl.wf (fun _ => (0 : Word)) s.fuseU &&
  Tbl.wf (fun _ => (0 : Nat)) s.ctr

/-- Copies of counter `c` are lost: both failed their check when a reconcile looked (R321, R323). -/
def ctrLost (s : State) (c : Nat) : Prop := (c, none, none) ∈ s.torn

/-- The counters whose two copies differ are named once each, and a reconcile would take no value below the counter's; a counter
both of whose copies are lost is failed (R321, R323). -/
def countersWf (s : State) : Prop :=
  (s.torn.map (·.1)).Nodup ∧ ∀ t ∈ s.torn, match reconciled t.2.1 t.2.2 with
    | some v => counter s t.1 ≤ v
    | none => t.1 ∈ s.ctrFailed

/-- A command in `s` answers a next state: `u`, whose events the hub then delivers (R460 to R466), and `P` holds of `u`. -/
def completes (c : Instr) (s : State) (P : State → Prop) : Prop := ∃ u, exec c s = .next (settle u) ∧ P u

/-! ### Register writes that their page serves (R15, R16, R69, R70, R73) -/

/-- A word write by `a` at page offset `o` of copy `i` of a page reaches it: no reset is in force and the master is no core that a reset
has halted, the device is not in Rest or the master is none of the host's, the page answers, and the master may write there. -/
def served (s : State) (a : Acc) (k : PageKind) (i o : Nat) : Bool :=
  decide (s.rst = .none) && !silent s a && (decide (pwrState s = 0) || (decide (a.master ≠ 0x10) && decide (vfOf a = 0))) &&
  decide (reg k i o < 0x1000000) && decide (pageOf (reg k i o) = .page k i) && (writeCause s a (reg k i o) 4).isNone
/-- The same, and the bits that ignore the write of `w` hold what it writes. -/
def takes (s : State) (a : Acc) (k : PageKind) (i o : Nat) (w : Word) : Bool :=
  served s a k i o && decide ((w ^^^ shown s k i o) &&& ignoredBits s k i o = 0)
/-- What a served write of `w` records beside its effect: cause 5 where the bits that ignore it hold something else (R16, R79). -/
def noted (s : State) (a : Acc) (k : PageKind) (i o : Nat) (w : Word) : State :=
  if (w ^^^ shown s k i o) &&& ignoredBits s k i o = 0 then s else busLog s a true (reg k i o) 4 w .readOnly

/-- `n` registers from page offset `first`, `stride` bytes apart. -/
structure RegSpan where
  page : PageKind
  first : Nat
  stride : Nat
  n : Nat
/-- A page offset is one of the span's registers. -/
def RegSpan.has (r : RegSpan) (k : PageKind) (o : Nat) : Bool :=
  decide (r.page = k) && (List.range r.n).any fun j => decide (o = r.first + r.stride * j)
/-- Registers that hold what is written to them, which nothing acts on before a later command or event. -/
def heldRegs : List RegSpan := [
  ⟨.rom, 0x400, 4, 128⟩, ⟨.rom, 0x120, 4, 2⟩, ⟨.pwr, 0x050, 4, 1⟩, ⟨.evh, 0x060, 16, 4⟩, ⟨.tem, 0x044, 4, 2⟩, ⟨.fus, 0x048, 4, 1⟩,
  ⟨.cst, 0x084, 16, 4⟩, ⟨.cst, 0x088, 16, 4⟩, ⟨.kv, 0x048, 4, 1⟩, ⟨.atu, 0x044, 4, 1⟩, ⟨.svc, 0x044, 4, 1⟩, ⟨.svc, 0x200, 4, 64⟩,
  ⟨.i3c, 0x040, 4, 1⟩, ⟨.i3c, 0x058, 4, 1⟩, ⟨.pair, 0x080, 4, 44⟩, ⟨.pair, 0x180, 4, 8⟩, ⟨.pair, 0x200, 4, 64⟩, ⟨.pair, 0x700, 4, 36⟩] ++ [
  ⟨.lms, 0x0A0, 4, 4⟩, ⟨.lms, 0x0C0, 32, 4⟩, ⟨.lms, 0x0C4, 32, 4⟩, ⟨.cje, 0x048, 4, 2⟩, ⟨.cje, 0x058, 4, 1⟩, ⟨.itu, 0x040, 4, 1⟩,
  ⟨.vst, 0x054, 4, 1⟩, ⟨.vst, 0x05C, 4, 1⟩, ⟨.du, 0x044, 4, 1⟩, ⟨.fgpCtl, 0x058, 4, 4⟩, ⟨.fgpMb, 0x050, 4, 1⟩, ⟨.fgpMb, 0x200, 4, 64⟩,
  ⟨.inst, 0x098, 4, 1⟩, ⟨.inst, 0x0A0, 4, 2⟩, ⟨.inst, 0x0B4, 4, 2⟩, ⟨.inst, 0x0C0, 4, 1⟩, ⟨.inst, 0x140, 4, 22⟩, ⟨.inst, 0x400, 4, 2⟩,
  ⟨.inst, 0x410, 4, 1⟩, ⟨.inst, 0x42C, 4, 1⟩, ⟨.inst, 0xC00, 4, 256⟩]
/-- The register at page offset `o` is such a register. -/
def holds (k : PageKind) (o : Nat) : Bool := heldRegs.any fun r => r.has k o

/-! ### Counted durations (R52, R55) -/

/-- A counted duration runs, and time counts. -/
def running (s : State) (t : Timer) : Bool := (tget s t).isSome && !s.tbLoss
/-- The state in which the event at the end of a running duration happens: its cycles have passed and it has stopped. -/
def expired (s : State) (t : Timer) : State := tstop (elapse s ((tget s t).getD 0)) t

/-! ### Platform commands (R83, R85, R86, R113) -/

/-- A command with opcode `op` and extension byte `ext` reaches port `n`, and the port's mode supports it as class `c`. -/
def accepts (s : State) (n : Nat) (op ext : Byte) (c : OpClass) : Bool :=
  portOn s n && (!(port s n).mode.octal || extOk s n op ext) && decide (opClass (port s n).mode op = some c)
/-- Port `n` with a platform command just begun: Pn_CS_N has risen after the one before it. -/
def begun (s : State) (n : Nat) : State :=
  modPort (csRise s n) n fun p => { p with rstEn := false, live := some {} }
/-- The same with a command that clears WEL when it ends. -/
def begunWrite (s : State) (n : Nat) : State := clearsWel (begun s n) n
/-- The platform address a read begins at: even in mode 8D-8D-8D (R87, R113). -/
def readAddr (s : State) (n : Nat) (op : Byte) (addr : Nat) : Nat :=
  if (port s n).mode = .m8d then platAddr (port s n) op addr / 2 * 2 else platAddr (port s n) op addr

/-! ### Verified blocks and jobs (R146, R198, R208) -/

/-- Block `b` of window `w` of port `n` filled with bytes that match its leaf: its frame VALID, the block counted in the fill fold. -/
def blockFilled (s : State) (n w b : Nat) (d : WinDesc) (data : Bytes) : State :=
  let f := d.frm + (b - d.b)
  countFill (setFrame s f { frame s f with st := .valid, image := d.img, leaf := d.lf + (b - d.b), win := w, data := data })
    n (sha512 data) (d.lf + (b - d.b))
/-- The job of `tag` can run to its verdict: `j`, RUNNING at its own node, with its inputs read, which leaves the state `t` and the page
accesses `ws`. -/
def runs (s : State) (tag : Nat) (j : Job) (io : JobIO) (t : State) (ws : List Walk) : Bool :=
  decide (job? s tag = some j) && decide (j.st = .running) && j.done.isNone && j.fwd.isNone && inputsIn j &&
  !laneLost s j && decide (fetchInputs s tag j io = (t, some ws))

/-- A job that runs has its verdict: its unit's counters, then its completion (R200, R219). -/
def ended (s : State) (tag : Nat) (j : Job) (x : JobRes) (ws : List Walk) : State :=
  finish (if x.ran then countUnit s j j.pos (signedLen s j x) else s) tag x ws

/-- The first `n` bytes of boot SRAM zeroed (R296). -/
def bootZeroed (s : State) (n : Nat) : State := { s with bootSram := s.bootSram.clearRange 0 n }

/-- A request of type `t` and number `q` is executed when its frame arrives: the port works, no request waits, and neither of the two
latest answers is its own (R369, R371). -/
def newRequest (s : State) (t q : Nat) : Bool :=
  svcUp s && s.svc.queue.isEmpty && !(s.svc.answered.any fun a => a.1 == t && a.2.1 == q)
/-- The state once a valid header has arrived at the service port: a wake source, a new rate stands (R370), and a valid request
restarts the session's time (R372). -/
def arrived (s : State) (valid : Bool) : State :=
  let s := wakeSource s 4
  let s := tstop { s with svc := { s.svc with oldDiv := none } } .svcRevert
  if s.svc.session ∧ valid then tset s .svcSession (ms 10000) else s

/-! ### Frames of the ring that this node takes (R409 to R412) -/

/-- A well-formed frame for this node arrives on side `x`, which is UP and not wrapped, while the device is not in Rest. -/
def reaches (s : State) (x : Nat) (f : Frame17) : Bool :=
  sideOn s x && sideUp s x && frameOk f && !(side s x).wrapped && decide (f.dst = myNode s) && decide (pwrState s = 0) &&
  decide (f.type ≠ 1) && decide (f.type ≠ 2) && decide (f.type ≠ 3)
/-- A word access by `a` at offset `o` of the remote aperture is served (R14, R73, R418). -/
def opens (s : State) (a : Acc) (write : Bool) (o : Nat) : Bool :=
  decide (s.rst = .none) && !silent s a && decide (pwrState s = 0) && decide (o < 0x400000) &&
  (if write then (writeCause s a (0xC00000 + o) 4).isNone else (readCause s a (0xC00000 + o) 4).isNone)
/-- The LINK_HELLO that this node sends on side `x` (R406). -/
def helloFrame (s : State) (x : Nat) : Frame17 :=
  { type := 0x01, dst := 0xFF, src := myNode s, srcInc := s.incarnation,
    payload := leBytes 1 (myNode s) ++ leBytes 1 x ++ leBytes 4 s.part.cap }
/-- The silent timer restarted and the frame counted. -/
def frameHeard (s : State) (x : Nat) : State :=
  rcount (if sideUp s x then tset s (.silent x) 791 else s) (reg .lms x 0x04C) 31 0 1
/-- The frame heard and the acknowledgement it carries taken. -/
def frameTaken (s : State) (x : Nat) (f : Frame17) : State := ackIn (frameHeard s x) f
/-- The reliable frame is the next one of its source, sent to this incarnation. -/
def isNext (s : State) (x : Nat) (f : Frame17) : Bool :=
  reaches s x f && reliable f.type && (decide (f.dstInc = 0) || decide (f.dstInc = s.incarnation)) &&
  decide (f.seq = (peer (frameTaken s x f) f.src).rxNext) && decide ((frameTaken s x f).incarnation = s.incarnation)
/-- A reliable frame is counted in order: the next number is expected, and its acknowledgement is due within 2 µs. -/
def orderTaken (t : State) (f : Frame17) : State :=
  let p := peer t f.src
  let t := setPeer t f.src { p with rxNext := (p.rxNext + 1) % 65536, held := p.held.filter fun h => !(h.1.seq == f.seq) }
  if (tget t (.ackDelay f.src)).isSome then t else tset t (.ackDelay f.src) 200
/-- The state in which such a frame has its effect. -/
def inOrder (s : State) (x : Nat) (f : Frame17) : State := orderTaken (frameTaken s x f) f
/-- The state after such a frame's effect `u`: frames held behind it that are now in order follow, and a change of the ring's state is
noted. -/
def afterFrame (s : State) (f : Frame17) (u : State) : State := ringNote s (takeHeld f.src 8 u)

/-- States reached from `s` by `n` steps, none stopping. -/
inductive Reaches : Nat → State → State → Prop
  | here (s : State) : Reaches 0 s s
  | step (n : Nat) (s t u : State) : step s = .next t → Reaches n t u → Reaches (n + 1) s u

/-- The run from `s` never stops. -/
def runsOn (s : State) : Prop := ∀ n, ∃ t, Reaches n s t

end Sys2Proof.Machine
end

