-- ==== Sys2Proof/Certificates/Slice0/Obligations.lean ====
section
/-! DEFINITION. Certificates/Slice0/Obligations.lean: the statements for the provers. -/
open Sys2Proof Sys2Proof.Machine

/-- The model's queue: the command at the front has its effect with the rest of the queue left waiting; with nothing waiting one TBCLK
  cycle passes, but not in POR or timebase loss (the model's choice, assumption log 6).  The idle clauses are for states with no
  SQUASHING job, whose tag an idle step frees (assumption log 15). -/
def Obligations.StepRunsTheFrontCommand : Prop :=
  (∀ (c : Instr) (rest : List Instr) (s : State), s.pending = c :: rest →  step s = exec c { s with pending := rest }) ∧
  (∀ (s : State), s.pending = [] → s.rst ≠ .por → s.tbLoss = false → ((s.jobs.all fun e => decide (e.2.st ≠ .squashing)) =
       true) →
       let hw := s.hw.bind fun h => if h.2 ≤ 1 then none else some (h.1, h.2 - 1)
       step s = .next { s with tbTime := (s.tbTime + 1) % 2 ^ 64, timers := s.timers.map (fun e => (e.1, e.2 - 1)), flashLanes := [], hw := hw }) ∧
  (∀ (s : State), s.pending = [] → (s.rst = .por ∨ s.tbLoss = true) → ((s.jobs.all fun e => decide (e.2.st ≠ .squashing)) =
       true) →  step s = .next s)

/-- R15, R16, R70, R73, R79, R80: a served write of a register of `heldRegs` stores the word that its access codes give, with a record
  of cause 5 where a field that ignores the write differs; a write that no page serves is recorded and changes nothing else.  R463,
  R471, R472: routing entries, those of VF sources without their CORE fields.  R79: BOOT_BERR_CTRL empties the log, and what a record
  holds. -/
def Obligations.RegisterWriteRights : Prop :=
  (∀ (s : State) (a : Acc) (k : PageKind) (i o : Nat) (w : Word), holds k o = true → served s a k i o = true →
       exec (.registerWrite a (reg k i o) 4 w {}) s = .next (settle (rset (noted s a k i o w) (reg k i o) (takenWord s k i o w)))) ∧
  (∀ (s : State) (a : Acc) (off size : Nat) (w : Word) (c : Cause), silent s a = false → (pwrState s = 0 ∨ (a.master ≠ 0x10 ∧
       vfOf a = 0)) → off < 0x1000000 → writeCause s a off size = some c → (c ≠ .rights ∨ (pageOf off ≠ .page .bwd 0 ∧ pageOf off
       ≠ .page .twd 0)) →  exec (.registerWrite a off size w {}) s = .next (settle (busLog s a true off size w c))) ∧
  (∀ (s : State) (a : Acc) (off size : Nat) (w : Word) (inp : BusIn), (silent s a = true ∨ off ≥ 0x1000000) →
       exec (.registerWrite a off size w inp) s = .next (settle s)) ∧
  (∀ (s : State) (a : Acc) (src : Nat) (w : Word), src < 316 → takes s a .evhRoute (src / 192) (0x100 + 4 * (src % 192)) w =
       true → sourceAbsent s.part src = false → pageLocked s .evhRoute (src / 192) = false →
       exec (.evhRouteWrite a src w) s = .next (settle (rset s (reg .evhRoute (src / 192) (0x100 + 4 * (src % 192)))
         (takenWord s .evhRoute (src / 192) (0x100 + 4 * (src % 192)) w)))) ∧
  (∀ (s : State) (a : Acc) (src : Nat) (w : Word), 316 ≤ src → src < 576 → takes s a .evhRoute (src / 192) (0x100 + 4 * (src %
       192)) w = true → sourceAbsent s.part src = false → pageLocked s .evhRoute (src / 192) = false → takenWord s .evhRoute (src
       / 192) (0x100 + 4 * (src % 192)) w &&& 0x7F00 = 0 →
       exec (.evhRouteWrite a src w) s = .next (settle (rset s (reg .evhRoute (src / 192) (0x100 + 4 * (src % 192)))
         (takenWord s .evhRoute (src / 192) (0x100 + 4 * (src % 192)) w &&& 0xFFFF80FF)))) ∧
  (∀ (s : State) (a : Acc), served s a .cap 0 0x084 = true →
       exec (.berrClear a) s = .next (settle (rset (noted s a .cap 0 0x084 1) (reg .cap 0 0x080) 0))) ∧
  (∀ (s : State) (a : Acc) (write : Bool) (off size e n : Nat) (w : Word) (c : Cause), pageUp s .cap 0 = true → e = rfld s (reg
       .cap 0 0x080) 11 8 → n = rfld s (reg .cap 0 0x080) 4 0 →
       let u := busLog s a write off size w c
       rget u (reg .cap 0 (0x100 + 16 * e)) = BitVec.ofNat 32 (off % 2 ^ 24) ∧
         rget u (reg .cap 0 (0x104 + 16 * e)) = (mk 7 0 a.master.toNat ||| mk 8 8 (b2n write) ||| mk 9 9 (b2n a.priv) |||
           mk 11 10 (if size = 1 then 0 else if size = 2 then 1 else if size = 4 then 2 else 3) ||| mk 15 12 c.code) ∧
         rget u (reg .cap 0 (0x108 + 16 * e)) = (if write then w else 0) ∧ rget u (reg .cap 0 (0x10C + 16 * e)) = BitVec.ofNat 32 s.tbTime ∧
         rfld u (reg .cap 0 0x080) 4 0 = min (n + 1) 16 ∧ rfld u (reg .cap 0 0x080) 11 8 = (e + 1) % 16 ∧
         rfld u (reg .cap 0 0x080) 31 16 = satAdd (rfld s (reg .cap 0 0x080) 31 16) 1 65535 ∧ rbit u (reg .cap 0 0x010) 0 = true ∧
         (n = 16 → rbit u (reg .cap 0 0x010) 1 = true) ∧ u = { s with regs := u.regs })

/-- R65, R66: interrupt bits are cleared by writing one, set through the force register where the page implements them, the lock is set
  and stays, and the error record is emptied by writing one to its valid bit.  Only the named header register changes, beside a record
  of cause 5 where read-only bits differ (R16).  Writes to the task watchdog's page wait while the timebase is lost (R351). -/
def Obligations.PageHeaderCommands : Prop :=
  (∀ (s : State) (a : Acc) (k : PageKind) (i page : Nat) (w : Word), served s a k i 0x010 = true → (k ≠ .twd ∨ s.tbLoss =
       false) → page * 4096 = reg k i 0 →
       exec (.pageIrqClear a page w) s = .next (settle (rset s (reg k i 0x010) (rget s (reg k i 0x010) &&& ~~~ w)))) ∧
  (∀ (s : State) (a : Acc) (k : PageKind) (i page : Nat) (w : Word), served s a k i 0x018 = true → (k ≠ .twd ∨ s.tbLoss =
       false) → page * 4096 = reg k i 0 →
       exec (.pageIrqForce a page w) s = .next (settle (rset s (reg k i 0x010) (rget s (reg k i 0x010) ||| (w &&& irqMask k i))))) ∧
  (∀ (s : State) (a : Acc) (k : PageKind) (i : Nat) (w : Word), served s a k i 0x014 = true → (k ≠ .twd ∨ s.tbLoss = false) →
       exec (.registerWrite a (reg k i 0x014) 4 w {}) s = .next (settle (rset s (reg k i 0x014) (w &&& irqMask k i)))) ∧
  (∀ (s : State) (a : Acc) (k : PageKind) (i page : Nat), served s a k i 0x01C = true → (k ≠ .twd ∨ s.tbLoss = false) → page *
       4096 = reg k i 0 →  exec (.pageLock a page) s = .next (settle (rset s (reg k i 0x01C) 1))) ∧
  (∀ (s : State) (a : Acc) (k : PageKind) (i page : Nat) (w : Word), served s a k i 0x020 = true → (k ≠ .twd ∨ s.tbLoss =
       false) → page * 4096 = reg k i 0 →
       exec (.pageErrClear a page w) s =
         .next (settle (rset (noted s a k i 0x020 (w ||| 0x80000000)) (reg k i 0x020) 0)))

/-- R54 to R60: TB_TIME is read low word first with its high word latched; a delay-monitor measurement runs 1,024 cycles from its start;
  one that nothing spoils ends with a count, which is a free value (Config.dlymonCount, assumption log 3), and interrupt bit 2, and is
  valid where the selection is unchanged (the model's choice, assumption log 81).  The loss of the timebase records TB_TIME, is counted
  and sets bit 0, and its return, stated where no work waits for it, sets bit 1. -/
def Obligations.TimebaseCommands : Prop :=
  (∀ (s : State) (a : Acc), silent s a = false → (pwrState s = 0 ∨ (a.master ≠ 0x10 ∧ vfOf a = 0)) → pageUp s .tb 0 = true →
       mayRead s a (.page .tb 0) = true →
       exec (.tbTimeRead a) s = .next (settle (emit (rset s (reg .tb 0 0x048) (BitVec.ofNat 32 (s.tbTime / 2 ^ 32)))
         (.bus a.master (reg .tb 0 0x044) (BitVec.ofNat 32 s.tbTime))))) ∧
  (∀ (s : State) (a : Acc) (w : Word), served s a .tb 0 0x050 = true → s.dly = none →
       completes (.dlymonStart a w) s fun u => tget u .dlymon = some 1024 ∧
         u.dly = some ⟨fld w 6 0, fld w 9 8, !islandOk s.part (fld w 6 0) (fld w 9 8) ||
           (match islandDomain (fld w 6 0) with | some b => !domOn s b | none => false) || s.tbLoss⟩ ∧
         rget u (reg .tb 0 0x050) = w &&& 0x37F ∧ rget u (reg .tb 0 0x054) = 0x80000000 ∧
         u = { s with regs := u.regs, timers := u.timers, dly := u.dly }) ∧
  (∀ (s : State) (a : Acc) (w : Word), served s a .tb 0 0x050 = true → s.dly ≠ none →
       exec (.dlymonStart a w) s = .next (settle (busLog s a true (reg .tb 0 0x050) 4 (w ||| 0x80000000) .busy))) ∧
  (∀ (s : State) (r : DlyRun), running s .dlymon = true → s.dly = some r → r.spoiled = false →
       exec .dlymonDone s = .next (settle (
         rset (rsetb { expired s .dlymon with dly := none, fresh := s.fresh + 1 } (reg .tb 0 0x010) 2 true) (reg .tb 0 0x054)
           (mk 30 30 (b2n (decide (fld (rget s (reg .tb 0 0x050)) 6 0 = r.island ∧ fld (rget s (reg .tb 0 0x050)) 9 8 = r.kind))) |||
             (Config.dlymonCount s.fresh).setWidth 32)))) ∧
  (∀ (s : State) (r : DlyRun), running s .dlymon = true → s.dly = some r → r.spoiled = true →
       exec .dlymonDone s = .next (settle (rset { expired s .dlymon with dly := none } (reg .tb 0 0x054) 0))) ∧
  (∀ (s : State) (lost : Bool), s.rst ≠ .por → s.tbLoss = false →
       let t := rcount (rset s (reg .tb 0 0x04C) (BitVec.ofNat 32 s.tbTime)) (reg .tb 0 0x040) 31 16 1
       let t := rsetb { t with tbLoss := true, tbLocked := !lost, dly := s.dly.map fun r => { r with spoiled := true } } (reg .tb 0 0x010) 0 true
       exec (.timebaseLoss lost) s = .next (settle (if paired s then endClaim t 3 else t))) ∧
  (∀ (s : State) (lost : Bool), s.rst ≠ .por → s.tbLoss = true →
       exec (.timebaseLoss lost) s = .next (settle { s with tbLocked := !lost })) ∧
  (∀ (s : State), s.rst = .none → s.tbLoss = true → s.twdLate = [] → s.svc.held = [] → s.svc.stalled = false →
       s.pair.grantWaits = none → s.bf = none →
       exec .timebaseReturn s = .next (settle (
         { rsetb { s with tbLoss := false, tbLocked := true } (reg .tb 0 0x010) 1 true with
           tem := { s.tem with met := s.tem.met.filter (· != 0x41) } }))) ∧
  (∀ (s : State), s.rst = .none → s.tbLoss = true → s.tem.met.contains 0x41 = false →
       exec .timebaseLossPersists s =
         .next (settle (alarm { s with tem := { s.tem with excs := s.tem.excs.erase 0x41, met := 0x41 :: s.tem.met } } 0x41)))

/-- R83, R87, R94, R95, R99, R104, R113, R118, R119, R122, R148, R149: reads by the window they lie in, in the state of the port with
  the command begun; reads that no window serves; legacy reads; and the tables the port makes up. -/
def Obligations.PlatformReads : Prop :=
  (∀ (s t : State) (n : Nat) (op ext : Byte) (g addr len pa w : Nat) (inp : ReadIn) (d : WinDesc), accepts s n op ext (.read g)
       = true → t = begun s n → pa = readAddr t n op addr → (port t n).st.deciding = true → srcAt (port t n) pa = .resident w d →
       inp.ready = true → inp.ecc = [] → wrapLen (port t n) op = none → pa % 4096 + len ≤ 4096 → (frame t (d.frm + (pa / 4096 -
       d.b))).st = .valid →
       exec (.platformRead n op ext addr len inp) s = .next (settle (drive t n
         ((List.range len).map fun i => (frame t (d.frm + (pa / 4096 - d.b))).data.getD (pa % 4096 + i) 0)))) ∧
  (∀ (s t : State) (n : Nat) (op ext : Byte) (g addr len pa w : Nat) (inp : ReadIn) (d : WinDesc), accepts s n op ext (.read g)
       = true → t = begun s n → pa = readAddr t n op addr → (port t n).st.deciding = true → srcAt (port t n) pa = .resident w d →
       inp.ready = true → wrapLen (port t n) op = none → pa % 4096 + len ≤ 4096 → (frame t (d.frm + (pa / 4096 - d.b))).st ≠
       .valid →
       exec (.platformRead n op ext addr len inp) s =
         .next (settle (drive (rcount t (reg .du 0 (0x108 + 16 * n)) 23 16 1) n (ones len)))) ∧
  (∀ (s t : State) (n : Nat) (op ext : Byte) (g addr len pa w f c : Nat) (inp : ReadIn) (d : WinDesc), accepts s n op ext
       (.read g) = true → t = begun s n → pa = readAddr t n op addr → (port t n).st.deciding = true → srcAt (port t n) pa =
       .resident w d → inp.ready = true → inp.ecc = [] → wrapLen (port t n) op = none → c = 4096 - pa % 4096 → c < len → len ≤ c
       + 4096 → srcAt (port t n) ((pa / 4096 + 1) * 4096) = .resident w d → f = d.frm + (pa / 4096 - d.b) → (frame t f).st =
       .valid → (frame t (d.frm + (pa / 4096 + 1 - d.b))).st = .valid →
       exec (.platformRead n op ext addr len inp) s = .next (settle (drive t n
         (((List.range c).map fun i => (frame t f).data.getD (pa % 4096 + i) 0) ++
           (List.range (len - c)).map fun i => (frame t (d.frm + (pa / 4096 + 1 - d.b))).data.getD i 0)))) ∧
  (∀ (s t : State) (n : Nat) (op ext : Byte) (g addr len pa w c : Nat) (inp : ReadIn) (d : WinDesc), accepts s n op ext (.read
       g) = true → t = begun s n → pa = readAddr t n op addr → (port t n).st.deciding = true → srcAt (port t n) pa = .resident w
       d → inp.ready = true → inp.ecc = [] → wrapLen (port t n) op = none → c = 4096 - pa % 4096 → c < len → continues (port t n)
       (.resident w d) (srcAt (port t n) ((pa / 4096 + 1) * 4096)) (pa / 4096 + 1) = false → (frame t (d.frm + (pa / 4096 -
       d.b))).st = .valid →
       exec (.platformRead n op ext addr len inp) s = .next (settle (drive (crossEnds t n) n
         (((List.range c).map fun i => (frame t (d.frm + (pa / 4096 - d.b))).data.getD (pa % 4096 + i) 0) ++ ones (len - c))))) ∧
  (∀ (s t : State) (n : Nat) (op ext : Byte) (g addr len pa w : Nat) (inp : ReadIn) (d : WinDesc), accepts s n op ext (.read g)
       = true → t = begun s n → pa = readAddr t n op addr → (port t n).st.deciding = true → srcAt (port t n) pa = .forward w d →
       d.pol ≠ 2 → inp.ready = true → inp.under = none → wrapLen (port t n) op = none → pa % 4096 + len ≤ 4096 → s.tbLoss = false
       → (port t n).cs0Busy = false →
       exec (.platformRead n op ext addr len inp) s = .next (settle (drive
         (flashOut (modPort t n fun p => { p with live := some { forwards := true } }) n 0 (rfld t (reg .fgpCtl n 0x050) 7 0) (platFa (port t n) pa) len [])
         n ((List.range len).map fun i => inp.data.getD i 0xFF)))) ∧
  (∀ (s t : State) (n : Nat) (op ext : Byte) (g addr len pa w : Nat) (inp : ReadIn) (d : WinDesc), accepts s n op ext (.read g)
       = true → t = begun s n → pa = readAddr t n op addr → (port t n).st.deciding = true → srcAt (port t n) pa = .forward w d →
       s.tbLoss = true →
       exec (.platformRead n op ext addr len inp) s = .next (settle (drive
         (if rbit t (reg .fgpCtl n 0x0A0) 0 then t else irq (rsetb t (reg .fgpCtl n 0x0A0) 0 true) .fgpCtl n 3) n (ones len)))) ∧
  (∀ (s t : State) (n : Nat) (op ext : Byte) (g addr len pa w : Nat) (inp : ReadIn) (d : WinDesc), accepts s n op ext (.read g)
       = true → t = begun s n → pa = readAddr t n op addr → (port t n).st.deciding = true → srcAt (port t n) pa = .forward w d →
       s.tbLoss = false → (port t n).cs0Busy = true →
       exec (.platformRead n op ext addr len inp) s = .next (settle (drive (protoFlag t n 3 op ext) n (ones len)))) ∧
  (∀ (s t : State) (n : Nat) (op ext : Byte) (g addr len pa w : Nat) (inp : ReadIn) (d : WinDesc) (r : State × Nat), accepts s
       n op ext (.read g) = true → t = begun s n → pa = readAddr t n op addr → (port t n).st.deciding = true → srcAt (port t n)
       pa = .forward w d → d.pol = 2 → inp.ready = true → inp.under = none → wrapLen (port t n) op = none → pa % 4096 + len ≤
       4096 → s.tbLoss = false → (port t n).cs0Busy = false → (r = tapPiece (forwardRead t n pa len false) n ⟨platFa (port t n)
       (pa / 4096 * 4096), w, d.img, d.lf + (pa / 4096 - d.b), [], 0, none⟩ ((List.range len).map fun i => (pa % 4096 + i,
       inp.data.getD i 0xFF))) →
       exec (.platformRead n op ext addr len inp) s = .next (settle (drive r.1 n
         (((List.range len).map fun i => inp.data.getD i 0xFF).take r.2 ++ ones (len - r.2))))) ∧
  (∀ (s t : State) (n : Nat) (op ext : Byte) (g addr len pa w : Nat) (inp : ReadIn) (d : WinDesc), accepts s n op ext (.read g)
       = true → t = begun s n → pa = readAddr t n op addr → (port t n).st.deciding = true → srcAt (port t n) pa = .mailbox w d →
       inp.ready = true → wrapLen (port t n) op = none → pa % 4096 + len ≤ 4096 →
       exec (.platformRead n op ext addr len inp) s = .next (settle (drive t n
         ((List.range len).map fun i => mbByte (port t n) (pa % 4096 + i))))) ∧
  (∀ (s t : State) (n : Nat) (op ext : Byte) (g addr len pa w : Nat) (inp : ReadIn) (d : WinDesc), accepts s n op ext (.read g)
       = true → t = begun s n → pa = readAddr t n op addr → (port t n).st.deciding = true → (srcAt (port t n) pa = .resident w d
       ∨ srcAt (port t n) pa = .mailbox w d) → inp.ready = false →
       exec (.platformRead n op ext addr len inp) s = .next (settle (drive (protoFlag t n 2 op ext) n (ones len)))) ∧
  (∀ (s t : State) (n : Nat) (op ext : Byte) (g addr len r : Nat) (inp : ReadIn) (w : Option Nat), accepts s n op ext (.read g)
       = true → t = begun s n → (port t n).st.deciding = true → srcAt (port t n) (readAddr t n op addr) = .denied r w →
       exec (.platformRead n op ext addr len inp) s =
         .next (settle (drive (deny t n .read op (platAddr (port t n) op addr) r w) n (ones len)))) ∧
  (∀ (s t : State) (n : Nat) (op ext : Byte) (g addr len : Nat) (inp : ReadIn), accepts s n op ext (.read g) = true → t = begun
       s n → (port t n).st.deciding = false →
       exec (.platformRead n op ext addr len inp) s =
         .next (settle (drive (deny t n .read op (platAddr (port t n) op addr) 9 none) n (ones len)))) ∧
  (∀ (s t : State) (n : Nat) (op : Byte) (addr len pa w : Nat) (slow : Bool) (inp : ReadIn) (d : WinDesc), (op = 0x03 ∨ op =
       0x13) → accepts s n op 0 (.read 0) = true → t = begun s n → pa = readAddr t n op addr → (port t n).st.deciding = true →
       srcAt (port t n) pa = .resident w d → inp.ready = true → inp.ecc = [] → pa % 4096 + len ≤ 4096 → (frame t (d.frm + (pa /
       4096 - d.b))).st = .valid →
       exec (.legacyRead n op addr len slow inp) s = .next (settle (drive t n
         ((List.range len).map fun i => (frame t (d.frm + (pa / 4096 - d.b))).data.getD (pa % 4096 + i) 0)))) ∧
  (∀ (s : State) (n : Nat) (op : Byte) (addr len : Nat) (slow : Bool) (inp : ReadIn), (op = 0x03 ∨ op = 0x13) → accepts s n op
       0 (.read 0) = true →  exec (.legacyRead n op addr len slow inp) s = exec (.platformRead n op 0 addr len inp) s) ∧
  (∀ (s : State) (n addr len : Nat) (ext : Byte), accepts s n 0x5A ext .other = true → (port s n).mode = .m1s →
       exec (.readSfdp n ext addr len true) s = .next (settle (drive (begun s n) n
         ((List.range len).map fun i => (sfdpBytes (begun s n) n).getD (addr % 2 ^ 24 + i) 0xFF)))) ∧
  (∀ (s : State) (n addr len : Nat) (ext : Byte), accepts s n 0x5A ext .other = true → (port s n).mode = .m1s →
       exec (.readSfdp n ext addr len false) s = .next (settle (drive (protoFlag (begun s n) n 8 0x5A ext) n (ones len)))) ∧
  (∀ (s : State) (n addr len : Nat) (ext : Byte) (ready : Bool), accepts s n 0x5A ext .other = true → (port s n).mode ≠ .m1s →
       exec (.readSfdp n ext addr len ready) s = .next (settle (drive (begun s n) n
         ((List.range len).map fun i => (sfdpBytes (begun s n) n).getD (addr % 2 ^ 32 / 2 * 2 + i) 0xFF)))) ∧
  (∀ (s : State) (n len : Nat) (ext : Byte), accepts s n 0x9F ext .other = true →
       exec (.readId n ext len) s = .next (settle (drive (begun s n) n ((List.range len).map (idByte (begun s n) n))))) ∧
  (∀ (s : State) (n len : Nat) (u : Bool), accepts s n (if u then 0x4B else 0x48) 0 .other = true → (port s n).mode.octal =
       false →  exec (.securityIdRead n u len) s = .next (settle (drive (begun s n) n (ones len))))

/-- R55, R85, R92, R113 to R115, R120, R124, R331: programs and erases with WEL set are forwarded where their window permits them and
  denied with the reason that applies where it does not; with WEL clear they are ignored. -/
def Obligations.PlatformWrites : Prop :=
  (∀ (s t : State) (n : Nat) (op ext : Byte) (addr pa w : Nat) (data : Bytes) (d : WinDesc), accepts s n op ext .program = true
       → t = begunWrite s n → (port t n).wel = true → pa = platAddr (port t n) op addr → (¬ ((port t n).mode = .m8d ∧ (pa % 2 = 1
       ∨ data.length % 2 = 1))) → (port t n).st.deciding = true → srcAt (port t n) pa = .forward w d → d.pol ≠ 2 → d.progOk =
       true → (d.pol = 4 → bit (arms t n) w = true) → lastReasons t n = none →
       exec (.pageProgram n op ext addr data) s =
         .next (settle (forwardWrite t n (progOp t n) (platFa (port t n) pa) data))) ∧
  (∀ (s t : State) (n : Nat) (op ext : Byte) (addr pa w : Nat) (data : Bytes) (d : WinDesc), accepts s n op ext .program = true
       → t = begunWrite s n → (port t n).wel = true → pa = platAddr (port t n) op addr → (¬ ((port t n).mode = .m8d ∧ (pa % 2 = 1
       ∨ data.length % 2 = 1))) → (port t n).st.deciding = true → srcAt (port t n) pa = .resident w d →
       exec (.pageProgram n op ext addr data) s = .next (settle (deny t n .program op pa 3 (some w)))) ∧
  (∀ (s t : State) (n : Nat) (op ext : Byte) (addr pa w r : Nat) (data : Bytes) (d : WinDesc), accepts s n op ext .program =
       true → t = begunWrite s n → (port t n).wel = true → pa = platAddr (port t n) op addr → (¬ ((port t n).mode = .m8d ∧ (pa %
       2 = 1 ∨ data.length % 2 = 1))) → (port t n).st.deciding = true → srcAt (port t n) pa = .forward w d → r = (if d.pol = 2
       then 3 else if !d.progOk then 5 else if d.pol = 4 ∧ !bit (arms t n) w then 4 else (lastReasons t n).getD 0) → r ≠ 0 →
       exec (.pageProgram n op ext addr data) s = .next (settle (deny t n .program op pa r (some w)))) ∧
  (∀ (s t : State) (n : Nat) (op ext : Byte) (addr pa w : Nat) (data : Bytes) (d : WinDesc), accepts s n op ext .program = true
       → t = begunWrite s n → (port t n).wel = true → pa = platAddr (port t n) op addr → (port t n).mode = .m8d → (pa % 2 = 1 ∨
       data.length % 2 = 1) → (port t n).st.deciding = true → srcAt (port t n) pa = .forward w d →
       exec (.pageProgram n op ext addr data) s = .next (settle (deny (protoFlag t n 7 op ext) n .program op pa 11 (some w)))) ∧
  (∀ (s t : State) (n : Nat) (op ext : Byte) (addr pa : Nat) (data : Bytes) (win : Option Nat), accepts s n op ext .program =
       true → t = begunWrite s n → (port t n).wel = true → pa = platAddr (port t n) op addr → (¬ ((port t n).mode = .m8d ∧ (pa %
       2 = 1 ∨ data.length % 2 = 1))) → (port t n).st.deciding = true → srcAt (port t n) pa = .denied 1 win →
       exec (.pageProgram n op ext addr data) s = .next (settle (deny t n .program op pa 1 win))) ∧
  (∀ (s t : State) (n : Nat) (op ext : Byte) (addr pa : Nat) (data : Bytes), accepts s n op ext .program = true → t =
       begunWrite s n → (port t n).wel = true → pa = platAddr (port t n) op addr → (¬ ((port t n).mode = .m8d ∧ (pa % 2 = 1 ∨
       data.length % 2 = 1))) → (port t n).st.deciding = false →
       exec (.pageProgram n op ext addr data) s = .next (settle (deny t n .program op pa 9 none))) ∧
  (∀ (s t : State) (n : Nat) (op ext : Byte) (addr pa w : Nat) (data : Bytes) (d : WinDesc), accepts s n op ext .program = true
       → t = begunWrite s n → (port t n).wel = true → pa = platAddr (port t n) op addr → (¬ ((port t n).mode = .m8d ∧ (pa % 2 = 1
       ∨ data.length % 2 = 1))) → (port t n).st.deciding = true → srcAt (port t n) pa = .mailbox w d → pa = d.b * 4096 + 0x300 →
       (port t n).mbState ≠ 1 → data.length = 4 → 1 ≤ fld (wordAtLe data 0) 16 8 → fld (wordAtLe data 0) 16 8 ≤ 256 →
       exec (.pageProgram n op ext addr data) s = .next (settle (irq (modPort t n fun p =>
         { p with mbState := 1, mbReqSeq := fld (wordAtLe data 0) 7 0, mbDoor := wordAtLe data 0 }) .fgpMb n 0))) ∧
  (∀ (s : State) (n : Nat) (op ext : Byte) (addr : Nat) (data : Bytes), accepts s n op ext .program = true → (port (begun s n)
       n).wel = false →  exec (.pageProgram n op ext addr data) s = .next (settle (begunWrite s n))) ∧
  (∀ (s t : State) (n : Nat) (b : Bool) (op ext : Byte) (addr pa w : Nat) (d : WinDesc), op = (if b then 0x21 else 0x20) →
       accepts s n op ext (.erase 4) = true → t = begunWrite s n → (port t n).wel = true → pa = platAddr (port t n) op addr →
       (port t n).st.deciding = true → srcAt (port t n) pa = .forward w d → d.pol ≠ 2 → d.eraseOk 4 = true → d.b ≤ pa / 4096 → pa
       / 4096 ≤ d.l → (d.pol = 4 → bit (arms t n) w = true) → lastReasons t n = none →
       exec (.erase4K n b ext addr) s = .next (settle (forwardWrite t n 0x21 (platFa (port t n) pa) []))) ∧
  (∀ (s t : State) (n : Nat) (b : Bool) (op ext : Byte) (addr : Nat), op = (if b then 0x21 else 0x20) → accepts s n op ext
       (.erase 4) = true → t = begunWrite s n → (port t n).wel = true → (port t n).st.deciding = false →
       exec (.erase4K n b ext addr) s = .next (settle (deny t n .erase op (platAddr (port t n) op addr) 9 none))) ∧
  (∀ (s t : State) (n : Nat) (b : Bool) (op ext : Byte) (addr pa w r : Nat) (d : WinDesc), op = (if b then 0x21 else 0x20) →
       accepts s n op ext (.erase 4) = true → t = begunWrite s n → (port t n).wel = true → pa = platAddr (port t n) op addr →
       (port t n).st.deciding = true → srcAt (port t n) pa = .forward w d → (r = (if d.pol = 2 then 3 else if !d.eraseOk 4 then 6
       else if pa / 4096 < d.b ∨ d.l < pa / 4096 then 7 else if d.pol = 4 ∧ !bit (arms t n) w then 4 else (lastReasons t n).getD
       0)) → r ≠ 0 →  exec (.erase4K n b ext addr) s = .next (settle (deny t n .erase op pa r (some w)))) ∧
  (∀ (s t : State) (n : Nat) (b : Bool) (op ext : Byte) (addr pa w : Nat) (d : WinDesc), op = (if b then 0x5C else 0x52) →
       accepts s n op ext (.erase 32) = true → t = begunWrite s n → (port t n).wel = true → pa = platAddr (port t n) op addr →
       (port t n).st.deciding = true → srcAt (port t n) pa = .forward w d → d.pol ≠ 2 → d.eraseOk 32 = true → d.b ≤ pa / 4096 / 8
       * 8 → pa / 4096 / 8 * 8 + 7 ≤ d.l → (d.pol = 4 → bit (arms t n) w = true) → lastReasons t n = none →
       exec (.erase32K n b ext addr) s = .next (settle (forwardWrite t n 0x5C (platFa (port t n) pa) []))) ∧
  (∀ (s t : State) (n : Nat) (b : Bool) (op ext : Byte) (addr pa w : Nat) (d : WinDesc), op = (if b then 0xDC else 0xD8) →
       accepts s n op ext (.erase 64) = true → t = begunWrite s n → (port t n).wel = true → pa = platAddr (port t n) op addr →
       (port t n).st.deciding = true → srcAt (port t n) pa = .forward w d → d.pol ≠ 2 → d.eraseOk 64 = true → d.b ≤ pa / 4096 /
       16 * 16 → pa / 4096 / 16 * 16 + 15 ≤ d.l → (d.pol = 4 → bit (arms t n) w = true) → lastReasons t n = none →
       exec (.erase64K n b ext addr) s = .next (settle (forwardWrite t n 0xDC (platFa (port t n) pa) []))) ∧
  (∀ (s t : State) (n : Nat) (b : Bool) (op ext : Byte), op = (if b then 0xC7 else 0x60) → accepts s n op ext .latchWrite =
       true → t = begunWrite s n → (port t n).wel = true →
       exec (.chipErase n b ext) s = .next (settle (deny t n .latch op 0 12 none))) ∧
  (∀ (s t : State) (n : Nat) (op : Byte), (op = 0x42 ∨ op = 0x44 ∨ op = 0x36 ∨ op = 0x39 ∨ op = 0x7E ∨ op = 0x98) → accepts s n
       op 0 .latchWrite = true → t = begunWrite s n → (port t n).wel = true →
       exec (.protectionWrite n op) s = .next (settle (deny t n .latch op 0 12 none))) ∧
  (∀ (s : State) (n : Nat) (ext : Byte) (data : Bytes), accepts s n 0x01 ext .latchWrite = true → (s.locked = false ∨ (port
       (begun s n) n).wel = false) →  exec (.writeStatus n ext data) s = .next (settle (begunWrite s n))) ∧
  (∀ (s t : State) (n : Nat) (ext : Byte) (data : Bytes), accepts s n 0x01 ext .latchWrite = true → t = begunWrite s n → (port
       t n).wel = true → s.locked = true →  exec (.writeStatus n ext data) s = .next (settle (deny t n .latch 0x01 0 13 none))) ∧
  (∀ (s : State) (n : Nat) (b : Bool) (op ext : Byte), op = (if b then 0xC7 else 0x60) → accepts s n op ext .latchWrite = true
       → (port (begun s n) n).wel = false →  exec (.chipErase n b ext) s = .next (settle (begunWrite s n)))

/-- R83, R85 to R90: each command of the protocol level changes or drives what it names, in the port's state with that command begun. -/
def Obligations.PlatformStateCommands : Prop :=
  (∀ (s : State) (n : Nat) (ext : Byte), accepts s n 0x06 ext .other = true →
       exec (.writeEnable n ext) s = .next (settle (modPort (begun s n) n fun p => { p with wel := true, errInd := false }))) ∧
  (∀ (s : State) (n : Nat) (ext : Byte), accepts s n 0x04 ext .other = true →
       exec (.writeDisable n ext) s = .next (settle (modPort (begun s n) n fun p => { p with wel := false }))) ∧
  (∀ (s : State) (n : Nat) (ext : Byte), accepts s n 0x05 ext .other = true →
       exec (.readStatus n ext) s = .next (settle (drive (begun s n) n [statusByte (begun s n) n]))) ∧
  (∀ (s : State) (n : Nat) (ext : Byte), accepts s n 0x70 ext .other = true →
       exec (.readFlagStatus n ext) s = .next (settle (drive (begun s n) n [flagByte (begun s n) n]))) ∧
  (∀ (s : State) (n : Nat) (ext : Byte), accepts s n 0x35 ext .other = true →
       exec (.readRegister35 n ext) s = .next (settle (drive (begun s n) n [0x02]))) ∧
  (∀ (s : State) (n : Nat) (ext : Byte), accepts s n 0x15 ext .other = true →
       exec (.readRegister15 n ext) s = .next (settle (drive (begun s n) n [0x00]))) ∧
  (∀ (s : State) (n : Nat) (ext : Byte), accepts s n 0x85 ext .other = true →
       exec (.readMode n ext) s = .next (settle (drive (begun s n) n [(port s n).mode.byte]))) ∧
  (∀ (s : State) (n addr : Nat) (ext b : Byte) (m : PMode), accepts s n 0x81 ext .latchWrite = true → (port (begun s n) n).wel
       = true → s.locked = false → rbit s (reg .fgpCtl n 0x040) 5 = true → platAddr (port s n) 0x81 addr = 0 → PMode.ofByte b =
       some m → (protoSet s n).permits m.code = true →
       exec (.writeMode n ext addr [b]) s = .next (settle (modPort (begunWrite s n) n fun p => { p with mode := m }))) ∧
  (∀ (s : State) (n : Nat) (b : Byte), accepts s n 0x77 0 .other = true → (port s n).mode.octal = false → rbit s (reg .fgpCtl n
       0x040) 22 = true →
       exec (.setBurstWrap n b) s = .next (settle (modPort (begun s n) n fun p =>
         { p with wrap := if b.getLsbD 4 then none else some (b.toNat / 32 % 4) }))) ∧
  (∀ (s : State) (n : Nat), accepts s n 0xB7 0 .other = true →
       exec (.enter4Byte n) s = .next (settle (modPort (begun s n) n fun p => { p with addr4 := true }))) ∧
  (∀ (s : State) (n : Nat), accepts s n 0xE9 0 .other = true →
       exec (.exit4Byte n) s = .next (settle (modPort (begun s n) n fun p => { p with addr4 := false }))) ∧
  (∀ (s : State) (n : Nat) (ext : Byte), accepts s n 0x66 ext .other = true →
       exec (.resetEnable n ext) s = .next (settle (modPort (begun s n) n fun p => { p with rstEn := true }))) ∧
  (∀ (s : State) (n : Nat) (ext : Byte), accepts s n 0x99 ext .other = true → (port s n).rstEn = true →
       exec (.protocolReset n ext) s = .next (settle (protoReset (begun s n) n))) ∧
  (∀ (s : State) (n : Nat) (op ext : Byte), op ∈ ([0x75, 0x7A, 0xB0, 0x30, 0xB9, 0xAB] : Bytes) → accepts s n op ext .other =
       true →  exec (.noOpCommand n op ext) s = .next (settle (begun s n))) ∧
  (∀ (s : State) (n : Nat) (op ext : Byte), portOn s n = true → opClass (port s n).mode op = none → ((port s n).mode.octal =
       false ∨ extOk s n op ext = true) →
       exec (.unsupportedOpcode n op ext) s = .next (settle (protoFlag (begun s n) n 0 op ext)))

/-- R85, R92, R98, R100, R120, R121: the events of a port's flash side, each in the state in which its duration has passed. -/
def Obligations.FlashSideEvents : Prop :=
  (∀ (s : State) (n : Nat) (c : LiveCmd), portOn s n = true → (port s n).live = some c → c.writes = false → (port s n).pub =
       none → (port s n).seq ≠ .raising [] →
       exec (.platformCsDeassert n) s = .next (settle (modPort s n fun p =>
         { p with live := none, wel := p.wel && !c.clearsWel, errInd := p.errInd || c.denied }))) ∧
  (∀ (s : State) (n : Nat) (c : LiveCmd), portOn s n = true → (port s n).live = some c → c.writes = true → (port s n).pub =
       none → (port s n).seq ≠ .raising [] →
       completes (.platformCsDeassert n) s fun u => (port u n).cs0Busy = true ∧ (port u n).live = none ∧
         (port u n).wel = ((port s n).wel && !c.clearsWel) ∧ (port u n).errInd = ((port s n).errInd || c.denied) ∧
         tget u (.busyPoll n) = some (us 2) ∧
         tget u (.busyMax n) = some (ms (if rfld s (reg .fgpCtl n 0x04C) 23 16 = 0 then 255 else rfld s (reg .fgpCtl n 0x04C) 23 16)) ∧
         u = { s with ports := u.ports, timers := u.timers }) ∧
  (∀ (s : State) (n q len : Nat), portOn s n = true → (port s n).live = none → (port s n).pub = some (q, len) → (port s n).seq
       ≠ .raising [] →
       exec (.platformCsDeassert n) s = .next (settle (irq (modPort s n fun p =>
         { p with pub := none, mbRsp := (rbytes s (reg .fgpMb n 0x200) 64).take len, mbRspSeq := q,
                  mbStatus := rfld s (reg .fgpMb n 0x050) 15 0, mbState := 2 }) .fgpMb n 2))) ∧
  (∀ (s : State) (n : Nat), portOn s n = true → (port s n).live = none → (port s n).pub = none → (port s n).act = true → (port
       s n).seq = .raising [] →  exec (.platformCsDeassert n) s = .next (settle (flipSides s n))) ∧
  (∀ (s : State) (n : Nat), portOn s n = true → (port s n).cs0Busy = true → (port s n).live.any (·.forwards) = false → running
       s (.busyPoll n) = true →
       exec (.busyPoll n false) s =
         .next (settle (busyEnds (flashOut (expired s (.busyPoll n)) n 0 0x05 0 1 []) n))) ∧
  (∀ (s : State) (n : Nat), portOn s n = true → (port s n).cs0Busy = true → (port s n).live.any (·.forwards) = false → running
       s (.busyPoll n) = true →
       exec (.busyPoll n true) s =
         .next (settle (tset (flashOut (expired s (.busyPoll n)) n 0 0x05 0 1 []) (.busyPoll n) (us 2)))) ∧
  (∀ (s : State) (n : Nat), portOn s n = true → (port s n).cs0Busy = true → running s (.busyMax n) = true →
       completes (.cs0BusyTimeout n) s fun u => (port u n).cs0Busy = false ∧ (port u n).errInd = true ∧
         rbit u (reg .fgpCtl n 0x06C) 5 = true ∧ tget u (.busyPoll n) = none ∧ tget u (.busyMax n) = none ∧
         (rbit s (reg .fgpCtl n 0x020) 31 = false → rfld u (reg .fgpCtl n 0x020) 15 0 = 0x0E05)) ∧
  (∀ (s : State) (n : Nat), portOn s n = true → running s (.rstPulse n) = true →
       exec (.flashResetPulseEnd n) s = .next (settle (tset (expired s (.rstPulse n)) (.rstQuiet n) (us 50)))) ∧
  (∀ (s : State) (n : Nat), portOn s n = true → running s (.rstQuiet n) = true →
       exec (.flashResetQuietEnd n) s = .next (settle (modPort (expired s (.rstQuiet n)) n fun p =>
         if p.seq = .copy then { p with unitOn := !s.locked } else p)))

/-- R127, R133, R167 to R171, R179, R184, R186: each command of FGPn_CMD in a state that accepts it, and the refusals in their order. -/
def Obligations.PortCommands : Prop :=
  (∀ (s : State) (a : Acc) (n : Nat), takes s a .fgpCtl n 0x084 1 = true → cmdBusy s n = false → s.locked = false → (port s
       n).st = .held → startBad s n false = none →
       exec (.cmdMeasure a n) s = .next (settle (cmdStart (toState (modPort (clearMan (claimFrames s n) n) n fun p =>
         { p with sel := bit (abCtrl s n) 8, seq := .waitJob, fillCount := 0, fillFold := zeros 8 }) n .measuring) n 1))) ∧
  (∀ (s : State) (a : Acc) (n : Nat), takes s a .fgpCtl n 0x084 2 = true → cmdBusy s n = false → s.locked = false → (port s
       n).st = .releasePending → fld (checkNow s n) 15 0 ≠ 0x0E15 → fld (checkNow s n) 15 0 ≠ 0x0E17 →
       completes (.cmdRelease a n) s fun u => (port u n).st = .running ∧ (port u n).latched = some (latchNow s n) ∧
         (port u n).inForce = true ∧ (port u n).sel = bit (abCtrl s n) 8 ∧ (port u n).seq = .relD1 ∧
         tget u (.relD1 n) = some (us (rfld s (reg .fgpCtl n 0x08C) 15 4) + 1) ∧ cmdBusy u n = true ∧ u.out = s.out ∧
         u.frames = s.frames ∧ (∀ m, m ≠ n → port u m = port s m)) ∧
  (∀ (s : State) (a : Acc) (n : Nat), takes s a .fgpCtl n 0x084 2 = true → cmdBusy s n = false → s.locked = false → (port s
       n).st = .updateStaged →
       exec (.cmdRelease a n) s =
         .next (settle (cmdResult (modPort (toState s n .running) n fun p => { p with staged := none }) n 2 0))) ∧
  (∀ (s : State) (a : Acc) (n : Nat), takes s a .fgpCtl n 0x084 3 = true → cmdBusy s n = false → (port s n).st ≠ .held → (port
       s n).st ≠ .quarantined → (port s n).st ≠ .recovering → (port s n).seq ≠ .copy → (port s n).act = false →
       completes (.cmdHold a n) s fun u => (port u n).st = .held ∧ (port u n).prst = false ∧ (port u n).phold = false ∧
         (port u n).blocks = [] ∧ (port u n).trees = [] ∧ (port u n).staged = none ∧
         rfld u (reg .fgpCtl n 0x088) 19 16 = 3 ∧ (∀ f, (frame u f).owner ≠ some n) ∧ (∀ m, m ≠ n → port u m = port s m)) ∧
  (∀ (s : State) (a : Acc) (n : Nat), takes s a .fgpCtl n 0x084 3 = true → cmdBusy s n = true → (port s n).st ≠ .held → (port s
       n).st ≠ .quarantined → (port s n).act = true → (port s n).seq = .treeLoad →
       exec (.cmdHold a n) s =
         .next (settle (modPort (rsetf s (reg .fgpCtl n 0x088) 19 16 3) n fun p => { p with hold := true }))) ∧
  (∀ (s : State) (a : Acc) (n : Nat), takes s a .fgpCtl n 0x084 3 = true → cmdBusy s n = false → (port s n).st = .held →
       exec (.cmdHold a n) s = .next (settle (cmdResult s n 3 0))) ∧
  (∀ (s : State) (a : Acc) (n : Nat), takes s a .fgpCtl n 0x084 4 = true → cmdBusy s n = false → s.locked = false → (port s
       n).st = .running →
       exec (.cmdStage a n) s =
         .next (settle (cmdResult (modPort (toState s n .updateStaged) n fun p => { p with staged := none }) n 4 0))) ∧
  (∀ (s : State) (a : Acc) (n : Nat) (m : Manifest), takes s a .fgpCtl n 0x084 5 = true → cmdBusy s n = false → s.locked =
       false → (port s n).st = .updateStaged → (port s n).staged = some m →
       exec (.cmdActivate a n) s =
         .next (settle (cmdStart (modPort (holdPins s n) n fun p => { p with seq := .actQuiesce, act := true, next := some m }) n 5))) ∧
  (∀ (s : State) (a : Acc) (n : Nat), takes s a .fgpCtl n 0x084 5 = true → cmdBusy s n = false → s.locked = false → (port s
       n).st = .updateStaged → (port s n).staged = none →  exec (.cmdActivate a n) s = .next (settle (refuseCmd s n 5 0x0E3B))) ∧
  (∀ (s : State) (a : Acc) (n : Nat), takes s a .fgpCtl n 0x084 6 = true → cmdBusy s n = false → s.locked = false → (port s
       n).st = .held → startBad s n true = none →
       exec (.cmdRecover a n) s = .next (settle (cmdStart (toState (modPort (claimFrames s n) n fun p =>
         { p with sel := bit (abCtrl s n) 8, seq := .waitJob, origin := .held, golden := none, recBase := 0 }) n .recovering) n 6))) ∧
  (∀ (s : State) (a : Acc) (n : Nat), takes s a .fgpCtl n 0x084 6 = true → cmdBusy s n = false → s.locked = false → (port s
       n).st = .quarantined → startBad s n true = none →
       exec (.cmdRecover a n) s = .next (settle (cmdStart (toState (modPort s n fun p =>
         { p with seq := .waitJob, origin := .quarantined, golden := none, recBase := 0 }) n .recovering) n 6))) ∧
  (∀ (s : State) (a : Acc) (n : Nat), takes s a .fgpCtl n 0x084 7 = true → cmdBusy s n = false → s.locked = false → (port s
       n).st = .quarantined →  exec (.cmdUnquarantine a n) s = .next (settle (cmdResult (enterHeld s n) n 7 0))) ∧
  (∀ (s : State) (a : Acc) (n c : Nat), takes s a .fgpCtl n 0x084 (BitVec.ofNat 32 c) = true → c < 16 → (c = 0 ∨ 7 < c) →
       exec (.cmdInvalid a n c) s = .next (settle (refuseCmd s n c 0x0E1B))) ∧
  (∀ (s : State) (a : Acc) (n c : Nat), takes s a .fgpCtl n 0x084 (BitVec.ofNat 32 c) = true → 1 ≤ c → c ≤ 7 → c ≠ 3 → cmdBusy
       s n = true →
       exec (.registerWrite a (reg .fgpCtl n 0x084) 4 (BitVec.ofNat 32 c) {}) s = .next (settle (refuseCmd s n c 0x0E3A))) ∧
  (∀ (s : State) (a : Acc) (n c : Nat), takes s a .fgpCtl n 0x084 (BitVec.ofNat 32 c) = true → 1 ≤ c → c ≤ 7 → c ≠ 3 → cmdBusy
       s n = false → s.locked = true →
       exec (.registerWrite a (reg .fgpCtl n 0x084) 4 (BitVec.ofNat 32 c) {}) s = .next (settle (refuseCmd s n c 0x0E41))) ∧
  (∀ (s : State) (a : Acc) (n c : Nat), takes s a .fgpCtl n 0x084 (BitVec.ofNat 32 c) = true → 1 ≤ c → c ≤ 7 → cmdBusy s n =
       false → s.locked = false → (c, (port s n).st) ∉ [(1, PortSt.held), (2, .releasePending), (2, .updateStaged), (4,
       .running), (5, .updateStaged), (6, .held), (6, .quarantined), (7, .quarantined)] → (c = 3 → (port s n).st = .quarantined)
       →  exec (.registerWrite a (reg .fgpCtl n 0x084) 4 (BitVec.ofNat 32 c) {}) s = .next (settle (refuseCmd s n c 0x0E39))) ∧
  (∀ (s : State) (a : Acc) (n code : Nat), takes s a .fgpCtl n 0x084 1 = true → cmdBusy s n = false → s.locked = false → (port
       s n).st = .held → startBad s n false = some code →  exec (.cmdMeasure a n) s = .next (settle (refuseCmd s n 1 code)))

/-- R93, R94, R96, R105, R116, R125, R127, R128, R184: what these register writes store, and how a published response becomes visible. -/
def Obligations.PortConfigurationWrites : Prop :=
  (∀ (s : State) (a : Acc) (k : PageKind) (n o : Nat) (r : LatchedReg) (d : Word), latchedOff n r = reg k n o → (k = .fgpCtl ∨
       k = .fgpWin) → takes s a k n o d = true → (port s n).st = .held →
       exec (.latchedSetWrite a n r d) s = .next (settle (recheck (rset s (reg k n o) (takenWord s k n o d)) n))) ∧
  (∀ (s : State) (a : Acc) (k : PageKind) (n o : Nat) (r : LatchedReg) (d : Word), latchedOff n r = reg k n o → (k = .fgpCtl ∨
       k = .fgpWin) → takes s a k n o d = true → (port s n).st ≠ .held →
       exec (.latchedSetWrite a n r d) s = .next (settle (report s k n 0x0E10 o 1))) ∧
  (∀ (s : State) (a : Acc) (n o : Nat) (r : ProtoReg) (d : Word), protoOff n r = reg .fgpCtl n o → takes s a .fgpCtl n o d =
       true → (port s n).st ≠ .held →  exec (.protocolSetWrite a n r d) s = .next (settle (report s .fgpCtl n 0x0E10 o 1))) ∧
  (∀ (s : State) (a : Acc) (n : Nat) (d : Word), takes s a .fgpCtl n 0x044 d = true → (port s n).st = .held → pageLocked s
       .fgpCtl n = false →
       exec (.protocolSetWrite a n .protoDummy d) s =
         .next (settle (rset s (reg .fgpCtl n 0x044) (takenWord s .fgpCtl n 0x044 d)))) ∧
  (∀ (s t : State) (a : Acc) (n : Nat) (d v : Word), takes s a .fgpCtl n 0x040 d = true → (port s n).st = .held → pageLocked s
       .fgpCtl n = false → v = takenWord s .fgpCtl n 0x040 d → protoCfgBad v = none → t = recheck (rset s (reg .fgpCtl n 0x040)
       v) n → lineRateOk (protoSet t n) = true → dummyOk (protoSet t n) = true →
       exec (.protocolSetWrite a n .protoCfg d) s = .next (settle t)) ∧
  (∀ (s : State) (a : Acc) (n code : Nat) (d : Word), takes s a .fgpCtl n 0x040 d = true → (port s n).st = .held → pageLocked s
       .fgpCtl n = false → protoCfgBad (takenWord s .fgpCtl n 0x040 d) = some code →
       exec (.protocolSetWrite a n .protoCfg d) s = .next (settle (report s .fgpCtl n code 0x040 1))) ∧
  (∀ (s t : State) (a : Acc) (n : Nat) (d v : Word), takes s a .fgpCtl n 0x04C d = true → (port s n).st = .held → pageLocked s
       .fgpCtl n = false → v = takenWord s .fgpCtl n 0x04C d → flashCfgBad (protoSet s n).m v = none → t = rset s (reg .fgpCtl n
       0x04C) v → lineRateOk (protoSet t n) = true → dummyOk (protoSet t n) = true →
       exec (.protocolSetWrite a n .flashCfg d) s = .next (settle t)) ∧
  (∀ (s t : State) (a : Acc) (n : Nat) (d v : Word), takes s a .fgpCtl n 0x054 d = true → (port s n).st = .held → pageLocked s
       .fgpCtl n = false → v = takenWord s .fgpCtl n 0x054 d → fsckBad (protoSet s n).flashMode v = none → t = rset s (reg
       .fgpCtl n 0x054) v → lineRateOk (protoSet t n) = true → dummyOk (protoSet t n) = true →
       exec (.protocolSetWrite a n .fsck d) s = .next (settle t)) ∧
  (∀ (s t : State) (a : Acc) (n : Nat) (d v : Word), takes s a .fgpCtl n 0x050 d = true → (port s n).st = .held → pageLocked s
       .fgpCtl n = false → v = takenWord s .fgpCtl n 0x050 d → t = rset s (reg .fgpCtl n 0x050) v → dummyOk (protoSet t n) = true
       →  exec (.protocolSetWrite a n .flashRdop d) s = .next (settle t)) ∧
  (∀ (s : State) (a : Acc) (n : Nat) (d v : Word), takes s a .fgpWin n 0x044 d = true → v = takenWord s .fgpWin n 0x044 d &&&
       armable s n → v ≠ 0 → takenWord s .fgpWin n 0x044 d &&& ~~~armable s n = 0 →
       exec (.armWrite a n d) s =
         .next (settle (endStage (modPort (rset s (reg .fgpWin n 0x044) v) n fun p => { p with staged := none }) n))) ∧
  (∀ (s : State) (a : Acc) (n : Nat) (d v : Word), takes s a .fgpWin n 0x044 d = true → takenWord s .fgpWin n 0x044 d &&&
       armable s n = 0 → v = takenWord s .fgpWin n 0x044 d →
       exec (.armWrite a n d) s = .next (settle (let t := rset s (reg .fgpWin n 0x044) 0
         if v &&& ~~~armable s n ≠ 0 then report t .fgpWin n 0x0E1A 0x044 1 else t))) ∧
  (∀ (s : State) (a : Acc) (n : Nat) (d : Word), takes s a .fgpMb n 0x04C d = true → bit d 31 = true → fld d 16 8 ≤ 256 → (port
       s n).mbState = 1 → (port s n).live.isSome = true →
       exec (.mbPublish a n d) s = .next (settle (modPort s n fun p => { p with pub := some (fld d 7 0, fld d 16 8) }))) ∧
  (∀ (s : State) (a : Acc) (n : Nat) (d : Word), takes s a .fgpMb n 0x04C d = true → bit d 31 = true → fld d 16 8 ≤ 256 → (port
       s n).mbState = 1 → (port s n).live = none →
       exec (.mbPublish a n d) s = .next (settle (irq (modPort s n fun p =>
         { p with pub := none, mbRsp := (rbytes s (reg .fgpMb n 0x200) 64).take (fld d 16 8), mbRspSeq := fld d 7 0,
                  mbStatus := rfld s (reg .fgpMb n 0x050) 15 0, mbState := 2 }) .fgpMb n 2))) ∧
  (∀ (s : State) (a : Acc) (n : Nat) (d : Word), takes s a .fgpMb n 0x04C d = true → bit d 31 = true → (256 < fld d 16 8 ∨
       (port s n).mbState ≠ 1) →  exec (.mbPublish a n d) s = .next (settle (report s .fgpMb n 0x0E19 0x04C 1))) ∧
  (∀ (s : State) (n q len : Nat), portOn s n = true → (port s n).live = none → (port s n).pub = some (q, len) →
       exec (.responseVisible n) s = .next (settle (irq (modPort s n fun p =>
         { p with pub := none, mbRsp := (rbytes s (reg .fgpMb n 0x200) 64).take len, mbRspSeq := q,
                  mbStatus := rfld s (reg .fgpMb n 0x050) 15 0, mbState := 2 }) .fgpMb n 2)))

/-- R142, R167, R179, R186, R188, R189: the ends of the steps of a port's sequences, where the work is due: the flash side is free for
  what it still has to read and nothing of a higher place waits (`ownEnds`). -/
def Obligations.PortSequences : Prop :=
  (∀ (s : State) (n cs : Nat) (ds : List Bytes), (port s n).seq = .treeLoad → cs = (if (port s n).st = .recovering then 1 else
       0) → ownEnds s n cs .tree = true → treesBad (treesToLoad s n) ds = none →
       completes (.treeLoadDone n ds) s fun u => rbit u (reg .du 0 0x010) n = true ∧
         ((port s n).st = .recovering → (port u n).seq = .goldenVerify) ∧
         (port u n).seq ≠ .treeLoad ∧ (∀ m, m ≠ n → port u m = port s m)) ∧
  (∀ (s : State) (n cs code : Nat) (ds : List Bytes), portOn s n = true → (port s n).seq = .treeLoad → cs = (if (port s n).st =
       .recovering then 1 else 0) → ownEnds s n cs .tree = true → treesBad (treesToLoad s n) ds = some code →
       completes (.treeLoadDone n ds) s fun u => rbit u (reg .du 0 0x010) n = true ∧ (port u n).st = .quarantined ∧
         (∀ m, m ≠ n → port u m = port s m)) ∧
  (∀ (s : State) (n : Nat), portOn s n = true → s.locked = false → (port s n).seq = .relD1 → running s (.relD1 n) = true →
       completes (.releaseD1Expiry n) s fun u => (port u n).seq = .relD2 ∧
         (port u n).prst = ((port s n).prst || (match (port s n).latched with | some l => bit l.relCfg 0 | none => false)) ∧
         (port u n).phold = ((port s n).phold || !(match (port s n).latched with | some l => bit l.relCfg 0 | none => false)) ∧
         tget u (.relD2 n) = some (us (match (port s n).latched with | some l => fld l.relCfg 27 16 | none => 0) + 1) ∧
         u.regs = s.regs ∧ u.out = s.out) ∧
  (∀ (s : State) (n : Nat), portOn s n = true → s.locked = false → (port s n).seq = .relD2 → (port s n).act = false → running s
       (.relD2 n) = true →
       exec (.releaseD2Expiry n) s = .next (settle (cmdEnd (modPort (releaseOut (expired s (.relD2 n)) n true) n fun p =>
         { p with seq := .idle }) n 0))) ∧
  (∀ (s : State) (n : Nat), portOn s n = true → s.locked = false → (port s n).seq = .relD2 → (port s n).act = true → running s
       (.relD2 n) = true →
       exec (.releaseD2Expiry n) s = .next (settle (cmdEnd (toState (modPort (releaseOut (expired s (.relD2 n)) n true) n fun p =>
         { p with seq := .idle, act := false, staged := none }) n .running) n 0))) ∧
  (∀ (s : State) (n : Nat) (m : Manifest), portOn s n = true → (port s n).seq = .actQuiesce → (port s n).live = none → (port s
       n).blocks = [] → s.locked = false → (port s n).next = some m → m.entries ≠ [] → (s.cstOps.any (fun o => o.req == .port n)
       = false) →
       exec (.activationQuiesced n) s = .next (settle { modPort s n (fun p =>
         { p with seq := .raising (m.entries.map fun e => (4 + 4 * n + e.image, e.floor)) }) with
         cstOps := s.cstOps ++ (m.entries.take 1).map fun e => ⟨.port n, true, 4 + 4 * n + e.image, e.floor⟩ })) ∧
  (∀ (s : State) (n : Nat) (g : Golden) (bs : List BlkRead), (port s n).seq = .goldenVerify → ownEnds s n 1 .verify = true →
       (port s n).golden = some g → (goldenBlocks s n g).length ≤ bs.length → (goldVerify n g (goldenBlocks s n g) bs s).2 = true
       →  exec (.goldenVerifyDone n bs) s = .next (settle (startCopy (goldVerify n g (goldenBlocks s n g) bs s).1 n))) ∧
  (∀ (s : State) (n : Nat) (g : Golden) (bs : List BlkRead), (port s n).seq = .goldenVerify → ownEnds s n 1 .verify = true →
       (port s n).golden = some g → (goldenBlocks s n g).length ≤ bs.length → (goldVerify n g (goldenBlocks s n g) bs s).2 =
       false →  exec (.goldenVerifyDone n bs) s = .next (settle (goldVerify n g (goldenBlocks s n g) bs s).1)) ∧
  (∀ (s t : State) (n b : Nat) (g : Golden) (bs again : List BlkRead) (r1 r2 : List Bytes) (busyAt : Option Nat), (port s
       n).seq = .copy → (port s n).unitOn = true → bs.length = 16 → flashFree s n = true → ownEnds s n 1 .copy = true → (port s
       n).golden = some g → b = rfld s (reg .fgpCtl n 0x0A8) 15 0 → (copyPass s n g b 0 busyAt bs r1).2 = some false → t =
       ownClear (rsetf (copyPass s n g b 0 busyAt bs r1).1 (reg .fgpCtl n 0x0A8) 15 0 (b + 16)) n .copy →
       exec (.recoveryUnitDone n bs r1 ⟨again, r2⟩ busyAt) s = .next (settle (
         if b + 16 ≥ g.length then cmdEnd (enterHeld (measureRecovery t n 0) n) n 0
         else if (port t n).hold then recoveryHeld t n
         else modPort t n fun p => { p with unitOn := !t.locked }))) ∧
  (∀ (s t : State) (n b : Nat) (g : Golden) (bs again : List BlkRead) (r1 r2 : List Bytes) (busyAt : Option Nat), (port s
       n).seq = .copy → (port s n).unitOn = true → bs.length = 16 → flashFree s n = true → ownEnds s n 1 .copy = true → (port s
       n).golden = some g → b = rfld s (reg .fgpCtl n 0x0A8) 15 0 → (copyPass s n g b 0 busyAt bs r1).2 = some true → t =
       ownClear (copyPass s n g b 0 busyAt bs r1).1 n .copy → (copyPass t n g b 257 busyAt again r2).2 = some true →
       exec (.recoveryUnitDone n bs r1 ⟨again, r2⟩ busyAt) s = .next (settle (quarantine (copyPass t n g b 257 busyAt again r2).1 n 0x0E3F))) ∧
  (∀ (s : State) (n b : Nat) (g : Golden) (bs again : List BlkRead) (r1 r2 : List Bytes) (busyAt : Option Nat), (port s n).seq
       = .copy → (port s n).unitOn = true → bs.length = 16 → flashFree s n = true → ownEnds s n 1 .copy = true → (port s
       n).golden = some g → b = rfld s (reg .fgpCtl n 0x0A8) 15 0 → (copyPass s n g b 0 busyAt bs r1).2 = none →
       exec (.recoveryUnitDone n bs r1 ⟨again, r2⟩ busyAt) s = .next (settle (copyPass s n g b 0 busyAt bs r1).1))

/-- R28, R29, R144, R146, R147, R154, R156, R157, R161: the own accesses of a port in their order, and what the reads and checks of
  verified blocks leave, by whether the digest is the leaf; `t` is the state once the reads are made and the lane has the hash work. -/
def Obligations.VerifiedStoreEvents : Prop :=
  (∀ (s t : State) (n cs : Nat) (data : Bytes) (r : LeafReq) (rest : List LeafReq) (c : TreeCtx), ownReads s n .leaf ≠ [] → cs
       = (if (port s n).st = .recovering then 1 else 0) → ownEnds s n cs .leaf = true → t = flashHash (ownWhole s n .leaf) 2 →
       (port t n).leafReqs = r :: rest → treeOf (port t n) r.image = some c → (frame t (c.first + r.leaf / 2 / 64)).st = .valid →
       exec (.leafFetchDone n data .clean) s = .next (settle (
         let u := ownClear (modPort t n fun p => { p with leafReqs := rest }) n .leaf
         let x := pairNode c r.leaf data
         if x.2 = pinnedNode t c r.leaf then modPort u n fun p => cachePut p x.1
         else failedCheck u n 0x0E25 r.image r.win r.leaf r.fa x.2))) ∧
  (∀ (s t : State) (n cs : Nat) (data : Bytes) (e : EccRes) (r : LeafReq) (rest : List LeafReq) (c : TreeCtx), ownReads s n
       .leaf ≠ [] → cs = (if (port s n).st = .recovering then 1 else 0) → ownEnds s n cs .leaf = true → t = flashHash (ownWhole s
       n .leaf) 2 → (port t n).leafReqs = r :: rest → treeOf (port t n) r.image = some c → (frame t (c.first + r.leaf / 2 /
       64)).st ≠ .valid → e = .clean →
       exec (.leafFetchDone n data e) s = .next (settle (failedCheck
         (ownClear (modPort t n fun p => { p with leafReqs := rest }) n .leaf) n 0x0E24 r.image r.win r.leaf r.fa (zeros 64)))) ∧
  (∀ (s t : State) (n w b : Nat) (again : Bool) (data leaf x : Bytes) (d : WinDesc) (r : LeafReq), ownEnds s n 0 .fill = true →
       t = flashHash (ownWhole s n .fill) 33 → (port t n).seq = .fill w b again → (wins t n)[w]? = some d → r = fillReq t n w b d
       → cachedLeaf (port t n) r.image r.leaf = some leaf → x = sliceZ data 0 4096 →
       exec (.fillBlockDone n data) s = .next (settle (
         let u := ownClear t n .fill
         if sha512 x = leaf then fillFrom (blockFilled u n w b d x) n w (b + 1)
         else if again then failedCheck u n 0x0E23 r.image w r.leaf r.fa (sha512 x)
         else modPort (rcount u (reg .du 0 (0x108 + 16 * n)) 31 24 1) n fun p => { p with seq := .fill w b true }))) ∧
  (∀ (s t : State) (n w b : Nat) (again : Bool) (data : Bytes) (d : WinDesc), ownEnds s n 0 .fill = true → t = flashHash
       (ownWhole s n .fill) 33 → (port t n).seq = .fill w b again → (wins t n)[w]? = some d → cachedLeaf (port t n) (fillReq t n
       w b d).image (fillReq t n w b d).leaf = none →
       exec (.fillBlockDone n data) s = .next (settle (askLeaf t n (fillReq t n w b d)))) ∧
  (∀ (s t : State) (n f : Nat) (rest : List Nat) (data leaf x : Bytes) (fr : Frame), ownReads s n .refill ≠ [] → ownEnds s n 0
       .refill = true → t = flashHash (ownWhole s n .refill) 33 → (port t n).refills = f :: rest → (port t n).st.refills = true →
       (port t n).filling = false → fr = frame t f → cachedLeaf (port t n) fr.image fr.leaf = some leaf → x = sliceZ data 0 4096
       →
       exec (.refillDone n data) s = .next (settle (
         let u := ownClear t n .refill
         if sha512 x = leaf then
           modPort (setFrame u f { fr with st := .valid, data := x }) n fun p => { p with refills := rest, refillAgain := false }
         else if (port t n).refillAgain then failedCheck u n 0x0E23 fr.image fr.win fr.leaf (frameFa t n f) (sha512 x)
         else modPort (setFrame (rcount u (reg .du 0 (0x108 + 16 * n)) 31 24 1) f { fr with st := .filling }) n fun p =>
           { p with refillAgain := true }))) ∧
  (∀ (s : State) (n fa lane p : Nat) (b : OpenBlk), hashNext s = some n → lane < s.part.lanes → laneTakes s lane = true →
       openAt (port s n) fa = some b → (p = segmentEnd b (if (List.range 16).any (fun m => decide (m ≠ n) && chunkReady s m) then
       1 else 32) b.ptr) → p ≠ b.ptr →
       exec (.hashSegment n fa lane) s = .next (settle (
         modPort (flashOn { s with hashTurn := n } lane ((p - b.ptr) / 128 + (if p = 4096 then 1 else 0))) n fun q =>
           putBlock q { b with ptr := p }))) ∧
  (∀ (s : State) (n fa : Nat) (b : OpenBlk) (leaf : Bytes), portOn s n = true → openAt (port s n) fa = some b → b.has 0 4096 =
       true → 3968 ≤ b.ptr → cachedLeaf (port s n) b.image b.leaf = some leaf →
       exec (.blockCheck n fa) s = .next (settle (
         if sha512 b.bytes = leaf then rcount (closeBlock s n b.fa) (reg .fgpMb n 0x304) 31 0 1
         else failedCheck s n 0x0E20 b.image b.win b.leaf b.fa (sha512 b.bytes)))) ∧
  (∀ (s : State) (n fa : Nat) (b : OpenBlk), portOn s n = true → openAt (port s n) fa = some b → running s (.defer n (fa / 4096
       * 4096)) = true →
       exec (.deferralExpiry n fa) s = .next (settle (failedCheck (expired s (.defer n (fa / 4096 * 4096))) n 0x0E22
         b.image b.win b.leaf b.fa (zeros 64)))) ∧
  (∀ (s u : State) (n i got cs a l m : Nat) (data : Bytes) (k : Own) (f : Nat), flashQuiet s n = true → driving s = true →
       Own.all.find? (ownPending s n) = some k → (k = .leaf ∨ k = .tree ∨ completing (port s n) = none) → k ≠ .copy → ownAt (port
       s n) k = (i, got) → (ownReads s n k)[i]? = some (cs, a, l) → ownSide s n cs = true → m = min l (got + data.length) → u =
       ownPut (ownRead s n cs (a + got) (l - got)) n k (if m = l then (i + 1, 0) else (i, m)) → f = (port s n).refills.headD 0 →
       exec (.ownAccessIssue n data) s = .next (settle (
         if k = .refill then setFrame u f { frame u f with st := .filling }
         else if k = .warm ∧ m = l then ownClear (modPort u n fun p => { p with warm := p.warm.drop 1 }) n .warm
         else u))) ∧
  (∀ (s : State) (n at_ : Nat) (data : Bytes) (b : OpenBlk), flashFree s n = true → driving s = true → ownPending s n .leaf =
       false → ownPending s n .tree = false → completing (port s n) = some b → at_ = b.comp.getD b.ptr →
       exec (.ownAccessIssue n data) s = .next (settle (completeWith (ownRead s n 0 (b.fa + at_) (4096 - at_)) n b data))) ∧
  (∀ (s u v : State) (n i got cs a l m : Nat) (data : Bytes) (g : Golden), flashFree s n = true → driving s = true →
       Own.all.find? (ownPending s n) = some .copy → completing (port s n) = none → (port s n).golden = some g → u = eraseUnit s
       n g → ownAt (port u n) .copy = (i, got) → (ownReads u n .copy)[i]? = some (cs, a, l) → ownSide u n cs = true → m = min l
       (got + data.length) → v = ownPut (ownRead u n cs (a + got) (l - got)) n .copy (if m = l then (i + 1, 0) else (i, m)) →
       exec (.ownAccessIssue n data) s = .next (settle v))

/-- R136, R148, R150, R163, R164: one scrub interval, one write-back and one diagnostic read. -/
def Obligations.ScrubAndDiagnosticReads : Prop :=
  (∀ (s : State) (k : Nat), pageOn s .vstBank k = true → rbit s (reg .vst 0 0x040) 0 = true → running s (.scrub k) = true →
       rfld s (reg .vstBank k 0x048) 15 0 + 1 < s.part.framesPerBank →
       exec (.scrubTick k .clean) s = .next (settle (rsetf (tset (expired s (.scrub k)) (.scrub k)
         (us (max 1 (rfld s (reg .vst 0 0x040) 19 4)))) (reg .vstBank k 0x048) 15 0 (rfld s (reg .vstBank k 0x048) 15 0 + 1)))) ∧
  (∀ (s : State) (k : Nat), pageOn s .vstBank k = true → rbit s (reg .vst 0 0x040) 0 = true → running s (.scrub k) = true →
       rfld s (reg .vstBank k 0x048) 15 0 + 1 = s.part.framesPerBank →
       completes (.scrubTick k .clean) s fun u => rfld u (reg .vstBank k 0x048) 15 0 = 0 ∧
         rfld u (reg .vstBank k 0x048) 31 16 = satAdd (rfld s (reg .vstBank k 0x048) 31 16) 1 0xFFFF ∧
         rbit u (reg .vstBank k 0x010) 0 = true ∧ u.frames = s.frames ∧ u.writeBacks = s.writeBacks ∧ u.ports = s.ports) ∧
  (∀ (s : State) (k w : Nat), pageOn s .vstBank k = true → rbit s (reg .vst 0 0x040) 0 = true → running s (.scrub k) = true →
       (frame s (k * s.part.framesPerBank + rfld s (reg .vstBank k 0x048) 15 0)).st = .valid → w < 512 →
       completes (.scrubTick k (.corrected w)) s fun u =>
         u.writeBacks = s.writeBacks ++ [(k * s.part.framesPerBank + rfld s (reg .vstBank k 0x048) 15 0, w)] ∧
         rbit u (reg .vst 0 0x010) 0 = true ∧ u.frames = s.frames ∧ u.ports = s.ports) ∧
  (∀ (s : State),  exec .eccWriteback s = .next (settle { s with writeBacks := s.writeBacks.drop 1 })) ∧
  (∀ (s : State) (a : Acc) (f w : Nat), silent s a = false → (pwrState s = 0 ∨ (a.master ≠ 0x10 ∧ vfOf a = 0)) → pageUp s .vst
       0 = true → mayRead s a (.page .vst 0) = true → f = rfld s (reg .vst 0 0x054) 14 0 → w = rfld s (reg .vst 0 0x05C) 11 2 → f
       < s.part.frames → (frame s f).st = .valid →
       exec (.vstDiagRead a .clean) s =
         .next (settle (emit s (.bus a.master (reg .vst 0 0x060) (wordAtLe (frame s f).data w)))))

/-- R29, R142, R173, R174, R176, R181, R184, R188, R199, R451: the manifest jobs of the three modes, by the outcome of the check; `p`
  holds the job's parameters, `c` is the state once the key has been checked and the lane's blocks counted, `t` once the manifest is
  read. -/
def Obligations.ManifestChecks : Prop :=
  (∀ (s c t : State) (tag : Nat) (man : Bytes) (j : Job) (p : ManParams), job? s tag = some j → j.st = .running → j.done = none
       → j.early = 0 → laneLost s j = false → dType j.desc = 0x1F → fieldLe j.desc 0x35 1 = 0 → s.reconciling = false → manParams
       s j = some p → manifestCan s p man [] = true → c = countUnit (if p.key.isNone then (chainCheck s (dKey j.desc)).1 else s)
       j 0 (manExtent man) → jobExpected c p = true → (t = manifestRead (modPort c p.port fun q =>
       { q with manAt := (jobFa c p p.manifest, manExtent man) }) p man) →
       exec (.manifestCheckMeasure tag man) s = .next (settle (match manCheck t p man with
         | .ok (m, raise) => finish (measureResult t p.port 0 m raise) tag { status := 0 } []
         | .error (code, e) => finish (measureResult t p.port code default false) tag
           { status := code, result := e, ran := decide (code ≠ 0x0E37) } []))) ∧
  (∀ (s c t : State) (tag : Nat) (man : Bytes) (dtts : List Bytes) (j : Job) (p : ManParams), job? s tag = some j → j.st =
       .running → j.done = none → j.early = 0 → laneLost s j = false → dType j.desc = 0x1F → fieldLe j.desc 0x35 1 = 1 →
       s.reconciling = false → manParams s j = some p → manifestCan s p man dtts = true → c = countUnit (if p.key.isNone then
       (chainCheck s (dKey j.desc)).1 else s) j 0 (manExtent man) → jobExpected c p = true → (t = manifestRead (modPort c p.port
       fun q => { q with manAt := (jobFa c p p.manifest, manExtent man) }) p man) →
       exec (.manifestCheckStage tag man dtts) s = .next (settle (match manCheck t p man with
         | .error (code, e) => finish t tag { status := code, result := e, ran := decide (code ≠ 0x0E37) } []
         | .ok (m, _) =>
           let u := irq (stageReads t p.port (stageTrees t p man) dtts) .du 0 p.port
           match stageTreesBad t p.port m dtts with
           | some code => finish (duReport u code) tag { status := code, ran := decide (code ≠ 0x0E37) } []
           | none => finish (stageResult u p.port 0 m) tag { status := 0 } []))) ∧
  (∀ (s c t : State) (tag : Nat) (man : Bytes) (j : Job) (p : ManParams), job? s tag = some j → j.st = .running → j.done = none
       → j.early = 0 → laneLost s j = false → dType j.desc = 0x1F → fieldLe j.desc 0x35 1 = 2 → s.reconciling = false → manParams
       s j = some p → manifestCan s p man [] = true → c = countUnit (if p.key.isNone then (chainCheck s (dKey j.desc)).1 else s)
       j 0 (manExtent man) → jobExpected c p = true → (t = manifestRead (modPort c p.port fun q =>
       { q with recBase := p.cs1Base }) p man) →
       exec (.manifestCheckGolden tag man) s = .next (settle (match manCheck t p man with
         | .ok (m, _) => finish (goldenResult t p.port 0 p.start m ⟨p.cs1Base, p.dest, p.length, m.digest⟩) tag { status := 0 } []
         | .error (code, e) => finish (goldenResult t p.port code 0 default default) tag
           { status := code, result := e, ran := decide (code ≠ 0x0E37) } []))) ∧
  (∀ (s c : State) (tag mode : Nat) (man : Bytes) (dtts : List Bytes) (j : Job) (p : ManParams), job? s tag = some j → j.st =
       .running → j.done = none → j.early = 0 → laneLost s j = false → dType j.desc = 0x1F → fieldLe j.desc 0x35 1 = mode → (mode
       = 1 ∨ dtts = []) → s.reconciling = false → manParams s j = some p → manifestCan s p man dtts = true → c = countUnit (if
       p.key.isNone then (chainCheck s (dKey j.desc)).1 else s) j 0 (manExtent man) → jobExpected c p = false →
       let x := settle (finish c tag { status := 0x0E37, ran := false } [])
       (mode = 0 → exec (.manifestCheckMeasure tag man) s = .next x) ∧ (mode = 1 → exec (.manifestCheckStage tag man dtts) s = .next x) ∧
         (mode = 2 → exec (.manifestCheckGolden tag man) s = .next x)) ∧
  (∀ (s : State) (tag mode : Nat) (man : Bytes) (dtts : List Bytes) (j : Job), job? s tag = some j → j.st = .running → j.done =
       none → j.early ≠ 0 → laneLost s j = false → dType j.desc = 0x1F → fieldLe j.desc 0x35 1 = mode → s.reconciling = false →
       let x := settle (finish s tag { status := j.early, ran := decide (j.early ≠ 0x0E37) } [])
       (mode = 0 → exec (.manifestCheckMeasure tag man) s = .next x) ∧ (mode = 1 → exec (.manifestCheckStage tag man dtts) s = .next x) ∧
         (mode = 2 → exec (.manifestCheckGolden tag man) s = .next x))

/-- R194, R195, R202, R206, R208, R522: the registers of the rings of core queues and instances, and the fetch of a descriptor. -/
def Obligations.RingCommands : Prop :=
  (∀ (s : State) (a : Acc) (q : Nat) (d w : Word), q < 4 → takes s a .cje 0 (0x08C + 32 * q) (d ||| 0x100) = true → w =
       takenWord s .cje 0 (0x08C + 32 * q) (d ||| 0x100) → bit (shown s .cje 0 (0x08C + 32 * q)) 8 = false → 4 ≤ fld w 3 0 → fld
       w 3 0 ≤ 12 → 4 ≤ fld w 7 4 → fld w 7 4 ≤ 12 → sramOk (sqBase s (.core q)) (64 * 2 ^ fld w 3 0) = true → sramOk (cqBase s
       (.core q)) (32 * 2 ^ fld w 7 4) = true →
       completes (.ringEnable a (.core q) d) s fun u => rget u (ringCfg (.core q)) = w ∧ ringPhase u (.core q) = true ∧
         rget u (ringSqHead (.core q)) = 0 ∧ rget u (ringCqTail (.core q)) = 0 ∧ rget u (ringSqTail (.core q)) = 0 ∧
         rget u (ringCqHead (.core q)) = 0 ∧ u = { s with regs := u.regs, phases := u.phases }) ∧
  (∀ (s : State) (a : Acc) (i : Nat) (d w : Word), takes s a .inst i 0x058 (d ||| 0x100) = true → w = takenWord s .inst i 0x058
       (d ||| 0x100) → bit (shown s .inst i 0x058) 8 = false → 4 ≤ fld w 3 0 → fld w 3 0 ≤ min 12 (rfld s (reg .inst i 0x08C) 15
       12) → 4 ≤ fld w 7 4 → fld w 7 4 ≤ min 12 (rfld s (reg .inst i 0x08C) 15 12) → (fld w 17 16 < rfld s (reg .inst i 0x08C) 18
       16 ∨ fld w 17 16 = 0) →
       completes (.ringEnable a (.inst i) d) s fun u => rget u (ringCfg (.inst i)) = w ∧ ringPhase u (.inst i) = true ∧
         rget u (ringSqHead (.inst i)) = 0 ∧ rget u (ringCqTail (.inst i)) = 0 ∧ rget u (ringSqTail (.inst i)) = 0 ∧
         rget u (ringCqHead (.inst i)) = 0 ∧ u = { s with regs := u.regs, phases := u.phases }) ∧
  (∀ (s : State) (a : Acc) (q : Nat) (d w : Word), q < 4 → takes s a .cje 0 (0x08C + 32 * q) (d ||| 0x100) = true → w =
       takenWord s .cje 0 (0x08C + 32 * q) (d ||| 0x100) → bit (shown s .cje 0 (0x08C + 32 * q)) 8 = false → (fld w 3 0 < 4 ∨ 12
       < fld w 3 0 ∨ fld w 7 4 < 4 ∨ 12 < fld w 7 4) →
       exec (.ringEnable a (.core q) d) s = .next (settle (report s .cje 0 0x0C18 (0x08C + 32 * q) 1))) ∧
  (∀ (s : State) (a : Acc) (q : Nat) (d w : Word), q < 4 → takes s a .cje 0 (0x08C + 32 * q) (d ||| 0x100) = true → w =
       takenWord s .cje 0 (0x08C + 32 * q) (d ||| 0x100) → bit (shown s .cje 0 (0x08C + 32 * q)) 8 = false → 4 ≤ fld w 3 0 → fld
       w 3 0 ≤ 12 → 4 ≤ fld w 7 4 → fld w 7 4 ≤ 12 → (sramOk (sqBase s (.core q)) (64 * 2 ^ fld w 3 0) = false ∨ sramOk (cqBase s
       (.core q)) (32 * 2 ^ fld w 7 4) = false) →
       exec (.ringEnable a (.core q) d) s = .next (settle (report s .cje 0 0x0C06 (0x08C + 32 * q) 1))) ∧
  (∀ (s t : State) (a : Acc) (q : Nat) (d v : Word) (l : List (Nat × Bytes)), q < 4 → t = coreStores s { sram := l } → takes t
       a .cje 0 (0x090 + 32 * q) d = true → v = takenWord t .cje 0 (0x090 + 32 * q) d →
       exec (.sqDoorbell a (.core q) d l) s = .next (settle (
         if fld v 11 0 < 2 ^ rfld t (ringCfg (.core q)) 3 0 then rset t (ringSqTail (.core q)) v
         else report t .cje 0 0x0C18 (0x090 + 32 * q) 1))) ∧
  (∀ (s t : State) (a : Acc) (i : Nat) (d v : Word) (l : List (Nat × Bytes)), t = coreStores s { sram := l } → takes t a
       .doorbell i 0x044 d = true → v = takenWord t .doorbell i 0x044 d →
       exec (.sqDoorbell a (.inst i) d l) s = .next (settle (
         if (inst t i).st = .none ∨ (inst t i).st = .awaitRestore ∨ (inst t i).st = .saved then report t .doorbell i 0x0C1B 0x044 1
         else if fld v 11 0 < 2 ^ rfld t (ringCfg (.inst i)) 3 0 then rset t (ringSqTail (.inst i)) v
         else report t .doorbell i 0x0C18 0x044 1))) ∧
  (∀ (s : State) (a : Acc) (q : Nat) (d v : Word), q < 4 → takes s a .cje 0 (0x094 + 32 * q) d = true → v = takenWord s .cje 0
       (0x094 + 32 * q) d →
       exec (.cqHeadWrite a (.core q) d) s = .next (settle (
         if fld v 11 0 < 2 ^ rfld s (ringCfg (.core q)) 7 4 then rset s (ringCqHead (.core q)) v
         else report s .cje 0 0x0C18 (0x094 + 32 * q) 1))) ∧
  (∀ (s : State) (a : Acc) (i : Nat) (d v : Word), takes s a .doorbell i 0x048 d = true → v = takenWord s .doorbell i 0x048 d →
       exec (.cqHeadWrite a (.inst i) d) s = .next (settle (
         if (inst s i).st = .none ∨ (inst s i).st = .awaitRestore ∨ (inst s i).st = .saved then report s .doorbell i 0x0C1B 0x048 1
         else if fld v 11 0 < 2 ^ rfld s (ringCfg (.inst i)) 7 4 then rset s (ringCqHead (.inst i)) v
         else report s .doorbell i 0x0C18 0x048 1))) ∧
  (∀ (s : State) (a : Acc) (m : Nat) (d : Word), takes s a .lane m 0x040 d = true → (bit (takenWord s .lane m 0x040 d) 0 = true
       ∨ needsReserved s = false) →
       exec (.laneReserveWrite a m d) s = .next (settle (rset s (reg .lane m 0x040) (takenWord s .lane m 0x040 d)))) ∧
  (∀ (s : State) (q tag : Nat) (desc : Bytes) (w : Walk), ringFetches s (.core q) = true → tag < 1024 → job? s tag = none →
       quotaLeft s (.core q) = true → 10 ≤ saveFree s →
       exec (.descriptorFetch (.core q) tag desc w) s = .next (settle (newJob (rsetf s (ringSqHead (.core q)) 11 0
         ((rfld s (ringSqHead (.core q)) 11 0 + 1) % 2 ^ rfld s (ringCfg (.core q)) 3 0)) tag (.core q) 0
         (sramRead s (sqBase s (.core q) + 64 * rfld s (ringSqHead (.core q)) 11 0) 64)))) ∧
  (∀ (s t : State) (i tag : Nat) (desc : Bytes) (w : Walk) (r : TrRes), ringFetches s (.inst i) = true → tag < 1024 → job? s
       tag = none → quotaLeft s (.inst i) = true → 10 ≤ saveFree s → translate s i (sqBase s (.inst i) + 64 * rfld s (ringSqHead
       (.inst i)) 11 0) 5 false none (inst s i).gen w = (t, r) →
       exec (.descriptorFetch (.inst i) tag desc w) s = .next (settle (match r with
         | .ok _ => newJob (rsetf t (ringSqHead (.inst i)) 11 0
             ((rfld t (ringSqHead (.inst i)) 11 0 + 1) % 2 ^ rfld t (ringCfg (.inst i)) 3 0)) tag (.inst i) (inst t i).gen desc
         | _ => parkQueue t i)))

/-- R196, R201, R203 to R208, R211, R215, R216, R232: one command of the scheduler each, in a state in which it applies; `t` is the state
  once the chain of its keys has been checked. -/
def Obligations.JobScheduling : Prop :=
  (∀ (s : State) (tag unit lane code : Nat) (ws : List Walk) (j : Job), job? s tag = some j → j.st = .queued → j.done = none →
       fenced s j = false → refusal s j.sub j.slot j.desc = some code →
       exec (.jobDispatch tag unit lane ws) s = .next (settle (finish s tag { status := code, ran := false } ws))) ∧
  (∀ (s t : State) (tag unit lane code : Nat) (ws : List Walk) (j : Job) (cs : List (Nat × KSlot)), job? s tag = some j → j.st
       = .queued → j.done = none → fenced s j = false → refusal s j.sub j.slot j.desc = none → forwards s j = none → keyRefusal s
       j.sub j.desc = (t, some code, cs) →
       exec (.jobDispatch tag unit lane ws) s = .next (settle (finish t tag { status := code, ran := false } ws))) ∧
  (∀ (s t : State) (tag unit lane k : Nat) (ws : List Walk) (j : Job) (cs : List (Nat × KSlot)) (us : List (Nat × Nat)) (ap :
       Bool), job? s tag = some j → j.st = .queued → j.done = none → fenced s j = false → refusal s j.sub j.slot j.desc = none →
       forwards s j = none → keyRefusal s j.sub j.desc = (t, none, cs) → unitKind t j.desc = some k → unitFree t k unit = true →
       (needsLane j.desc = false ∨ unitFree t 0 lane = true) → us = (k, unit) :: (if needsLane j.desc then [(0, lane)] else []) →
       mayStart t j us = true → ((j.onLane = false ∧ j.onAes = false) ∨ 10 ≤ saveFree t) → ((katBits j.desc k unit lane).all (fun
       b => !katFail t b) = true) → ap = (approvedService j.desc && (katBits j.desc k unit lane).all (katPass t)) → ((dFlags
       j.desc).testBit 2 = true → ap = true) →
       exec (.jobDispatch tag unit lane ws) s = .next (settle (
         let y := { j with copies := cs, approved := ap, lane := if needsLane j.desc then some lane else none }
         match startRefusal t y with
         | (u, some code) => finish u tag { status := code, ran := false } ws
         | (u, none) => startJob (countStart u y) tag y (some (k, unit))))) ∧
  (∀ (s : State) (tag unit lane : Nat) (ws : List Walk) (j : Job), job? s tag = some j → j.st = .queued → j.done = none →
       fenced s j = false → refusal s j.sub j.slot j.desc = none → forwards s j = none → dType j.desc = 0x00 → (dFlags
       j.desc).testBit 2 = false →
       exec (.jobDispatch tag unit lane ws) s = .next (settle (startJob s tag { j with copies := [] } none))) ∧
  (∀ (s : State) (tag unit lane : Nat) (ws : List Walk) (j : Job) (bs : List Nat), job? s tag = some j → j.st = .queued →
       j.done = none → fenced s j = false → refusal s j.sub j.slot j.desc = none → forwards s j = none → dType j.desc = 0x30 →
       (dFlags j.desc).testBit 2 = false → testTargets s j.desc = some bs → testFree s j.desc unit = true →
       exec (.jobDispatch tag unit lane ws) s = .next (settle (startTest s tag { j with copies := [] } fun s j =>
         startJob s tag j (testUnit j.desc unit)))) ∧
  (∀ (s : State) (tag unit lane i node : Nat) (ws : List Walk) (j : Job), job? s tag = some j → j.st = .queued → j.done = none
       → fenced s j = false → refusal s j.sub j.slot j.desc = none → j.sub = .inst i → forwards s j = some node →
       exec (.jobDispatch tag unit lane ws) s = .next (settle (forwardJob (countStart s j) tag j i node ws))) ∧
  (∀ (s : State) (tag lane b : Nat) (io : JobIO) (j : Job), unitJob s 0 lane = some (tag, j) → j.st = .running → j.onRes =
       false → (laneReserved s lane = true ∨ testWaits s lane = true) →
       exec (.preemption lane b io) s = .next (settle (giveUpLane s lane tag j b io))) ∧
  (∀ (s : State) (tag lane b : Nat) (io : JobIO) (j : Job) (hs : List (Nat × Job)), unitJob s 0 lane = some (tag, j) → j.st =
       .running → j.onRes = false → (List.range 16).any (flashPending s) = true → flashLane s = none → schedulerHeld s = false →
       (hs = s.jobs.filter (fun e => (List.range 8).any e.2.holdsLane && !e.2.onRes)) → (j.cls = 0 → hs.all (fun e => decide
       (e.2.cls = 0)) = true) →  exec (.preemption lane b io) s = .next (settle (giveUpLane s lane tag j b io))) ∧
  (∀ (s : State) (tag lane b : Nat) (io : JobIO) (j : Job), unitJob s 0 lane = some (tag, j) → j.st = .running → j.onLane =
       true → 0 < rfld s (reg .cje 0 0x040) 7 0 → 8 * rfld s (reg .cje 0 0x040) 7 0 ≤ min (128 * b) (dSrcLen j.desc - j.pos) /
       128 → (s.jobs.any (fun e => waitsFor s e.2 0 lane && (decide (e.2.cls = 0) || decide (j.cls ≠ 0))) = true) →
       exec (.yield lane b io) s = .next (settle (giveUpLane s lane tag j b io))) ∧
  (∀ (s t : State) (tag unit k : Nat) (r : Bytes) (ws : List Walk) (j : Job) (cs : List (Nat × KSlot)) (l : Option Nat), job? s
       tag = some j → j.st = .preempted → (s.locked = false ∨ usesSlot j.desc = false) → (j.recSaved = true ∨ j.buf = true ∨
       forwards s j = none) → dType j.desc ≠ 0x30 → unitKind s j.desc = some k → (j.onLane = false ∨ j.recSaved = false) → l =
       (if needsLane j.desc then (List.range s.part.lanes).find? (unitFree s 0) else none) → (needsLane j.desc = true → l.isSome
       = true) → unitFree s k unit = true → (mayStart s j ((k, unit) :: l.toList.map fun m => (0, m)) = true) → ((j.onLane =
       false ∧ j.onAes = false) ∨ 10 ≤ saveFree s) → (j.gens.all (fun g => decide ((kslot s g.1).gen = g.2)) = true) → takeKeys s
       j.sub (keysOf s j.sub j.desc) = (t, none, cs) →
       exec (.jobResume tag unit r ws) s =
         .next (settle (startJob t tag { j with lane := l, copies := cs, buf := false } (some (k, unit))))) ∧
  (∀ (s : State) (q tag unit : Nat) (r rec : Bytes) (ws : List Walk) (j : Job), job? s tag = some j → j.st = .preempted → j.sub
       = .core q → dType j.desc = 0x01 → j.recSaved = true → (j.gens.all (fun g => decide ((kslot s g.1).gen = g.2)) = true) →
       unitFree s 0 unit = true → mayStart s j [(0, unit)] = true → 10 ≤ saveFree s → r = sramRead s (ctxBase s (.core q) + 256 *
       j.slot) 256 →
       exec (.jobResume tag unit rec ws) s = .next (settle (
         if (hmac s.ctxKey (sliceZ r 0 0xF0)).take 16 ≠ sliceZ r 0xF0 16 then finish s tag { status := 0x0C0A } ws
         else startJob s tag { j with lane := none, mid := sliceZ r 0 80, pos := fieldLe r 0x50 8, copies := [], buf := false }
           (some (0, unit))))) ∧
  (∀ (s : State) (tag unit : Nat) (r : Bytes) (ws : List Walk) (j : Job), job? s tag = some j → j.st = .preempted → s.locked =
       true → usesSlot j.desc = true →
       exec (.jobResume tag unit r ws) s = .next (settle (finish s tag { status := 0x0C19, ran := false } ws))) ∧
  (∀ (s : State) (tag : Nat) (ws : List Walk), running s (.job tag) = true → (job? s tag).isSome = true →
       exec (.jobTimeout tag ws) s = .next (settle (finish (expired s (.job tag)) tag { status := 0x0C0C } ws))) ∧
  (∀ (s : State) (tag : Nat), running s (.selfTest tag) = true → (job? s tag).isSome = true →
       exec (.selfTestTimeout tag) s = .next (settle (finish (expired s (.selfTest tag)) tag { status := 0x0C14 } []))) ∧
  (∀ (s : State) (tag : Nat) (bad : Word) (j : Job) (bs : List Nat), job? s tag = some j → j.st = .running → j.done = none →
       dType j.desc = 0x30 → testTargets s j.desc = some bs → dParam j.desc 0 ≠ 6 → (j.onRes = false ∨ (List.range 16).any
       (chunkReady s) = false) →
       exec (.selfTest tag bad) s = .next (settle (finish (tstop (bs.foldl (fun s b => setKat s b (!bit bad b)) s) (.selfTest tag)) tag
         { status := if bs.any (fun b => bit bad b) then 0x0C12 else 0, result := b2n (bs.any fun b => bit bad b) } []))) ∧
  (∀ (s t : State) (tag : Nat) (bad : Word) (j x : Job) (bs : List Nat), job? s tag = some j → j.st = .running → j.done = none
       → dType j.desc = 0x30 → testTargets s j.desc = some bs → dParam j.desc 0 = 6 → testAll s bad j (bs.drop j.pos) = (t, x) →
       exec (.selfTest tag bad) s = .next (settle (
         if x.pos < bs.length then setJob t tag x
         else finish t tag { status := if x.fails = 0 then 0 else 0x0C12, result := x.fails } []))) ∧
  (∀ (s : State),
       completes .entropyHealthFailure s fun u => katFail u 16 = true ∧ katPass u 16 = false ∧ rbit u (reg .kv 0 0x010) 2 = true ∧
         (katFail s 16 = false → rbit u (reg .cje 0 0x010) 5 = true) ∧ u.jobs = s.jobs ∧ u.kslots = s.kslots)

/-- R194, R198, R200, R208: the completion entry of a core queue's job, the frame of its write, and the entry of an instance's job. -/
def Obligations.CompletionEntries : Prop :=
  (∀ (s t : State) (q tag ad : Nat) (ws : List Walk) (j : Job) (x : JobRes), job? s tag = some j → j.st = .running → j.done =
       some x → j.sub = .core q → q < 4 → (t = x.outs.foldl (fun s o => sramWrite s o.1 o.2) s) → cqRoom s (.core q) = true → ad
       = cqBase s (.core q) + 32 * rfld s (ringCqTail (.core q)) 11 0 → sramOk ad 32 = true →
       completes (.completionWrite tag ws) s fun u => sramRead u ad 32 = completionEntry s (.core q) j x ∧
         (∀ b, b < ad - 0x20000000 ∨ ad - 0x20000000 + 32 ≤ b → Tbl.get zeroByte u.sram b = Tbl.get zeroByte t.sram b) ∧
         rfld u (ringCqTail (.core q)) 11 0 = (rfld s (ringCqTail (.core q)) 11 0 + 1) % 2 ^ rfld s (ringCfg (.core q)) 7 4 ∧
         ringPhase u (.core q) = (ringPhase s (.core q) != decide (rfld u (ringCqTail (.core q)) 11 0 = 0)) ∧
         job? u tag = none ∧ (dFlags j.desc % 2 = 1 → rbit u (reg .cje 0 0x010) q = true)) ∧
  (∀ (s t : State) (i tag p : Nat) (ws : List Walk) (j : Job) (x : JobRes), job? s tag = some j → j.st = .running → j.done =
       some x → j.sub = .inst i → x.outs = [] → cqRoom s (.inst i) = true → translate (setJob s tag j) i (cqBase s (.inst i) + 32
       * rfld s (ringCqTail (.inst i)) 11 0) 4 true (some tag) j.gen (nextWalk ws) = (t, .ok p) →
       exec (.completionWrite tag ws) s = .next (settle (entryWritten (emit t (.host i p (completionEntry t (.inst i) j x)))
         (.inst i) tag j))) ∧
  (∀ (s : State) (tag : Nat) (io : JobIO) (ws : List Walk) (t : State) (j : Job), runs s tag j io t ws = true → dType j.desc =
       0x00 →  exec (.nop tag io) s = .next (settle (finish t tag { status := 0, ran := false } ws)))

/-- R198, R204, R214, R216, R219, R226, R237: the verdict and output of each job, from its source and auxiliary bytes; `t` is the state
  once its inputs are read. -/
def Obligations.HashAndCurveJobs : Prop :=
  (∀ (s t : State) (tag : Nat) (io : JobIO) (ws : List Walk) (j : Job), runs s tag j io t ws = true → dType j.desc = 0x01 →
       dParam j.desc 0 = 0 → j.pos = 0 → j.mid = [] →
       exec (.hash tag io) s = .next (settle (ended t tag j (output j (sha512 (jobSrc t j io)) 0) ws))) ∧
  (∀ (s t : State) (tag : Nat) (io : JobIO) (ws : List Walk) (j : Job), runs s tag j io t ws = true → dType j.desc = 0x01 →
       dParam j.desc 0 ≠ 1 → dParam j.desc 0 ≠ 2 →
       exec (.hash tag io) s = .next (settle (ended t tag j
         (output j (midEnd (jobMid j (jobAux t j io)) ((jobSrc t j io).drop j.pos)) 0) ws))) ∧
  (∀ (s t : State) (tag : Nat) (io : JobIO) (ws : List Walk) (j : Job), runs s tag j io t ws = true → dType j.desc = 0x01 →
       (dParam j.desc 0 = 1 ∨ dParam j.desc 0 = 2) →
       exec (.hash tag io) s = .next (settle (ended t tag j
         { status := 0, outs := [(dAux j.desc, midFeed (jobMid j (jobAux t j io)) ((jobSrc t j io).drop j.pos))] } ws))) ∧
  (∀ (s t : State) (tag : Nat) (io : JobIO) (ws : List Walk) (j : Job), runs s tag j io t ws = true → dType j.desc = 0x02 →
       dParam j.desc 0 = 0 →
       exec (.hmacGenerate tag io) s = .next (settle (ended t tag j (output j (hmac j.key.key (jobSrc t j io)) 0) ws))) ∧
  (∀ (s t : State) (tag : Nat) (io : JobIO) (ws : List Walk) (j : Job), runs s tag j io t ws = true → dType j.desc = 0x02 →
       dParam j.desc 0 = 1 →
       exec (.hmacVerify tag io) s = .next (settle (ended t tag j
         { status := if hmac j.key.key (jobSrc t j io) = sliceZ (jobAux t j io) 0 64 then 0 else 0x0C07 } ws))) ∧
  (∀ (s t : State) (tag : Nat) (io : JobIO) (ws : List Walk) (j : Job) (ty us : Nat), runs s tag j io t ws = true → dType
       j.desc = 0x03 → dParam16 j.desc 0 = 256 → keySpec (dParam16 j.desc 2) 5 [1, 3, 5] = some (ty, us) →
       exec (.kdf tag io) s = .next (settle (
         have r := fill t j.sub (dKeyOut j.desc) ⟨ty, us, j.parent, false, none, kdfOut j.key.key (jobSrc t j io) 256⟩ false
         ended r.1 tag j (verdict r.2) ws))) ∧
  (∀ (s t : State) (tag : Nat) (io : JobIO) (ws : List Walk) (j : Job) (ty us : Nat), runs s tag j io t ws = true → dType
       j.desc = 0x03 → dParam16 j.desc 0 ≠ 256 → keySpec (dParam16 j.desc 2) 6 [6] = some (ty, us) →
       exec (.kdf tag io) s = .next (settle (
         have r := fill t j.sub (dKeyOut j.desc) ⟨ty, us, j.parent, false, none, kdfOut j.key.key (jobSrc t j io) (dParam16 j.desc 0)⟩ false
         ended r.1 tag j (verdict r.2) ws))) ∧
  (∀ (s t : State) (tag : Nat) (io : JobIO) (ws : List Walk) (j : Job) (b : Bool), runs s tag j io t ws = true → dType j.desc =
       0x03 → b = decide (dParam16 j.desc 0 = 256) → keySpec (dParam16 j.desc 2) (if b then 5 else 6) (if b then [1, 3, 5] else
       [6]) = none →  exec (.kdf tag io) s = .next (settle (ended t tag j { status := 0x0A02 } ws))) ∧
  (∀ (s t : State) (tag : Nat) (io : JobIO) (ws : List Walk) (j : Job), runs s tag j io t ws = true → dType j.desc = 0x04 →
       katFail t 16 = false →
       exec (.drbg tag io) s = .next (settle (
         have r := draw t (dDstLen j.desc)
         ended r.2 tag j (output j r.1 0) ws))) ∧
  (∀ (s t : State) (tag : Nat) (io : JobIO) (ws : List Walk) (j : Job), runs s tag j io t ws = true → dType j.desc = 0x04 →
       katFail t 16 = true →  exec (.drbg tag io) s = .next (settle (ended t tag j { status := 0x0C16 } ws))) ∧
  (∀ (s t : State) (tag : Nat) (io : JobIO) (ws : List Walk) (j : Job), runs s tag j io t ws = true → dType j.desc = 0x10 →
       (dKey j.desc ≠ 2 ∨ (jobSrc t j io).take 16 ≠ wmsDomain) →
       exec (.ed25519Sign tag io) s = .next (settle (ended t tag j (output j (ed25519Sign j.key.key (jobSrc t j io)) 0) ws))) ∧
  (∀ (s t : State) (tag : Nat) (io : JobIO) (ws : List Walk) (j : Job), runs s tag j io t ws = true → dType j.desc = 0x10 →
       dKey j.desc = 2 → (jobSrc t j io).take 16 = wmsDomain →
       exec (.ed25519Sign tag io) s = .next (settle (ended t tag j { status := 0x0B04 } ws))) ∧
  (∀ (s t : State) (tag : Nat) (io : JobIO) (ws : List Walk) (j : Job) (pub sig : Bytes), runs s tag j io t ws = true → dType
       j.desc = 0x11 → pub = (if dKey j.desc = 0xFFFF then sliceZ (jobAux t j io) 64 32 else j.key.key) → sig = sliceZ (jobAux t
       j io) 0 64 →
       exec (.ed25519Verify tag io) s = .next (settle (ended t tag j
         { status := if (edDecode pub).isNone ∨ (edDecode (sliceZ (jobAux t j io) 0 32)).isNone then 0x0C0F
                     else if ed25519Verify pub (jobSrc t j io) sig then 0 else 0x0C07 } ws))) ∧
  (∀ (s t : State) (tag : Nat) (io : JobIO) (ws : List Walk) (j : Job) (us : Nat) (z : Bytes), runs s tag j io t ws = true →
       dType j.desc = 0x12 → keySpec (dParam16 j.desc 0) 5 [5] = some (5, us) → z = x25519 j.key.key (sliceZ (jobSrc t j io) 0
       32) →
       exec (.x25519 tag io) s = .next (settle (
         if allZero z then ended t tag j { status := 0x0C0F } ws
         else
           have r := fill t j.sub (dKeyOut j.desc) ⟨5, us, j.parent, false, none, z⟩ false
           ended r.1 tag j (verdict r.2) ws))) ∧
  (∀ (s t : State) (tag : Nat) (io : JobIO) (ws : List Walk) (j : Job), runs s tag j io t ws = true → dType j.desc = 0x12 →
       keySpec (dParam16 j.desc 0) 5 [5] = none →
       exec (.x25519 tag io) s = .next (settle (ended t tag j { status := 0x0A02 } ws))) ∧
  (∀ (s t : State) (tag : Nat) (io : JobIO) (ws : List Walk) (j : Job) (c : Bytes × Bytes), runs s tag j io t ws = true → dType
       j.desc = 0x18 → (dFlags j.desc).testBit 3 = false → c = gcmEnc j.key.key (sliceZ j.desc 0x34 12) (jobAux t j io) (jobSrc t
       j io) →  exec (.gcmEnc tag io) s = .next (settle (ended t tag j (output j (c.1 ++ c.2) 0) ws))) ∧
  (∀ (s t : State) (tag : Nat) (io : JobIO) (ws : List Walk) (j : Job), runs s tag j io t ws = true → dType j.desc = 0x18 →
       (dFlags j.desc).testBit 3 = true → drbgTested s = false → katFail t 16 = false →
       exec (.gcmEnc tag io) s = .next (settle (
         have r := draw t 12
         have c := gcmEnc j.key.key r.1 (jobAux t j io) (jobSrc t j io)
         ended r.2 tag j (output j (r.1 ++ c.1 ++ c.2) 0) ws))) ∧
  (∀ (s t : State) (tag : Nat) (io : JobIO) (ws : List Walk) (j : Job), runs s tag j io t ws = true → dType j.desc = 0x18 →
       (dFlags j.desc).testBit 3 = true → drbgTested s = false → katFail t 16 = true →
       exec (.gcmEnc tag io) s = .next (settle (ended t tag j { status := 0x0C16 } ws))) ∧
  (∀ (s t : State) (tag : Nat) (io : JobIO) (ws : List Walk) (j : Job) (n : Nat), runs s tag j io t ws = true → dType j.desc =
       0x19 → n = (jobSrc t j io).length - 16 →
       exec (.gcmDec tag io) s = .next (settle (ended t tag j
         (match gcmDec j.key.key (sliceZ j.desc 0x34 12) (jobAux t j io) ((jobSrc t j io).take n) ((jobSrc t j io).drop n) with
         | some pt => output j pt 0
         | none => { status := 0x0C08, outs := [(dDst j.desc, zeros n)] }) ws)))

/-- R225 to R227, R229 to R232, R234, R236: the key-vault jobs that run, and the scrubber. -/
def Obligations.KeyJobs : Prop :=
  (∀ (s t : State) (tag : Nat) (io : JobIO) (ws : List Walk) (j : Job) (ty us : Nat), runs s tag j io t ws = true → dType
       j.desc = 0x20 → keySpec (dParam16 j.desc 0) 0 [1, 3, 5] = some (ty, us) →
       exec (.keyGen tag io) s = .next (settle (
         have d := draw t 32
         have r := fill d.2 j.sub (dKeyOut j.desc) ⟨ty, us, j.parent, false, none, d.1⟩ false
         ended r.1 tag j (verdict r.2) ws))) ∧
  (∀ (s t : State) (tag : Nat) (io : JobIO) (ws : List Walk) (j : Job), runs s tag j io t ws = true → dType j.desc = 0x20 →
       keySpec (dParam16 j.desc 0) 0 [1, 3, 5] = none →
       exec (.keyGen tag io) s = .next (settle (ended t tag j { status := 0x0A02 } ws))) ∧
  (∀ (s t : State) (tag : Nat) (io : JobIO) (ws : List Walk) (j : Job), runs s tag j io t ws = true → dType j.desc = 0x21 →
       exec (.keyPub tag io) s = .next (settle (ended t tag j (output j
         (if j.key.ktype = 1 then ed25519Pub j.key.key else if j.key.ktype = 2 then j.key.key else x25519Pub j.key.key) 0) ws))) ∧
  (∀ (s t : State) (tag : Nat) (io : JobIO) (ws : List Walk) (j : Job) (k : Bytes) (q : Option Nat), runs s tag j io t ws =
       true → dType j.desc = 0x22 → k = jobSrc t j io → q = (if dParam j.desc 3 = 0xFF then none else some (dParam j.desc 3)) →
       exec (.keyImport tag io) s = .next (settle (
         if (edDecode k).isNone then ended t tag j { status := 0x0C0F } ws
         else if keySpec (dParam16 j.desc 0) 0 [2] = none then ended t tag j { status := 0x0A02 } ws
         else if dParam j.desc 2 = 1 ∧ sha512 k ≠ ownerDigest t (lifeCycle t).2 then ended t tag j { status := 0x0A05 } ws
         else
           have r := fill t j.sub (dKeyOut j.desc)
             ⟨2, 2, if q = none then j.parent else none, decide (dParam j.desc 2 = 1), q, k⟩ true
           ended r.1 tag j (verdict r.2) ws))) ∧
  (∀ (s t : State) (tag : Nat) (io : JobIO) (ws : List Walk) (j : Job) (a b : Nat) (w k : KSlot) (h : Bytes), runs s tag j io t
       ws = true → dType j.desc = 0x23 → j.copies = [(a, w), (b, k)] → h = blobHeader (k.usage + 256 * k.ktype) →
       exec (.keyWrap tag io) s = .next (settle (
         if dDstLen j.desc < 44 + k.key.length then finish t tag { status := 0x0C04, ran := false } ws
         else if k.may 5 then
           have r := draw t 12
           have c := gcmEnc w.key r.1 (h ++ jobAux t j io) k.key
           ended r.2 tag j (output j (h ++ r.1 ++ c.1 ++ c.2) 0) ws
         else ended t tag j { status := 0x0A08 } ws))) ∧
  (∀ (s t : State) (tag : Nat) (io : JobIO) (ws : List Walk) (j : Job) (n : Nat) (src : Bytes), runs s tag j io t ws = true →
       dType j.desc = 0x24 → src = jobSrc t j io → n = src.length - 44 →
       exec (.keyUnwrap tag io) s = .next (settle (
         match gcmDec j.key.key (sliceZ src 0x10 12) (src.take 16 ++ jobAux t j io) (sliceZ src 0x1C n) (src.drop (src.length - 16)),
           keySpec (fieldLe src 6 2) 0 [1, 2, 3, 5, 6] with
         | some key, some (ty, us) =>
           if src.take 16 ≠ blobHeader (fieldLe src 6 2) ∨ key.length ≠ (if ty = 6 then 64 else 32) then
             ended t tag j { status := 0x0A07 } ws
           else if us.testBit 5 = false then ended t tag j { status := 0x0A08 } ws
           else
             have r := fill t j.sub (dKeyOut j.desc) ⟨ty, us, j.parent, false, none, key⟩ false
             ended r.1 tag j (verdict r.2) ws
         | _, _ => ended t tag j { status := 0x0A07 } ws))) ∧
  (∀ (s u : State) (tag : Nat) (io : JobIO) (j : Job) (x : KSlot), job? s tag = some j → j.st = .running → j.done = none →
       dType j.desc = 0x25 → j.gens = [] → x = kslot s (dKey j.desc) → (x.st = .live ∨ x.st = .orphaned) → u = setJob (endSlot s
       (dKey j.desc)) tag { j with gens := [(dKey j.desc, x.gen)] } →
       exec (.keyInvalidate tag io) s = .next (settle (
         if u.jobs.any (fun e => e.2.copies.any fun c => decide (c.1 = dKey j.desc ∧ c.2.gen = x.gen)) then u
         else finish u tag { status := 0 } io.walks))) ∧
  (∀ (s : State) (tag : Nat) (io : JobIO) (j : Job), job? s tag = some j → j.st = .running → j.done = none → dType j.desc =
       0x25 → j.gens ≠ [] → (s.jobs.any (fun e => e.2.copies.any fun c => j.gens.contains (c.1, c.2.gen)) = false) →
       exec (.keyInvalidate tag io) s = .next (settle (finish s tag { status := 0 } io.walks))) ∧
  (∀ (s : State), s.scrubDirty = true →
       exec .keyScrubPass s = .next (settle (
         have r := (List.range 512).foldl scrubVisit ({ s with scrubDirty := false }, 0)
         have u := rcount r.1 (reg .kv 0 0x05C) 31 0 1
         if r.2 = 0 then u else irq u .kv 0 1))) ∧
  (∀ (s : State) (sub : Sub) (k : Nat) (f : Fill), fillBad s sub k false f.ownerKey = none → f.parent = none → sub.cls = 0 →
       f.port = none →
       fill s sub k f false = (setKslot s k { st := .live, ktype := f.ktype, usage := f.usage, ownerKind := 0, owner := sub.owner, gen := (kslot s k).gen, parent := none, pgen := 0, depth := 0, ownerKey := f.ownerKey, key := f.key }, 0))

/-- R235, R239, R240, R243, R244, R246: the attestation unit's jobs that run; a slot is extended by hashing its value with the record's digest. -/
def Obligations.AttestationJobs : Prop :=
  (∀ (s t : State) (tag : Nat) (io : JobIO) (ws : List Walk) (j : Job), runs s tag j io t ws = true → dType j.desc = 0x28 →
       exec (.measExtend tag io) s = .next (settle (if mayExtend t j.sub.owner (dParam j.desc 0)
         then ended (extend t (dParam j.desc 0) (jobSrc t j io)) tag j { status := 0 } ws
         else ended t tag j { status := 0x0B01 } ws))) ∧
  (∀ (s t : State) (tag dev cnt : Nat) (io : JobIO) (ws : List Walk) (j : Job) (n x w : Bytes), runs s tag j io t ws = true →
       dType j.desc = 0x29 → s.reconciling = false → n = jobSrc t j io → x = jobAux t j io → dev = dParam16 j.desc 0 → cnt =
       dParam j.desc 2 → wmsBad t j.sub ⟨n, dev, cnt, x⟩ = none → w = wmsBuild t j.sub ⟨n, dev, cnt, x⟩ →
       exec (.wmsBuild tag io) s = .next (settle (if dDstLen j.desc < w.length then finish t tag { status := 0x0C04, ran := false } ws
         else ended (irq (rcount t (reg .atu 0 0x040) 31 16 1) .atu 0 0) tag j (output j w w.length) ws))) ∧
  (∀ (s t : State) (tag code : Nat) (io : JobIO) (ws : List Walk) (j : Job), runs s tag j io t ws = true → dType j.desc = 0x29
       → s.reconciling = false → wmsBad t j.sub ⟨jobSrc t j io, dParam16 j.desc 0, dParam j.desc 2, jobAux t j io⟩ = some code →
       exec (.wmsBuild tag io) s = .next (settle (ended t tag j (verdict code) ws))) ∧
  (∀ (s t : State) (tag : Nat) (io : JobIO) (ws : List Walk) (j : Job), runs s tag j io t ws = true → dType j.desc = 0x2A →
       rbit t (reg .atu 0 0x040) 1 = false →
       exec (.policyCommit tag io) s = .next (settle (ended (extend (rsetb (rsetBytes t (reg .atu 0 0x100) 16
         (jobSrc t j io)) (reg .atu 0 0x040) 1 true) 4 (jobSrc t j io)) tag j { status := 0 } ws))) ∧
  (∀ (s t : State) (tag : Nat) (io : JobIO) (ws : List Walk) (j : Job), runs s tag j io t ws = true → dType j.desc = 0x2A →
       rbit t (reg .atu 0 0x040) 1 = true →
       exec (.policyCommit tag io) s = .next (settle (ended t tag j { status := 0x0B05 } ws))) ∧
  (∀ (s t : State) (tag : Nat) (io : JobIO) (ws : List Walk) (j : Job), runs s tag j io t ws = true → dType j.desc = 0x2B →
       handover t = false → allZero (sliceZ (jobSrc t j io) 73 7) = true →
       exec (.fwRecord tag io) s = .next (settle (ended (extend { rsetBytes t (reg .atu 0 0x0C0) 16
         ((jobSrc t j io).take 64) with fwRec := some (jobSrc t j io) } 0 (jobSrc t j io)) tag j { status := 0 } ws))) ∧
  (∀ (s t : State) (tag : Nat) (io : JobIO) (ws : List Walk) (j : Job), runs s tag j io t ws = true → dType j.desc = 0x2B →
       handover t = true →  exec (.fwRecord tag io) s = .next (settle (ended t tag j { status := 0x0A0A } ws))) ∧
  (∀ (s t : State) (tag : Nat) (io : JobIO) (ws : List Walk) (j : Job) (r : Bytes), runs s tag j io t ws = true → dType j.desc
       = 0x2C → handover t = false → (kslot t 0).st = .live → (kslot t 1).st = .live → rbit t (reg .atu 0 0x040) 0 = false → rbit
       t (reg .atu 0 0x040) 2 = false → t.fwRec = some r →
       exec (.aliasCreate tag io) s = .next (settle (ended (createAlias t r) tag j { status := 0 } ws))) ∧
  (∀ (s t : State) (tag : Nat) (io : JobIO) (ws : List Walk) (j : Job), runs s tag j io t ws = true → dType j.desc = 0x2C →
       handover t = true →  exec (.aliasCreate tag io) s = .next (settle (ended t tag j { status := 0x0A0A } ws)))

/-- R40, R51, R67, R251 to R254, R274, R475: what a reset that covers the device leaves, and the triggers that software or the pins make.
  Its hardware phase follows in the same command and lasts in `hw` (the model's reading, assumption log 57). -/
def Obligations.ChipResets : Prop :=
  (∀ (s : State) (rail tear : Nat) (r t : Word), s.rst ≠ .por → rail ≤ 8 →
       completes (.supplyFall rail tear r t) s fun u => u.rst = .por ∧ u.pwr.porInfo = mk rail rail 1 ∧ (∀ off, rget u off = resetValue off) ∧
         u.timers = [] ∧ u.jobs = [] ∧ u.insts = [] ∧ u.kslots = [] ∧ u.frames = [] ∧ u.sram = [] ∧ u.tbTime = 0 ∧ u.part = s.part) ∧
  (∀ (s : State) (x : Bool) (pins : Word), s.rst = .por →
       exec (.porEnd x pins none) s =
         .next (settle (deviceEnds (startReconcile (rset { s with xinCmos := x } (reg .rom 0 0x040) 1)) true pins))) ∧
  (∀ (s : State) (x : Bool) (pins a i : Word) (c : Bytes) (l : Bool), s.rst = .por →
       exec (.porEnd x pins (some (c, a, l, i))) s =
         let m : TemSt := { s.tem with canary := c, ack := a, latch := l, info := i }
         .next (settle (deviceEnds (startReconcile (rset { s with tem := m, pwr := {}, xinCmos := x } (reg .rom 0 0x040) 1)) true pins))) ∧
  (∀ (s : State) (inp : RstIn), s.rst = .none → higherPhase s = false →
       completes (.devRstNAssert inp) s fun u => u.rst = .device ∧ rget u (reg .rom 0 0x040) = 2 ∧
         (∀ off, off / 4096 ≠ 2 → off ≠ reg .rom 0 0x040 → rget u off = resetValue off) ∧
         u.frames = [] ∧ u.sram = [] ∧ u.part = s.part ∧ u.jobs = s.jobs ∧ u.insts = s.insts ∧ u.kslots = s.kslots) ∧
  (∀ (s t : State) (inp : RstIn), s.rst = .device → t = rset (afterDevice s .device) (reg .rom 0 0x040) (rget s (reg .rom 0
       0x040)) →
       exec (.devRstNRelease inp) s = .next (settle (deviceEnds t false inp.straps)) ∧
         t.jobs = [] ∧ t.insts = [] ∧ t.kslots = [] ∧ t.frames = [] ∧ t.ctr = s.ctr ∧ t.fuseR = s.fuseR) ∧
  (∀ (s : State) (a : Acc) (d : Word) (inp : RstIn), takes s a .rom 0 0x044 (withField d 3 0 1) = true → fld d 31 16 = 0xA5C3 →
       exec (.rstReqDevice a d inp) s = .next (settle (
         if higherPhase s then s else deviceEnds (deviceBegins s 3 inp) false inp.straps))) ∧
  (∀ (s : State) (inp : RstIn), (s.rst ≠ .none ∨ higherPhase s = true) →  exec (.devRstNAssert inp) s = .next (settle s)) ∧
  (∀ (s : State) (a : Acc) (d : Word) (inp : RstIn) (n : Nat), takes s a .rom 0 0x044 (withField d 3 0 3) = true → fld d 31 16
       = 0xA5C3 → n = fld d 11 8 → n < s.part.ports →
       exec (.rstReqPort a d inp) s = .next (settle (
         if domOn s n then portLeaveReset (portReset (rsetf s (reg .rom 0 0x040) 3 0 12) n) n
         else rsetf s (reg .rom 0 0x040) 3 0 12))) ∧
  (∀ (s : State) (a : Acc) (d : Word) (inp : RstIn), takes s a .rom 0 0x044 (withField d 3 0 1) = true → fld d 31 16 ≠ 0xA5C3 →
        exec (.rstReqDevice a d inp) s = .next (settle (report s .rom 0 0x0101 0x044 1)))

/-- R228, R251, R252, R254, R257, R266, R268, R274, R343, R345, R350: each trigger of a CONTROL reset with its cause, what the reset
  leaves, and where it is absorbed. -/
def Obligations.ControlResetTriggers : Prop :=
  (∀ (s : State) (a : Acc) (d : Word) (inp : RstIn), takes s a .rom 0 0x044 (withField d 3 0 2) = true → fld d 31 16 = 0xA5C3 →
        exec (.rstReqControl a d inp) s = .next (settle (controlReset s 5 inp))) ∧
  (∀ (s : State) (inp : RstIn),  exec (.lockstepMismatch inp) s = .next (settle (controlReset s 8 inp))) ∧
  (∀ (s : State) (inp : RstIn), debugOpen s 1 = true →  exec (.debugModuleReset inp) s = .next (settle (controlReset s 9 inp))) ∧
  (∀ (s : State) (inp : RstIn), handover s = false → s.sage ≠ .stop →
       exec (.romFetchViolation inp) s = .next (settle (controlReset s 13 inp))) ∧
  (∀ (s : State) (inp : RstIn), running s .bwd = true → s.sage ≠ .window true → s.sage ≠ .window false →
       exec (.bwdBite inp) s = .next (settle (controlReset (rcount (rset (expired s .bwd) (reg .bwd 0 0x054)
         (mk 7 0 (bwdState s) ||| mk 15 8 (rfld s (reg .rom 0 0x048) 7 0) ||| mk 31 31 1)) (reg .rom 0 0x040) 23 16 1) 6 inp))) ∧
  (∀ (s : State) (inp : RstIn), running s .bwd = true → (s.sage = .window true ∨ s.sage = .window false) →
       exec (.bwdBite inp) s = .next (settle (romKick (expired s .bwd)))) ∧
  (∀ (s : State) (inp : RstIn), running s .twdGrace = true →
       exec (.twdBite inp) s = .next (settle (controlReset (rset (expired s .twdGrace) (reg .twd 0 0x068)
         (rget s (reg .twd 0 0x05C))) 7 inp))) ∧
  (∀ (s t : State) (inp : RstIn), s.rst ≠ .por → tokenResetOk s = true → t = emit { tapScan s 0x0B with fresh := s.fresh + 1 }
       (.tapBit ((Config.freeByte s.fresh).getLsbD 0)) →
       exec (.tokenReset inp) s = .next (settle (controlReset (tset t .tokenReset 100000000) 11 inp))) ∧
  (∀ (s u : State) (c : Nat) (inp : RstIn), s.rst = .none → s.hw = none → c < 16 → u = controlReset s c inp →
       u.sage = .rom true ∧ u.rst = .none ∧ rfld u (reg .rom 0 0x040) 3 0 = c ∧ u.jobs = [] ∧ u.bf = none ∧ u.itu = [] ∧
         u.fwRec = none ∧ u.halted = 0 ∧ u.hw = some (.control, phaseCycles) ∧ (∀ i, i ≤ s.part.vfs → (inst u i).st = .none)) ∧
  (∀ (s : State) (c n : Nat) (inp : RstIn), s.rst = .none → s.hw = some (.control, n) →
       controlReset s c inp = rcount s (reg .rom 0 0x040) 15 8 1) ∧
  (∀ (s : State) (c : Nat) (inp : RstIn), (s.rst ≠ .none ∨ higherPhase s = true) →  controlReset s c inp = s)

/-- R262, R268, R270, R294: the BOOT block's commands of the device start. -/
def Obligations.DeviceStartCommands : Prop :=
  (∀ (s : State) (a : Acc) (d : Word), takes s a .rom 0 0x054 d = true →
       exec (.bootDbgLockWrite a d) s = .next (settle { rsetb
         (rset s (reg .rom 0 0x054) (takenWord s .rom 0 0x054 d)) (reg .rom 0 0x054) 31 true with
         rwoUsed := Tbl.set (fun _ => false) s.rwoUsed (reg .rom 0 0x054) true })) ∧
  (∀ (s : State) (a : Acc) (d : Word) (q len : Nat), takes s a .rom 0 0x058 d = true → q < 3 → fld d 2 0 = 2 ^ q → dillRuns s q
       = false → len = (rget s (reg .rom 0 (0x068 + 4 * q))).toNat → len ≠ 0 → len % 4 = 0 → len ≤ 196608 → domOn s 24 = true →
       allZero (rbytes s (reg .rom 0 (0x600 + 64 * q)) 16) = false →
       exec (.coreRelease a d {}) s = .next (settle (
         if sha512 (memRead s.dillMem (q * 0x40000) len) = rbytes s (reg .rom 0 (0x600 + 64 * q)) 16
         then rsetb s (reg .rom 0 0x058) (8 + q) true
         else irq (bootErr (rsetf s (reg .rom 0 0x058) 31 16 0x0102) 0x0102 0x058) .rom 0 1))) ∧
  (∀ (s : State) (a : Acc) (d : Word) (inp : RstIn), takes s a .rom 0 0x05C (d ||| 1) = true → fld d 31 16 = 0xA5C3 →
       exec (.lcSubmit a d inp) s = .next (settle (controlReset (rsetb s (reg .rom 0 0x060) 16 true) 10 inp))) ∧
  (∀ (s : State) (a : Acc) (d : Word), takes s a .rom 0 0x114 (d ||| 1) = true → fld d 31 16 = 0xA5C3 → rbit s (reg .rom 0
       0x100) 3 = true → bwdState s = 0x55 →  exec (.healthConfirm a d) s = .next (settle (bwdRetire s))) ∧
  (∀ (s : State) (a : Acc) (d : Word), takes s a .rom 0 0x114 (d ||| 1) = true → fld d 31 16 ≠ 0xA5C3 →
       exec (.healthConfirm a d) s = .next (settle (report s .rom 0 0x0101 0x114 1)))

/-- R214, R221, R255 to R257, R262, R268, R287, R292, R293, R298: the flow step by step, the hand-over it ends in, and where any flow ends. -/
def Obligations.RomFlowEnds : Prop :=
  (∀ (s p : State) (env : RomEnv) (c : Bool) (code : Nat), s.sage = .rom c → s.rst = .none → s.reconciling = false → s.tbLoss =
       false → romSelfTest (romFlash (romStep { s with hw := none } 0x3C) env.bfId) c env.kat = (p, some code) →
       exec (.romFlow env) s = .next (settle (romStop p code))) ∧
  (∀ (s p q : State) (env : RomEnv) (c : Bool) (code : Nat), s.sage = .rom c → s.rst = .none → s.reconciling = false → s.tbLoss
       = false → romSelfTest (romFlash (romStep { s with hw := none } 0x3C) env.bfId) c env.kat = (p, none) → romRoot (romStep p
       0x55) env = (q, some code) →  exec (.romFlow env) s = .next (settle (romStop q code))) ∧
  (∀ (s p q : State) (env : RomEnv) (c : Bool), s.sage = .rom c → s.rst = .none → s.reconciling = false → s.tbLoss = false →
       romSelfTest (romFlash (romStep { s with hw := none } 0x3C) env.bfId) c env.kat = (p, none) → romRoot (romStep p 0x55) env
       = (q, none) →
       exec (.romFlow env) s = .next (settle (match romLifecycle (rebuildDevid (romStep q 0x5A)) env with
         | (r, true) => deviceReset r 4 env.rst
         | (r, false) => romSelect (romStep r 0x69) env))) ∧
  (∀ (s : State) (env : RomEnv) (x y : RomRun) (g : Bool) (sel : Option Nat), rbit s (reg .rom 0 0x050) 0 = false → g = !rbit s
       (reg .rom 0 0x050) 3 → x = romRun (rsetb s (reg .rom 0 0x100) 11 g) env 0 → (if g then x else beforeSlots x env).halted =
       none → selectSlot (if g then x else beforeSlots x env) env g = (y, sel) →
       romSelect s env = (match sel with
         | none => openPush y.s true
         | some k => bootFrom y env (area y k) k true (decide (k = 1) && (match y.rc with | some r => r.trial | none => false)))) ∧
  (∀ (s : State) (env : RomEnv), rbit s (reg .rom 0 0x050) 0 = true →
       romSelect s env =
         openPush (openRec (romRun (rsetb s (reg .rom 0 0x100) 11 (!rbit s (reg .rom 0 0x050) 3)) env 0) env).s false) ∧
  (∀ (s : State) (env : RomEnv) (v k : Nat) (x y : RomRun), s.sage = .copying v → s.rst = .none → s.tbLoss = false → x =
       runCopy (openRec (romRun s env v) env) env → x.halted = none → selectSlot x env false = (y, some k) →
       exec (.romFlow env) s = .next (settle (
         bootFrom y env (area y k) k true (decide (k = 1) && (match y.rc with | some r => r.trial | none => false))))) ∧
  (∀ (s : State) (env : RomEnv) (v : Nat) (x y : RomRun), s.sage = .copying v → s.rst = .none → s.tbLoss = false → x = runCopy
       (openRec (romRun s env v) env) env → x.halted = none → selectSlot x env false = (y, none) →
       exec (.romFlow env) s = .next (settle (openPush y.s true))) ∧
  (∀ (x : RomRun) (env : RomEnv) (b : Bytes) (k : Nat) (wr tr d : Bool) (s t v w : State), s = loadBundle (rsetf (romStep x.s
       0x96) (reg .rom 0 0x100) 2 0 k) b → t = romStep (let s := if tr then fwFlag s 3 else s; if regionOn s then settingsStore
       { x with s := s } env b wr else s) 0x33 → d = decide ((lifeCycle t).1 = 3) → ((if d ∨ t.locked then (t, none) else
       romOwner t b) = (v, none)) → (if d then (romStep v 0x99, none) else romMeasure (romStep v 0x99) b k) = (w, none) →
       let u := bootFrom x env b k wr tr
       u.sage = .run ∧ rfld u (reg .rom 0 0x048) 7 0 = 0xAA ∧ rget u (reg .rom 0 0x054) = debugValue w ||| 0x80000000 ∧
         bwdState u = (if rbit w (reg .rom 0 0x100) 3 then 0x55 else 0x33) ∧ rbit u (reg .atu 0 0x040) 2 = true ∧ u.lifeNew = false ∧
         u.pending = w.pending ∧ u.part = w.part) ∧
  (∀ (s : State) (env : RomEnv) (c : Bool), s.sage = .rom c → s.rst = .none → s.reconciling = false → s.tbLoss = false →
       completes (.romFlow env) s fun u => u.part = s.part ∧ u.pending = s.pending ∧
         (u.sage ≠ .rom c ∨ u.sage = .rom false ∧ rfld u (reg .rom 0 0x040) 3 0 = 4))

/-- R51, R264 to R267: the instruction register and what each instruction shifts out or takes in; DTMCS and the debug module's own
  registers are the RISC-V Debug Specification's, values that the spec does not give (assumption logs 3 and 112). -/
def Obligations.TapInstructions : Prop :=
  (∀ (s : State) (c p : Bytes), s.rst ≠ .por → debugOpen s 0 = true →
       exec (.tapExtest c p) s =
         .next (settle (emit (emit (emit { s with tapIr := 0x00, boundary := c } (.tapIr 1)) (.tap p)) (.cells c)))) ∧
  (∀ (s : State) (c p : Bytes), s.rst ≠ .por → debugOpen s 0 = false →
       exec (.tapExtest c p) s = .next (settle (emit (emit { s with tapIr := 0x1F } (.tapIr 1)) (.tapBit false)))) ∧
  (∀ (s : State) (c p : Bytes), s.rst ≠ .por →
       exec (.tapSamplePreload c p) s = .next (settle (emit (emit { s with tapIr := 0x01, boundary := c } (.tapIr 1)) (.tap p)))) ∧
  (∀ (s : State), s.rst ≠ .por →
       exec .tapIdcode s =
         .next (settle (emit (emit { s with tapIr := 0x02 } (.tapIr 1)) (.tap (leBytes 4 (s.part.number * 4096 + 0x5AF)))))) ∧
  (∀ (s : State), s.rst ≠ .por →
       exec .tapNonce s = .next (settle (emit (emit { s with tapIr := 0x08 } (.tapIr 1)) (.tap (rbytes s (reg .rom 0 0x080) 8))))) ∧
  (∀ (s : State) (t : Bytes), s.rst = .none → t.length = 176 →
       exec (.tapToken t) s = .next (settle (
         rsetb { emit { s with tapIr := 0x09 } (.tapIr 1) with token := t } (reg .rom 0 0x064) 16 true))) ∧
  (∀ (s : State) (t : Bytes), s.rst ≠ .por → (s.rst ≠ .none ∨ t.length ≠ 176) →
       exec (.tapToken t) s = .next (settle (emit { s with tapIr := 0x09 } (.tapIr 1)))) ∧
  (∀ (s : State), s.rst ≠ .por →
       exec .tapTokenStatus s =
         .next (settle (emit (emit { s with tapIr := 0x0A } (.tapIr 1)) (.tap (leBytes 4 (rget s (reg .rom 0 0x064)).toNat))))) ∧
  (∀ (s : State), s.rst ≠ .por →
       exec .tapDtmcs s = .next (settle (emit (emit { s with tapIr := 0x10 } (.tapIr 1)) (.tap (leBytes 4 Config.dtmcs.toNat))))) ∧
  (∀ (s : State), s.rst ≠ .por →
       exec .tapBypass s = .next (settle (emit (emit { s with tapIr := 0x1F } (.tapIr 1)) (.tapBit false)))) ∧
  (∀ (s : State),  exec .testLogicReset s = .next (settle { s with tapIr := 0x02 })) ∧
  (∀ (s t : State) (c : Nat) (inp : BusIn), s.rst ≠ .por → c < 4 → debugOpen s (if c = 0 then 1 else 2) = true → t = emit
       { s with tapIr := 0x11 } (.tapIr 1) →
       exec (.tapDmi (.halt c) inp) s = .next (settle (twdFreeze { t with halted := s.halted ||| BitVec.ofNat 32 (2 ^ c) })) ∧
         exec (.tapDmi (.resume c) inp) s = .next (settle (twdFreeze { t with halted := s.halted &&& ~~~ BitVec.ofNat 32 (2 ^ c) }))) ∧
  (∀ (s t : State) (inp : BusIn) (op : DmiOp), s.rst ≠ .por → debugOpen s 1 = false → debugOpen s 2 = false → debugOpen s 3 =
       false → t = emit { s with tapIr := 0x11 } (.tapIr 1) →  exec (.tapDmi op inp) s = .next (settle t)) ∧
  (∀ (s t : State) (off size : Nat) (w : Word) (inp : BusIn), s.rst ≠ .por → debugOpen s 3 = true → t = emit
       { s with tapIr := 0x11 } (.tapIr 1) →
       exec (.tapDmi (.busWrite off size w) inp) s = .next (settle (busWrite ⟨4, true⟩ off size w inp t)) ∧
         exec (.tapDmi (.busRead off size) inp) s = .next (settle (match busReadWord ⟨4, true⟩ off size inp.ecc t with
         | (u, some r) => emit u (.tap (leBytes 4 r.toNat))
         | (u, none) => u))) ∧
  (∀ (s : State), s.rst = .por →
       exec .tapIdcode s = .next (settle s) ∧ exec .tapNonce s = .next (settle s) ∧ exec .tapTokenStatus s = .next (settle s) ∧
         exec .tapDtmcs s = .next (settle s) ∧ exec .tapBypass s = .next (settle s))

/-- R55, R276 to R278, R289, R300, R331: BOOT_BF_CMD's four commands and the events that end them. -/
def Obligations.BootFlashCommands : Prop :=
  (∀ (s : State) (a : Acc) (d : Word) (ad b n : Nat), takes s a .rom 0 0x128 (withField d 3 0 1) = true → rbit s (reg .rom 0
       0x12C) 0 = false → ad = (rget s (reg .rom 0 0x120)).toNat → b = (rget s (reg .rom 0 0x124)).toNat → n = fld d 28 16 →
       bfBad s 1 ad b n = false →
       exec (.bfRead a d) s = .next (settle (
         let t := rset { s with bf := some ⟨1, ad, b, n, false, !s.tbLoss⟩ } (reg .rom 0 0x12C) 1
         if s.tbLoss then t else emit t (.bootFlash 0x6C ad n [])))) ∧
  (∀ (s : State) (a : Acc) (d : Word) (ad b n : Nat), takes s a .rom 0 0x128 (withField d 3 0 2) = true → rbit s (reg .rom 0
       0x12C) 0 = false → ad = (rget s (reg .rom 0 0x120)).toNat → b = (rget s (reg .rom 0 0x124)).toNat → n = fld d 28 16 →
       bfBad s 2 ad b n = false →
       exec (.bfProgram a d {}) s = .next (settle (
         let t := rset { s with bf := some ⟨2, ad, b, n, false, !s.tbLoss⟩ } (reg .rom 0 0x12C) 1
         if s.tbLoss then t else emit (tset (tset (emit t (.bootFlash 0x06 0 0 [])) .bfPoll (us 2)) .bfMax (ms 10)) (.bootFlash 0x34 ad 0 (sramRead s b n))))) ∧
  (∀ (s : State) (a : Acc) (d : Word) (ad b n : Nat), takes s a .rom 0 0x128 (withField d 3 0 3) = true → rbit s (reg .rom 0
       0x12C) 0 = false → ad = (rget s (reg .rom 0 0x120)).toNat → b = (rget s (reg .rom 0 0x124)).toNat → n = fld d 28 16 →
       bfBad s 3 ad b n = false →
       exec (.bfErase4k a d) s = .next (settle (
         let t := rset { s with bf := some ⟨3, ad, b, n, false, !s.tbLoss⟩ } (reg .rom 0 0x12C) 1
         if s.tbLoss then t else emit (tset (tset (emit t (.bootFlash 0x06 0 0 [])) .bfPoll (us 2)) .bfMax (ms 2000)) (.bootFlash 0x21 ad 0 [])))) ∧
  (∀ (s : State) (a : Acc) (d : Word) (ad b n : Nat), takes s a .rom 0 0x128 (withField d 3 0 4) = true → rbit s (reg .rom 0
       0x12C) 0 = false → ad = (rget s (reg .rom 0 0x120)).toNat → b = (rget s (reg .rom 0 0x124)).toNat → n = fld d 28 16 →
       bfBad s 4 ad b n = false →
       exec (.bfErase64k a d) s = .next (settle (
         let t := rset { s with bf := some ⟨4, ad, b, n, false, !s.tbLoss⟩ } (reg .rom 0 0x12C) 1
         if s.tbLoss then t else emit (tset (tset (emit t (.bootFlash 0x06 0 0 [])) .bfPoll (us 2)) .bfMax (ms 2000)) (.bootFlash 0xDC ad 0 [])))) ∧
  (∀ (s t : State) (a : Acc) (d : Word) (op ad b n : Nat), takes s a .rom 0 0x128 (withField d 3 0 op) = true → op < 16 → rbit
       s (reg .rom 0 0x12C) 0 = false → ad = (rget s (reg .rom 0 0x120)).toNat → b = (rget s (reg .rom 0 0x124)).toNat → n = fld
       d 28 16 → bfBad s op ad b n = true → t = tstop (tstop (rset { s with bf := none } (reg .rom 0 0x12C) 0x013C0000) .bfPoll)
       .bfMax →
       exec (.registerWrite a (reg .rom 0 0x128) 4 (withField d 3 0 op) {}) s =
         .next (settle (irq (report t .rom 0 0x013C 0x128 1) .rom 0 3)) ∧
         (op = 1 → exec (.bfRead a d) s = .next (settle (irq (report t .rom 0 0x013C 0x128 1) .rom 0 3))) ∧
         (op = 2 → exec (.bfProgram a d {}) s = .next (settle (irq (report t .rom 0 0x013C 0x128 1) .rom 0 3))) ∧
         (op = 3 → exec (.bfErase4k a d) s = .next (settle (irq (report t .rom 0 0x013C 0x128 1) .rom 0 3))) ∧
         (op = 4 → exec (.bfErase64k a d) s = .next (settle (irq (report t .rom 0 0x013C 0x128 1) .rom 0 3)))) ∧
  (∀ (s : State) (b : BfRun), running s .bfPoll = true → s.bf = some b →
       exec (.bfBusyPoll false) s = .next (settle { tstop (emit (expired s .bfPoll) (.bootFlash 0x05 0 1 [])) .bfMax with
         bf := some { b with ready := true } })) ∧
  (∀ (s : State) (b : BfRun), running s .bfPoll = true → s.bf = some b →
       exec (.bfBusyPoll true) s = .next (settle (tset (emit (expired s .bfPoll) (.bootFlash 0x05 0 1 [])) .bfPoll (us 2)))) ∧
  (∀ (s : State), running s .bfMax = true →
       exec .bfBusyTimeout s = .next (settle (svcPortFree (irq (report (rset { tstop (tstop (expired s .bfMax) .bfPoll) .bfMax with bf := none }
         (reg .rom 0 0x12C) 0x013A0000) .rom 0 0x013A 0x128 1) .rom 0 3)))) ∧
  (∀ (s : State) (data : Bytes) (b : BfRun), s.bf = some b → s.tbLoss = false → b.op = 1 →
       exec (.bfCommandDone data true) s = .next (settle (svcPortFree (irq (rset { tstop (tstop (sramWrite s b.buf (sliceZ data 0 b.len))
         .bfPoll) .bfMax with bf := none } (reg .rom 0 0x12C) 0) .rom 0 3)))) ∧
  (∀ (s : State) (data : Bytes) (b : BfRun), s.bf = some b → s.tbLoss = false → b.op ≠ 1 → b.ready = true →
       exec (.bfCommandDone data true) s = .next (settle (svcPortFree (
         irq (rset { tstop (tstop s .bfPoll) .bfMax with bf := none } (reg .rom 0 0x12C) 0) .rom 0 3)))) ∧
  (∀ (s : State) (data : Bytes) (b : BfRun), s.bf = some b → s.tbLoss = false → (b.op = 1 ∨ b.ready = true) →
       exec (.bfCommandDone data false) s = .next (settle (svcPortFree (irq (report (rset { tstop (tstop s .bfPoll) .bfMax with bf := none }
         (reg .rom 0 0x12C) 0x013A0000) .rom 0 0x013A 0x128 1) .rom 0 3))))

/-- R279, R282, R295, R296, R301, R363: the push aperture's bytes, length and go, and a write that may not push. -/
def Obligations.PushWindow : Prop :=
  (∀ (s t : State) (off : Nat) (bs : List (Option Byte)), pciUp s = true → t = wakeFor s 2 → mayPush t 1 = true → off +
       bs.length ≤ 0x400000 →
       exec (.pushApertureWrite off bs) s =
         .next (settle (rsetf { t with bootSram := bootWriteBytes t.bootSram off bs } (reg .rom 0 0x118) 4 3 1))) ∧
  (∀ (s t : State) (bs : List (Option Byte)), pciUp s = true → t = wakeFor s 2 → mayPush t 1 = true → 0 < bs.length → bs.length
       ≤ 8 →
       exec (.pushApertureWrite 0x400000 bs) s = .next (settle (rsetf { t with
         pushLen := BitVec.ofNat 32 (leNat (bs.map (·.getD 0))) &&& 0x007FFFFF } (reg .rom 0 0x118) 4 3 1))) ∧
  (∀ (s t : State) (off : Nat) (bs : List (Option Byte)), pciUp s = true → t = wakeFor s 2 → mayPush t 1 = false → off ≠
       0x400004 → off < 0x400008 → off + bs.length ≤ 0x400008 →
       exec (.pushApertureWrite off bs) s = .next (settle (report (rcount t (reg .pci 0 0x058) 15 0 1) .pci 0 0x1103 0 3))) ∧
  (∀ (s t : State) (bs : List (Option Byte)) (w : Word), pciUp s = true → t = wakeFor s 2 → bs.length = 4 → w = BitVec.ofNat 32
       (leNat (bs.map (·.getD 0))) → w ≠ rget t (reg .rom 0 0x118) →
       exec (.pushApertureWrite 0x400008 bs) s = .next (settle (busLog t ⟨0x10, false⟩ true 0 4 w .readOnly))) ∧
  (∀ (s : State) (d : Word) (env : RomEnv), pageOn s .pci 0 = true → mayPush s 1 = false →
       exec (.pushGo d env) s = .next (settle (report (rcount s (reg .pci 0 0x058) 15 0 1) .pci 0 0x1103 0 3))) ∧
  (∀ (s : State) (d : Word) (env : RomEnv), pageOn s .pci 0 = true → mayPush s 1 = true → (fld d 31 16 ≠ 0xA5C3 ∨ bit d 0 =
       false) →  exec (.pushGo d env) s = .next (settle s)) ∧
  (∀ (s : State) (d : Word) (env : RomEnv) (len : Nat), pageOn s .pci 0 = true → mayPush s 1 = true → fld d 31 16 = 0xA5C3 →
       bit d 0 = true → len = s.pushLen.toNat → (len = 0 ∨ len > 0x400000 ∨ len % 64 ≠ 0) →
       exec (.pushGo d env) s = .next (settle (
         rsetf (report (rset (rsetf s (reg .rom 0 0x118) 4 3 1) (reg .rom 0 0x11C) s.pushLen) .rom 0 0x013E 0 3) (reg .rom 0 0x118) 31 16 0x013E))) ∧
  (∀ (s t : State) (d : Word) (env : RomEnv) (len : Nat) (b : Bytes) (x : RomRun), pageOn s .pci 0 = true → mayPush s 1 = true
       → fld d 31 16 = 0xA5C3 → bit d 0 = true → len = s.pushLen.toNat → 0 < len → len ≤ 0x400000 → len % 64 = 0 → s.sage =
       .window true → t = rset (rsetf s (reg .rom 0 0x118) 4 3 1) (reg .rom 0 0x11C) s.pushLen → b = memRead s.bootSram 0 len → x
       = peekRec (romRun t env 0) env →
       exec (.pushGo d env) s = .next (settle (
         match bundleBad x.s b len (x.rc.map (·.minVersion)) (!rbit x.s (reg .rom 0 0x050) 3) false with
         | none => bootFrom { x with s := rsetb x.s (reg .rom 0 0x118) 0 false } env b 3 false false
         | some code => rsetf (openPush (rejectAs (bootZeroed x.s (if code = 0x0130 then len else fieldLe b 8 4)) code 3) true) (reg .rom 0 0x118) 31 16 code)))

/-- R303 to R305, R309 to R313, R316: the six commands in a state that accepts them, and their refusals; `w` is the word named. -/
def Obligations.FuseCommands : Prop :=
  (∀ (s : State) (a : Acc) (d : Word) (w : Nat), takes s a .fus 0 0x044 (withField d 3 0 1) = true → s.fus = none → w = fld d
       14 5 → fusBad s (withField d 3 0 1) = none → fuseUnsure s w = 0 →
       exec (.fuseRead a d) s = .next (settle (
         fusEnd (rset (rset s (reg .fus 0 0x050) (fuseRead s w ||| fuseStrict s w)) (reg .fus 0 0x054) (fuseStrict s w)) 0 0 w))) ∧
  (∀ (s : State) (a : Acc) (d : Word) (w : Nat), takes s a .fus 0 0x044 (withField d 3 0 1) = true → s.fus = none → w = fld d
       14 5 → fusBad s (withField d 3 0 1) = none →
       completes (.fuseRead a d) s fun u => rget u (reg .fus 0 0x050) &&& ~~~fuseUnsure s w = (fuseRead s w ||| fuseStrict s w) &&& ~~~fuseUnsure s w ∧
         rget u (reg .fus 0 0x054) = fuseStrict s w ∧ rfld u (reg .fus 0 0x04C) 18 0 = 0 ∧ rbit u (reg .fus 0 0x010) 0 = true ∧
         u.fuseR = s.fuseR ∧ u.fuseS = s.fuseS) ∧
  (∀ (s : State) (a : Acc) (d bits : Word) (w : Nat), takes s a .fus 0 0x044 (withField d 3 0 2) = true → s.fus = none → w =
       fld d 14 5 → fusBad s (withField d 3 0 2) = none → bits = rget s (reg .fus 0 0x048) →
       exec (.fuseProgram a d) s = .next (settle (if bits = 0 then fusEnd s 0 0 w else
         (let t := { s with fus := some { steps := [.prog w bits (bit d 4)] } }; if s.tamperDue > 0 then t else tset t .fusPulse 1000)))) ∧
  (∀ (s : State) (a : Acc) (d bits : Word) (w : Nat), takes s a .fus 0 0x044 (withField d 3 0 3) = true → s.fus = none → w =
       fld d 14 5 → fusBad s (withField d 3 0 3) = none → bits = fuseRead s w &&& ~~~fuseStrict s w →
       exec (.fuseRepair a d) s = .next (settle (if bits = 0 then fusEnd s 0 0 w else
         (let t := { s with fus := some { steps := [.prog w bits true] } }; if s.tamperDue > 0 then t else tset t .fusPulse 1000)))) ∧
  (∀ (s t : State) (a : Acc) (d : Word) (b : Nat), takes s a .fus 0 0x044 (withField d 3 0 4) = true → s.fus = none → b = fld d
       14 5 / 64 → fusBad s (withField d 3 0 4) = none → t = strictCheck s b →
       exec (.fuseLock a d) s = .next (settle (
         if bankWeak s b then fusEnd t 0x0807 0 (fld d 14 5)
         else if fuseRead s (64 * b + 63) ≠ integrityWord s b ∨ fuseStrict s (64 * b + 63) ≠ integrityWord s b then fusEnd t 0x0806 0 (fld d 14 5)
         else (let u := { t with fus := some { steps := [.prog 196 (mk b b 1) true] } }; if s.tamperDue > 0 then u else tset u .fusPulse 1000)))) ∧
  (∀ (s : State) (a : Acc) (d : Word), takes s a .fus 0 0x044 (withField d 3 0 5) = true → s.fus = none → fusBad s (withField d
       3 0 5) = none →  exec (.rootGen a d) s = .next (settle (fusRun (draw s 64).2 0 (fld d 14 5) (rootGenSteps (draw s 64).1)))) ∧
  (∀ (s : State) (a : Acc) (d : Word) (w : Nat), takes s a .fus 0 0x044 (withField d 3 0 6) = true → s.fus = none → w = fld d
       14 5 → fusBad s (withField d 3 0 6) = none → ((s.fuseU.any fun e => e.1 / 64 == w / 64) = false) →
       exec (.strictCheck a d) s = .next (settle (fusEnd (rsetb s (reg .fus 0 0x060) (w / 64) (bankWeak s (w / 64))) 0 0 w))) ∧
  (∀ (s : State) (a : Acc) (d : Word) (w : Nat), takes s a .fus 0 0x044 (withField d 3 0 6) = true → s.fus = none → w = fld d
       14 5 → fusBad s (withField d 3 0 6) = none →
       exec (.strictCheck a d) s = .next (settle (fusEnd (strictCheck s (w / 64)) 0 0 w))) ∧
  (∀ (s t : State) (a : Acc) (d : Word) (op code : Nat), takes s a .fus 0 0x044 (withField d 3 0 op) = true → op < 16 → s.fus =
       none → fusBad s (withField d 3 0 op) = some code → t = fusEnd s code 0 (fld d 14 5) →
       (op = 1 → exec (.fuseRead a d) s = .next (settle t)) ∧ (op = 2 → exec (.fuseProgram a d) s = .next (settle t)) ∧
         (op = 3 → exec (.fuseRepair a d) s = .next (settle t)) ∧ (op = 4 → exec (.fuseLock a d) s = .next (settle t)) ∧
         (op = 5 → exec (.rootGen a d) s = .next (settle t)) ∧ (op = 6 → exec (.strictCheck a d) s = .next (settle t)) ∧
         exec (.registerWrite a (reg .fus 0 0x044) 4 (withField d 3 0 op) {}) s = .next (settle t)) ∧
  (∀ (s : State) (d : Word) (op : Nat), 1 ≤ op → op ≤ 6 →
       (fld d 31 16 ≠ 0xA5C3 → fusBad s (withField d 3 0 op) = some 0x080B) ∧
         (fld d 31 16 = 0xA5C3 → s.locked = true → op = 4 ∨ op = 5 → fusBad s (withField d 3 0 op) = some 0x0809) ∧
         (fld d 31 16 = 0xA5C3 → s.locked = true → handover s = true → op = 2 ∨ op = 3 → fusBad s (withField d 3 0 op) = some 0x0809)) ∧
  (∀ (s : State) (d : Word) (w : Nat), fld d 31 16 = 0xA5C3 → s.locked = false → w = fld d 14 5 →
       (w < 128 → fusBad s (withField d 3 0 1) = some 0x0802) ∧
         (bankLocked s (w / 64) = true → fusBad s (withField d 3 0 2) = some 0x0801) ∧
         (bankLocked s (w / 64) = false → w < 128 → fusBad s (withField d 3 0 2) = some 0x0802) ∧
         (bankLocked s (w / 64) = false → w = 196 → fusBad s (withField d 3 0 2) = some 0x0808) ∧
         (w < 128 → handover s = true → fusBad s (withField d 3 0 3) = some 0x0802) ∧
         (lockable (w / 64) = false → fusBad s (withField d 3 0 4) = some 0x0805) ∧
         (handover s = true → fusBad s (withField d 3 0 5) = some 0x080C) ∧
         (128 ≤ w → fuseConditions s = false → fusBad s (withField d 3 0 3) = some 0x080A) ∧
         (fusBad s (withField d 3 0 6) = none)) ∧
  (∀ (s : State) (a : Acc) (d : Word) (r : FusRun), takes s a .fus 0 0x044 (withField d 3 0 2) = true → s.fus = some r →
       exec (.fuseProgram a d) s = .next (settle (busLog s a true (reg .fus 0 0x044) 4 (withField d 3 0 2) .busy)))

/-- R303 to R305, R308, R310, R312, R315, R316: a pulse on word `w` with bits `b`, by what it reads afterwards at READ, NORM and
  STRICT (`r`, `n`, `t`), and one tamper advance. -/
def Obligations.FusePulses : Prop :=
  (∀ (s : State) (w k : Nat) (b r n t : Word) (st : Bool), running s .fusPulse = true → s.fus = some ⟨[.prog w b st], k⟩ → b
       &&& ~~~(fuseStrict s w ||| (t &&& b) ||| (if st then 0 else n &&& b)) = 0 →
       exec (.fusePulseEnd r n t) s = .next (settle (nowRooted (
         fusEnd (pulsed (expired s .fusPulse) w b (r ||| n ||| t) t (if st then t else n ||| t)) 0 (k + 1) w)))) ∧
  (∀ (s : State) (w w' k : Nat) (b b' r n t : Word) (st st' : Bool) (rest : List FusStep) (q : State), running s .fusPulse =
       true → s.fus = some ⟨.prog w b st :: .prog w' b' st' :: rest, k⟩ → b &&& ~~~(fuseStrict s w ||| (t &&& b) ||| (if st then
       0 else n &&& b)) = 0 → b' ≠ 0 → q =
       { pulsed (expired s .fusPulse) w b (r ||| n ||| t) t (if st then t else n ||| t) with fus := some { steps := .prog w' b' st' :: rest } }
       →  exec (.fusePulseEnd r n t) s = .next (settle (nowRooted (if s.tamperDue > 0 then q else tset q .fusPulse 1000)))) ∧
  (∀ (s : State) (w k : Nat) (b r n t f : Word) (st : Bool) (rest : List FusStep), running s .fusPulse = true → s.fus = some
       ⟨.prog w b st :: rest, k⟩ → f = b &&& ~~~(fuseStrict s w ||| (t &&& b) ||| (if st then 0 else n &&& b)) → f ≠ 0 → k < 4 →
       s.tamperDue = 0 → s.tem.observe = false →
       completes (.fusePulseEnd r n t) s fun u => u.fus = some { steps := .prog w f st :: rest, pulses := k + 1 } ∧
         tget u .fusPulse = some 1000 ∧ fuseStrict u w = fuseStrict s w ||| (t &&& b) ∧
         fuseRead u w = fuseRead s w ||| ((r ||| n ||| t) &&& b) ||| fuseStrict u w ∧
         ∀ v, v ≠ w → fuseRead u v = fuseRead s v ∧ fuseStrict u v = fuseStrict s v) ∧
  (∀ (s : State) (w k : Nat) (b r n t : Word) (st : Bool) (rest : List FusStep), running s .fusPulse = true → s.fus = some
       ⟨.prog w b st :: rest, k⟩ → 4 ≤ k → b &&& ~~~(fuseStrict s w ||| (t &&& b) ||| (if st then 0 else n &&& b)) ≠ 0 →
       exec (.fusePulseEnd r n t) s = .next (settle (nowRooted (
         fusEnd (pulsed (expired s .fusPulse) w b (r ||| n ||| t) t (if st then t else n ||| t)) 0x0804 (k + 1) w)))) ∧
  (∀ (s : State) (w : Nat) (b r t ok : Word),
       fuseRead (pulsed s w b r t ok) w = fuseRead s w ||| (r &&& b) ||| fuseStrict s w ||| (t &&& b) ∧
         fuseStrict (pulsed s w b r t ok) w = fuseStrict s w ||| (t &&& b) ∧
         ∀ v, v ≠ w → fuseRead (pulsed s w b r t ok) v = fuseRead s v ∧ fuseStrict (pulsed s w b r t ok) v = fuseStrict s v) ∧
  (∀ (s : State) (k : Nat) (m : Word) (r t : Bool), s.rst = .none → tget s .fusPulse = none → 0 < s.tamperDue → k = tamperCount
       s → k < 512 → m = mk (k % 32) (k % 32) 1 → (r ∨ t) →
       exec (.tamperCountAdvance r t) s = .next (settle (
         let u := irq { pulsed s (208 + k / 32) m (if r then m else 0) (if t then m else 0) (if t then m else 0) with tamperDue := s.tamperDue - 1 } .fus 0 2
         if s.tamperDue = 1 ∧ s.fus.isSome then tset u .fusPulse 1000 else u))) ∧
  (∀ (s : State) (k : Nat) (m : Word), s.rst = .none → tget s .fusPulse = none → 0 < s.tamperDue → k = tamperCount s → k < 512
       → m = mk (k % 32) (k % 32) 1 →  exec (.tamperCountAdvance false false) s = .next (settle (pulsed s (208 + k / 32) m 0 0 0))) ∧
  (∀ (s : State), s.rst = .none → tget s .fusPulse = none → 0 < s.tamperDue → 512 ≤ tamperCount s →
       exec (.tamperCountAdvance true true) s = .next (settle { s with tamperDue := 0 }))

/-- R318 to R325, R441: a request, its grant and the reconcile; a succeeding operation also ends a difference between the copies (the
  model's, assumption log 76). -/
def Obligations.CounterOperations : Prop :=
  (∀ (s : State) (a : Acc) (q : Nat) (d : Word), q < 4 → takes s a .cst 0 (0x080 + 16 * q) (withField d 1 0 1) = true → rbit s
       (coreResult q) 16 = false →
       exec (.cstIncrement a q d) s = .next (settle { rset s (coreResult q) 0x10000 with cstOps := s.cstOps ++
         [⟨.core q, false, fld d 15 8, addr64 s (reg .cst 0 (0x084 + 16 * q))⟩] })) ∧
  (∀ (s : State) (a : Acc) (q : Nat) (d : Word), q < 4 → takes s a .cst 0 (0x080 + 16 * q) (withField d 1 0 2) = true → rbit s
       (coreResult q) 16 = false →
       exec (.cstRaise a q d) s = .next (settle { rset s (coreResult q) 0x10000 with cstOps := s.cstOps ++
         [⟨.core q, true, fld d 15 8, addr64 s (reg .cst 0 (0x084 + 16 * q))⟩] })) ∧
  (∀ (s : State) (a : Acc) (q : Nat) (d : Word), q < 4 → takes s a .cst 0 (0x080 + 16 * q) (withField d 1 0 1) = true → rbit s
       (coreResult q) 16 = true →
       exec (.cstIncrement a q d) s = .next (settle (busLog s a true (reg .cst 0 (0x080 + 16 * q)) 4 (withField d 1 0 1) .busy))) ∧
  (∀ (s : State) (c : Nat) (d : Word), 68 ≤ c → c < 256 → takes s ⟨0, true⟩ .cst 0 (0x400 + 4 * c) d = true → ownerValueOk c d
       = true →
       exec (.cstOwnerWrite ⟨0, true⟩ c d) s =
         .next (settle (rset s (reg .cst 0 (0x400 + 4 * c)) (takenWord s .cst 0 (0x400 + 4 * c) d)))) ∧
  (∀ (s : State) (a : Acc) (c : Nat) (d : Word), c < 256 → takes s a .cst 0 (0x400 + 4 * c) d = true → (a.master ≠ 0 ∨
       ownerValueOk c d = false) →  exec (.cstOwnerWrite a c d) s = .next (settle (report s .cst 0 0x0901 (0x400 + 4 * c) 1))) ∧
  (∀ (s : State) (k q : Nat) (o : CstOp) (e : State), s.reconciling = false → s.rst = .none → s.cstOps[k]? = some o → o.req =
       .core q → cstBad s o = none → e = { s with cstOps := s.cstOps.eraseIdx k } →
       exec (.counterOperationDone k false false) s = .next (settle (
         if cstResult s o = counter s o.ctr then coreCstEnds e q 0 false else coreCstEnds (setCopies e o.ctr (cstResult s o) none) q 0 true))) ∧
  (∀ (s : State) (k q : Nat) (o : CstOp) (bf : Bool), s.reconciling = false → s.rst = .none → s.cstOps[k]? = some o → o.req =
       .core q → cstBad s o = none → cstResult s o ≠ counter s o.ctr →
       completes (.counterOperationDone k true bf) s (fun u => counter u o.ctr = counter s o.ctr ∧ o.ctr ∈ u.ctrFailed ∧
         rget u (coreResult q) = 0x0903 ∧ u.cstOps = s.cstOps.eraseIdx k ∧ rbit u (reg .cst 0 0x010) 4 = true) ∧
         completes (.counterOperationDone k false true) s (fun u => counter u o.ctr = cstResult s o ∧ o.ctr ∈ u.ctrFailed ∧
         rget u (coreResult q) = 0x20903 ∧ u.cstOps = s.cstOps.eraseIdx k ∧ rbit u (reg .cst 0 0x010) 4 = true)) ∧
  (∀ (s : State) (k q code : Nat) (o : CstOp) (x y : Bool), (s.reconciling = false ∨ domOn s 29 = false) → s.rst = .none →
       s.cstOps[k]? = some o → o.req = .core q → cstBad s o = some code →
       exec (.counterOperationDone k x y) s = .next (settle (coreCstEnds { s with cstOps := s.cstOps.eraseIdx k } q code false))) ∧
  (∀ (s : State) (q : Nat) (o : CstOp), o.req = .core q → o.ctr < 256 →
       (domOn s 29 = false → cstBad s o = some 0x0905) ∧
         (domOn s 29 = true → s.locked = true → cstBad s o = some 0x0906) ∧
         (domOn s 29 = true → s.locked = false → 4 ≤ o.ctr → o.ctr < 140 → cstBad s o = some 0x0902) ∧
         (domOn s 29 = true → s.locked = false → mayChange s o = true → o.ctr ∈ s.ctrFailed → cstBad s o = some 0x0903) ∧
         (domOn s 29 = true → s.locked = false → mayChange s o = true → o.ctr ∉ s.ctrFailed → o.raise = false → 2 ^ 64 - 1 ≤ counter s o.ctr →
           cstBad s o = some 0x0904)) ∧
  (∀ (s : State) (c a b : Nat), s.reconciling = true → s.rst ≠ .por → domOn s 29 = true → s.torn = [(c, some a, some b)] → a ≠
       b → c < 256 → s.pair.grantWaits = none →
       completes (.reconcileDone []) s fun u => counter u c = max a b ∧ u.torn = [] ∧ u.reconciling = false ∧
         rbit u (reg .cst 0 0x010) 5 = true ∧ rbit u (ownerReg c) 30 = true ∧
         rfld u (reg .cst 0 0x040) 15 8 = satAdd (rfld s (reg .cst 0 0x040) 15 8) 1 255 ∧ (∀ e, e ≠ c → counter u e = counter s e))

/-- R55, R56, R327, R328, R336, R340: each kind of sample, and the N-of-M rule for a clock source and for one whose rule is one excursion. -/
def Obligations.TamperSamples : Prop :=
  (∀ (s : State) (i c : Nat), s.rst = .none → i ≤ 6 →
       exec (.supplySample i c) s = .next (settle (
         have e := decide (c % 2 ^ 14 < rfld s (temReg (0x080 + 4 * i)) 13 0) || decide (rfld s (temReg (0x080 + 4 * i)) 29 16 < c % 2 ^ 14)
         sample (rset s (temReg (0x0C0 + 4 * i)) (mk 13 0 (c % 2 ^ 14) ||| mk 31 31 (b2n e))) i e))) ∧
  (∀ (s : State) (i c : Nat), s.rst = .none → i ≤ 3 →
       exec (.temperatureSample i c) s = .next (settle (
         have e := decide (c % 2 ^ 14 < rfld s (temReg (0x09C + 4 * i)) 13 0) || decide (rfld s (temReg (0x09C + 4 * i)) 29 16 < c % 2 ^ 14)
         sample (rset s (temReg (0x0DC + 4 * i)) (mk 13 0 (c % 2 ^ 14) ||| mk 31 31 (b2n e))) (0x20 + i) e))) ∧
  (∀ (s : State) (b : Bool), s.rst = .none → s.tbLoss = false →  exec (.tbclkGlitch b) s = .next (settle (sample s 0x40 b))) ∧
  (∀ (s : State) (b : Bool), s.rst = .none →  exec (.meshPass b) s = .next (settle (sample s 0x60 b))) ∧
  (∀ (s : State) (i : Nat) (l : Bool), s.rst = .none → s.tbLoss = false → i ≤ 3 → rbit s (temReg 0x048) i = true →
       exec (.caseInputChange i l) s = .next (settle (sample s (0x80 + i) (l == rbit s (temReg 0x048) (4 + i))))) ∧
  (∀ (s : State) (c : Nat), s.rst = .none → s.tem.window = false →
       exec (.vbatSample c) s = .next (settle (
         have low := decide (c % 2 ^ 14 < rfld s (temReg 0x0AC) 13 0)
         sample (rset s (temReg 0x0EC) (mk 13 0 (c % 2 ^ 14) ||| mk 31 31 (b2n low))) 0xA0 low))) ∧
  (∀ (s t : State) (c : Nat), s.rst = .none → s.tem.window = true → t = sample (rset s (temReg 0x0EC) (mk 13 0 (c % 2 ^ 14)))
       0xA0 false →
       exec (.vbatSample c) s = .next (settle (
         if c % 2 ^ 14 < rfld s (temReg 0x0AC) 13 0 then tstop { t with tem := { t.tem with dipped := true } } .battOk
         else if rfld s (temReg 0x0AC) 29 16 < c % 2 ^ 14 then tstop t .battOk
         else if s.tem.dipped ∧ tget s .battOk = none then tset t .battOk (us 1000000) else t))) ∧
  (∀ (s : State) (i c : Nat), s.rst = .none → i ≤ 21 → (i < 16 → pagePresent s.part .fgpCtl i = true) →
       exec (.stateCodeCheck i c) s = .next (settle (sample s (0xC0 + i) (!(stateCodes i).contains c)))) ∧
  (∀ (s : State), s.rst = .none → s.tbLoss = false →
       exec (.tbclkGlitch false) s = .next (settle { s with tem := { s.tem with met := s.tem.met.filter (· != 0x40) } })) ∧
  (∀ (s : State) (n m : Nat) (old : List Nat), s.rst = .none → s.tbLoss = false → s.tem.met.contains 0x40 = false → n = rfld s
       (temReg 0x068) 3 0 → m = 100 * rfld s (temReg 0x068) 23 4 → (old = (Tbl.get (fun _ => []) s.tem.excs 0x40).filter (fun t
       => s.tbTime ≤ t + m)) →
       exec (.tbclkGlitch true) s = .next (settle (
         if old.length + 1 < n then { s with tem := { s.tem with excs := Tbl.set (fun _ => ([] : List Nat)) s.tem.excs 0x40 (s.tbTime :: old) } }
         else alarm { s with tem := { s.tem with excs := s.tem.excs.erase 0x40, met := 0x40 :: s.tem.met } } 0x40))) ∧
  (∀ (s : State), s.rst = .none → s.tbLoss = true → s.tem.met.contains 0x41 = false →
       exec .timebaseLossPersists s =
         .next (settle (alarm { s with tem := { s.tem with excs := s.tem.excs.erase 0x41, met := 0x41 :: s.tem.met } } 0x41))) ∧
  (∀ (s : State), s.rst = .none → s.tem.met.contains 0x60 = false →
       exec (.meshPass true) s = .next (settle (alarm { s with tem := { s.tem with excs := s.tem.excs.erase 0x60, met := 0x60 :: s.tem.met } } 0x60)))

/-- R308, R329, R331, R332, R336: one alarm in a locked-capable device, the ways a battery window closes, and the token load. -/
def Obligations.TamperAlarms : Prop :=
  (∀ (s : State), s.rst = .none → s.tem.met.contains 0x60 = false → s.tem.observe = false → s.locked = false → tamperNow s <
       512 →
       completes (.meshPass true) s fun u => u.locked = true ∧ u.tem.latch = true ∧ u.tamperDue = s.tamperDue + 1 ∧
         fld u.tem.info 7 0 = 0x60 ∧ bit u.tem.info 31 = true ∧ fld u.tem.info 17 8 = tamperNow s + 1 ∧
         rfld u (temReg 0x040) 31 16 = satAdd (rfld s (temReg 0x040) 31 16) 1 0xFFFF ∧ 0x60 ∈ u.tem.met ∧
         rbit u (reg .tem 0 0x010) 0 = true ∧ rbit u (reg .tem 0 0x010) 1 = true) ∧
  (∀ (s : State), s.rst = .none → s.tem.met.contains 0x60 = false → s.tem.observe = true →
       completes (.meshPass true) s fun u => u.locked = s.locked ∧ u.tem.latch = s.tem.latch ∧ u.tamperDue = s.tamperDue ∧
         rfld u (temReg 0x040) 31 16 = satAdd (rfld s (temReg 0x040) 31 16) 1 0xFFFF ∧ fld (rget u (temReg 0x054)) 7 0 = 0x60) ∧
  (∀ (s : State), s.rst = .none → s.tem.met.contains 0x60 = false → s.tem.observe = false → s.locked = true → tamperNow s < 512
       →
       completes (.meshPass true) s fun u => u.locked = true ∧ u.tem.latch = true ∧ u.tamperDue = s.tamperDue + 1 ∧ u.tem.info = s.tem.info ∧
         rfld u (temReg 0x040) 31 16 = satAdd (rfld s (temReg 0x040) 31 16) 1 0xFFFF ∧ fld (rget u (temReg 0x054)) 7 0 = 0x60 ∧
         rbit u (reg .tem 0 0x010) 1 = true) ∧
  (∀ (s : State), running s .battOk = true →
       exec .batteryWindowClose s = .next (settle (irq (freshCanary { tstop (expired s .battOk) .battWin with
         tem := { s.tem with window := false, dipped := false } }) .tem 0 3))) ∧
  (∀ (s : State), running s .battWin = true →
       completes .batteryWindowExpiry s fun u => u.tem.window = false ∧ tget u .battWin = none ∧ tget u .battOk = none ∧
         rbit u (reg .tem 0 0x010) 3 = true ∧ (sampleCode s 11 < rfld s (temReg 0x0AC) 13 0 → 0xA0 ∈ u.tem.met ∧
           rfld u (temReg 0x040) 31 16 = satAdd (rfld s (temReg 0x040) 31 16) 1 0xFFFF ∧ fld (rget u (temReg 0x054)) 7 0 = 0xA0) ∧
         (rfld s (temReg 0x0AC) 13 0 ≤ sampleCode s 11 → u.tem.met = s.tem.met ∧ u.locked = s.locked)) ∧
  (∀ (s : State) (d : Word), takes s ⟨0, true⟩ .tem 0 0x058 (d ||| 1) = true → fld d 31 16 = 0xA5C3 →
       exec (.temTokenLoad ⟨0, true⟩ d) s = .next (settle (rsetb { s with token := (rbytes s (reg .rom 0 0x400) 44).take 176 }
         (reg .rom 0 0x064) 16 true)))

/-- R342, R343, R346 to R350: the boot watchdog's kick, hand-over and half period, and the task watchdog's arming, check-in and period
  end.  A kick from another master, in another state or without its key only reports 0x0501; a missing slot starts the pre-bite: state
  0xCC, the missing slots, interrupt bit 0 and the grace time. -/
def Obligations.WatchdogCounts : Prop :=
  (∀ (s : State) (w : Word), takes s ⟨0, true⟩ .bwd 0 0x048 w = true → rfld s (reg .bwd 0 0x040) 7 0 = 0x0F → fld w 31 16 =
       0xA5C3 → bit w 0 = true →  exec (.bwdKick ⟨0, true⟩ w) s = .next (settle (tset (tstop s .bwdHalf) .bwd 100000000))) ∧
  (∀ (s : State) (w : Word), takes s ⟨0, true⟩ .bwd 0 0x050 w = true → rfld s (reg .bwd 0 0x040) 7 0 = 0x0F → fld w 31 16 =
       0xA5C3 → bit w 0 = true →
       exec (.bwdHandover ⟨0, true⟩ w) s = .next (settle (
         let n := 100000 * rfld s (reg .bwd 0 0x04C) 21 0
         tset (tset (tstop (rsetf (rsetf s (reg .bwd 0 0x040) 7 0 (if bit w 1 then 0x55 else 0x33)) (reg .rom 0 0x040) 23 16 0)
           .bwdHalf) .bwd n) .bwdHalf (n - n / 2)))) ∧
  (∀ (s : State), running s .bwdHalf = true →
       exec .bwdHalfPeriod s = .next (settle (rsetb (rsetb (expired s .bwdHalf) (reg .bwd 0 0x040) 8 true) (reg .bwd 0 0x010) 0 true))) ∧
  (∀ (s : State) (a : Acc) (w : Word), takes s a .bwd 0 0x048 w = true → (a.master ≠ 0 ∨ a.priv = false ∨ rfld s (reg .bwd 0
       0x040) 7 0 ≠ 0x0F ∨ fld w 31 16 ≠ 0xA5C3) →  exec (.bwdKick a w) s = .next (settle (report s .bwd 0 0x0501 0x048 1))) ∧
  (∀ (s t : State) (w : Word), takes s ⟨0, true⟩ .twd 0 0x04C w = true → s.tbLoss = false → w ≠ 0 → rfld s (reg .twd 0 0x040) 7
       0 = 0x99 → t = tset (rsetf (rset s (reg .twd 0 0x04C) (rget s (reg .twd 0 0x04C) ||| w)) (reg .twd 0 0x040) 7 0 0xAA) .twd
       (100 * rfld s (reg .twd 0 0x048) 23 0 + 1) →
       exec (.twdArm ⟨0, true⟩ w) s = .next (settle (twdFreeze (if rfld s (reg .bwd 0 0x040) 7 0 = 0x33 then
         rsetb (rsetf (tstop (tstop t .bwd) .bwdHalf) (reg .bwd 0 0x040) 7 0 0x66) (reg .bwd 0 0x010) 1 true else t)))) ∧
  (∀ (s : State) (w : Word), takes s ⟨0, true⟩ .twd 0 0x04C w = true → s.tbLoss = false → w ≠ 0 → rfld s (reg .twd 0 0x040) 7 0
       ≠ 0x99 →
       exec (.twdArm ⟨0, true⟩ w) s = .next (settle (twdFreeze { rset s (reg .twd 0 0x04C) (rget s (reg .twd 0 0x04C) ||| w) with
         twdNew := s.twdNew ||| (w &&& ~~~rget s (reg .twd 0 0x04C)) }))) ∧
  (∀ (s : State) (a : Acc) (w : Word), takes s a .twd 0 0x050 w = true → s.tbLoss = false → fld w 31 16 = 0xA5C3 → rbit s (reg
       .twd 0 0x04C) (fld w 4 0) = true → a.master.toNat = rfld s (reg .twd 0 (0x080 + 4 * fld w 4 0)) 7 0 → a.priv = true → rbit
       s (reg .twd 0 0x054) (fld w 4 0) = false →
       exec (.twdCheckin a w) s = .next (settle (rsetb s (reg .twd 0 0x054) (fld w 4 0) true))) ∧
  (∀ (s : State) (a : Acc) (w : Word), takes s a .twd 0 0x050 w = true → s.tbLoss = false → fld w 31 16 = 0xA5C3 → rbit s (reg
       .twd 0 0x04C) (fld w 4 0) = true → a.master.toNat = rfld s (reg .twd 0 (0x080 + 4 * fld w 4 0)) 7 0 → a.priv = true → rbit
       s (reg .twd 0 0x054) (fld w 4 0) = true →
       exec (.twdCheckin a w) s = .next (settle (rsetb (rsetb s (reg .twd 0 0x058) (fld w 4 0) true) (reg .twd 0 0x010) 1 true))) ∧
  (∀ (s : State) (a : Acc) (w : Word), takes s a .twd 0 0x050 w = true → s.tbLoss = false → fld w 31 16 = 0xA5C3 → rbit s (reg
       .twd 0 0x04C) (fld w 4 0) = false →  exec (.twdCheckin a w) s = .next (settle (report s .twd 0 0x0604 0x050 1))) ∧
  (∀ (s t : State) (a : Acc) (w : Word), takes s a .twd 0 0x050 w = true → s.tbLoss = false → fld w 31 16 = 0xA5C3 → rbit s
       (reg .twd 0 0x04C) (fld w 4 0) = true → a.master.toNat ≠ rfld s (reg .twd 0 (0x080 + 4 * fld w 4 0)) 7 0 → t = busLog s a
       true (reg .twd 0 0x050) 4 w .rights →
       exec (.twdCheckin a w) s = .next (settle (rsetb (rset t (reg .twd 0 0x060) (mk 4 0 (fld w 4 0) ||| mk 15 8 a.master.toNat |||
         mk 16 16 (b2n a.priv) ||| mk 31 24 (satAdd (rfld s (reg .twd 0 0x060) 31 24) 1 255))) (reg .twd 0 0x010) 2 true))) ∧
  (∀ (s : State) (a : Acc) (w : Word), takes s a .twd 0 0x050 w = true → s.tbLoss = false → fld w 31 16 ≠ 0xA5C3 →
       exec (.twdCheckin a w) s = .next (settle (report s .twd 0 0x0601 0x050 1))) ∧
  (∀ (s : State), running s .twd = true → rget s (reg .twd 0 0x04C) &&& ~~~ rget s (reg .twd 0 0x054) &&& ~~~ s.twdNew = 0 →
       exec .twdPeriodEnd s = .next (settle (
         tset { rset (rcount (expired s .twd) (reg .twd 0 0x064) 31 0 1) (reg .twd 0 0x054) 0 with twdNew := 0 } .twd
           (100 * rfld s (reg .twd 0 0x048) 23 0)))) ∧
  (∀ (s : State), running s .twd = true → rget s (reg .twd 0 0x04C) &&& ~~~ rget s (reg .twd 0 0x054) &&& ~~~ s.twdNew ≠ 0 →
       rfld s (reg .twd 0 0x040) 7 0 = 0xAA →
       exec .twdPeriodEnd s = .next (settle (
         let missing := rget s (reg .twd 0 0x04C) &&& ~~~ rget s (reg .twd 0 0x054) &&& ~~~ s.twdNew
         let u := tset { rset (rcount (expired s .twd) (reg .twd 0 0x064) 31 0 1) (reg .twd 0 0x054) 0 with twdNew := 0 } .twd
           (100 * rfld s (reg .twd 0 0x048) 23 0)
         tset (rsetb (rset (rsetf u (reg .twd 0 0x040) 7 0 0xCC) (reg .twd 0 0x05C) missing) (reg .twd 0 0x010) 0 true) .twdGrace
           (10000 * max 1 (rfld s (reg .twd 0 0x044) 31 16))))) ∧
  (∀ (s : State), running s .twd = true → rget s (reg .twd 0 0x04C) &&& ~~~ rget s (reg .twd 0 0x054) &&& ~~~ s.twdNew ≠ 0 →
       rfld s (reg .twd 0 0x040) 7 0 = 0xCC →
       exec .twdPeriodEnd s = .next (settle (
         let missing := rget s (reg .twd 0 0x04C) &&& ~~~ rget s (reg .twd 0 0x054) &&& ~~~ s.twdNew
         let u := tset { rset (rcount (expired s .twd) (reg .twd 0 0x064) 31 0 1) (reg .twd 0 0x054) 0 with twdNew := 0 } .twd
           (100 * rfld s (reg .twd 0 0x048) 23 0)
         rsetb (rset u (reg .twd 0 0x05C) (rget s (reg .twd 0 0x05C) ||| missing)) (reg .twd 0 0x010) 0 true)))

/-- R356, R358, R362, R364, R378: what the resets that arrive over PCIe reset, count and report, the link's two events, and the VFs that
  a write of the SR-IOV capability leaves.  That a link down has no status bit of its own, and that the link that goes down sets bit 0 in
  every reset that takes it down, is the model's reading (assumption log 83). -/
def Obligations.PcieEndpointResets : Prop :=
  (∀ (s : State), pciUp s = true →
       exec .pciePerst s = .next (settle (
         let lost := rsetf s (reg .pci 0 0x040) 9 0 0
         let lost := if rbit s (reg .pci 0 0x040) 8 then irq lost .pci 0 0 else lost
         irq (rcount (endpointReset lost) (reg .pci 0 0x050) 7 0 1) .pci 0 1))) ∧
  (∀ (s u : State), ((∀ i, i < 65 → (inst s i).st = .none)) → u = endpointReset s →
       u.pci = [] ∧ u.msix = [] ∧ u.vfEnable = false ∧ u.numVfs = 0 ∧ vfCount u = 0 ∧ u.insts = s.insts ∧ u.jobs = s.jobs) ∧
  (∀ (s : State), pciUp s = true →
       exec .pcieHotReset s = .next (settle (
         let lost := rsetf s (reg .pci 0 0x040) 9 0 0
         let lost := if rbit s (reg .pci 0 0x040) 8 then irq lost .pci 0 0 else lost
         irq (rcount (endpointReset lost) (reg .pci 0 0x050) 15 8 1) .pci 0 1))) ∧
  (∀ (s : State), pciUp s = true → rbit s (reg .pci 0 0x040) 8 = true →
       exec .pcieLinkDown s = .next (settle (
         rcount (endpointReset (irq (rsetf s (reg .pci 0 0x040) 9 0 0) .pci 0 0)) (reg .pci 0 0x050) 15 8 1))) ∧
  (∀ (s : State) (speed width : Nat) (l : Bool), pciUp s = true → 1 ≤ speed → speed ≤ 4 → (width = 1 ∨ width = 2) → rbit s (reg
       .pci 0 0x040) 8 = false →
       exec (.pcieLinkUp speed ⟨width, l⟩) s = .next (settle (
         irq (rsetf s (reg .pci 0 0x040) 9 0 (speed + 16 * width + 256)) .pci 0 0))) ∧
  (∀ (s : State) (speed width : Nat), pciUp s = true → 1 ≤ speed → speed ≤ 4 → (width = 1 ∨ width = 2) → rbit s (reg .pci 0
       0x040) 8 = true →
       exec (.pcieLinkUp speed ⟨width, true⟩) s = .next (settle (
         if 2 ≤ (pciFn s 0).aspm ∨ (pciFn s 0).d3 = true then rsetb s (reg .pci 0 0x040) 9 true else s)) ∧
         exec (.pcieLinkUp speed ⟨width, false⟩) s = .next (settle (if rbit s (reg .pci 0 0x040) 9 then rsetb s (reg .pci 0 0x040) 9 false
           else rcount (rsetf s (reg .pci 0 0x040) 9 0 (speed + 16 * width + 256)) (reg .pci 0 0x040) 31 16 1))) ∧
  (∀ (s : State), pciUp s = true →
       exec .pfFlr s = .next (settle (irq (rcount (endpointReset s) (reg .pci 0 0x050) 23 16 1) .pci 0 2))) ∧
  (∀ (s : State) (i : Nat), pciUp s = true → 1 ≤ i → i ≤ vfCount s → (inst s i).st = .none →
       exec (.vfFlr i) s = .next (settle (irq (rcount
         { setPciFn s i {} with msix := s.msix.clearRange (64 * i) (64 * i + 64) } (reg .pci 0 0x050) 31 24 1) .pci 0 4))) ∧
  (∀ (s : State) (i : Nat) (st : InstSt), pciUp s = true → 1 ≤ i → i ≤ vfCount s → (inst s i).st = st → st ≠ .none → st ≠
       .saved → st ≠ .resetting →
       exec (.vfFlr i) s = .next (settle (irq (rcount (
         resetBegins { setPciFn s i {} with msix := s.msix.clearRange (64 * i) (64 * i + 64) } i (.reset false)
           (if st = .awaitRestore then .awaitRestore else .active) 0 []) (reg .pci 0 0x050) 31 24 1) .pci 0 4))) ∧
  (∀ (s : State) (i : Nat), pciUp s = true → 1 ≤ i → i ≤ vfCount s → (inst s i).st = .saved →
       exec (.vfFlr i) s = .next (settle (irq (rcount (
         resetBegins { setPciFn s i {} with msix := s.msix.clearRange (64 * i) (64 * i + 64) } i .destroy .none 0 []) (reg .pci 0 0x050) 31 24 1) .pci 0 4))) ∧
  (∀ (s : State) (num : Nat) (ari : Bool), pciUp s = true → 0 < s.part.vfs → num ≤ s.part.vfs → (num ≤ 7 ∨ ari = true) →
       vfCount s ≤ num → s.insts = [] → s.pci = [] → s.msix = [] →
       completes (.vfEnableWrite true num ari) s fun u => u.vfEnable = true ∧ u.numVfs = num ∧ u.ariCap = ari ∧ vfCount u = num ∧
         u.insts = [] ∧ (rbit u (reg .pci 0 0x010) 3 = true ∨ (s.vfEnable = true ∧ s.numVfs = num))) ∧
  (∀ (s : State) (en ari : Bool) (num : Nat), pciUp s = true → 0 < s.part.vfs → s.part.vfs < num →
       completes (.vfEnableWrite en num ari) s fun u => u.numVfs = s.part.vfs ∧ u.vfEnable = en ∧ u.ariCap = ari ∧
         (rget s (reg .pci 0 0x020) = 0 → rget u (reg .pci 0 0x020) = rget (report s .pci 0 0x1101 0 3) (reg .pci 0 0x020) ∨
           en = true ∧ ari = false))

/-- R357, R359 to R361, R364, R386, R387, R394, R465: the PCIe traffic of a function beside its resets. -/
def Obligations.PcieFunctionCommands : Prop :=
  (∀ (s : State) (fn : Nat) (f : PciFn), pciUp s = true → 1 ≤ fn → fn ≤ vfCount s → ((∀ v, v < 4 → (msixEnt s fn v).pend =
       false)) →
       exec (.configWrite fn f) s = .next (settle (setPciFn s fn { bme := f.bme, msixEn := f.msixEn, fmask := f.fmask, ats := f.ats }))) ∧
  (∀ (s : State) (f : PciFn), pciUp s = true → ((∀ fn v, v < 64 → (msixEnt s fn v).pend = false)) →
       exec (.configWrite 0 f) s = .next (settle (setPciFn s 0 { f with
         bar0 := f.bar0 / 0x1000000 * 0x1000000, bar2 := f.bar2 / 0x800000 * 0x800000, bar4 := f.bar4 / 0x2000 * 0x2000,
         vfBar0 := f.vfBar0 / 0x2000 * 0x2000, vfBar2 := f.vfBar2 / 0x1000 * 0x1000 }))) ∧
  (∀ (s t : State) (fn v addr data : Nat) (m : Bool), pciUp s = true → (fn = 0 ∨ fn ≤ vfCount s) → v < (if fn = 0 then 64 else
       4) → t = wakeFor s 2 → ((∀ x, x < 64 → (msixEnt t fn x).pend = false)) →
       exec (.msixTableWrite fn v addr data m) s =
         .next (settle (setMsix t fn v { addr := addr, data := data, masked := m, pend := false }))) ∧
  (∀ (s : State) (fn v addr data : Nat) (m : Bool), pciUp s = true → (fn = 0 ∨ fn ≤ vfCount s) → (if fn = 0 then 64 else 4) ≤ v
       →
       exec (.msixTableWrite fn v addr data m) s = .next (settle (
         busLog (wakeFor s 2) ⟨BitVec.ofNat 8 (0x10 + fn), false⟩ true 0 4 (BitVec.ofNat 32 data) .reserved))) ∧
  (∀ (s : State) (fn v addr data : Nat), pciUp s = true → pwrState s = 0 → (fn = 0 ∨ fn ≤ vfCount s) → v < (if fn = 0 then 64
       else 4) → ((∀ x, x < 64 → x ≠ v → (msixEnt s fn x).pend = false)) → (msixEnt s fn v).pend = true → (pciFn s fn).msixEn =
       true → (pciFn s fn).fmask = false → (pciFn s fn).bme = true → (pciFn s 0).d3 = false →
       exec (.msixTableWrite fn v addr data false) s = .next (settle (
         emit (setMsix s fn v { addr := addr, data := data, masked := false, pend := false }) (.msix fn v addr data)))) ∧
  (∀ (s : State) (fn v : Nat), running s (.resend (64 * fn + v)) = true → s.vecs.contains (64 * fn + v) = true → rfld s (reg
       .evh 0 0x040) 15 0 ≠ 0 →
       exec (.msixResend fn v) s = .next (settle (
         tset (sendMsix (expired s (.resend (64 * fn + v))) fn v) (.resend (64 * fn + v)) (100 * rfld s (reg .evh 0 0x040) 15 0 + 1)))) ∧
  (∀ (s : State) (fn addr len : Nat) (ws : List Walk), pciUp s = true → (fn = 0 ∨ fn ≤ vfCount s) → (jobsWith s (fun j =>
       decide (j.sub = .inst fn) && j.fwd.isSome && usesRange s fn j addr len) = []) →
       exec (.atsInvalidate fn addr len ws) s = .next (settle s)) ∧
  (∀ (s : State) (fn addr len t : Nat) (ws : List Walk) (j : Job), pciUp s = true → (fn = 0 ∨ fn ≤ vfCount s) → atsOn s fn =
       true → rbit s (reg .itu 0 0x040) 0 = true → (jobsWith s (fun j => decide (j.sub = .inst fn) && j.fwd.isSome && usesRange s
       fn j addr len) = [(t, j)]) → job? s t = some j →
       exec (.atsInvalidate fn addr len ws) s = .next (settle (finish (setJob s t { j with fwd := none }) t { status := 0x0D06 } (ws.take 1)))) ∧
  (∀ (s : State) (idx : Nat) (success : Bool) (ws : List Walk), ((s.prgs.find? fun p => decide (p.idx = idx)) = none) →
       s.prgStale.contains idx = false →  exec (.prgResponse idx success ws) s = .next (settle s)) ∧
  (∀ (s : State) (idx : Nat) (success : Bool) (ws : List Walk), ((s.prgs.find? fun p => decide (p.idx = idx)) = none) →
       s.prgStale.contains idx = true →
       exec (.prgResponse idx success ws) s = .next (settle (indexFree (tstop { s with prgStale := s.prgStale.erase idx } (.prg idx)) ws))) ∧
  (∀ (s u : State) (p : Prg) (idx t : Nat) (ws : List Walk), ((s.prgs.find? fun p => decide (p.idx = idx)) = some p) → p.tag =
       some t → (u = tstop { s with prgs := s.prgs.filter fun x => !(x.idx == idx) } (.prg idx)) →
       exec (.prgResponse idx true ws) s = .next (settle (indexFree (retryJob (u, ws) t).1 [])) ∧
         exec (.prgResponse idx false ws) s = .next (settle (indexFree (finish (irq (rcount u (reg .itu 0 0x050) 31 16 1) .itu 0 0) t { status := 0x0D03 } ws) []))) ∧
  (∀ (s u : State) (p : Prg) (idx : Nat) (ws : List Walk), ((s.prgs.find? fun p => decide (p.idx = idx)) = some p) → p.tag =
       none → (u = tstop { s with prgs := s.prgs.filter fun x => !(x.idx == idx) } (.prg idx)) →
       exec (.prgResponse idx true ws) s = .next (settle (indexFree (rsetb u (reg .inst p.inst 0x064) 22 false) [])) ∧
         exec (.prgResponse idx false ws) s = .next (settle (indexFree (irq (rcount u (reg .itu 0 0x050) 31 16 1) .itu 0 0) []))) ∧
  (∀ (s : State) (t i : Nat) (j : Job) (ws : List Walk) (rest : List (Nat × Option Nat)), s.prgWait = (i, some t) :: rest →
       job? s t = some j → j.st = .faultFetch →  indexFree s ws = setJob { s with prgWait := rest } t { j with st := .preempted }) ∧
  (∀ (s : State) (idx : Nat) (ws : List Walk), running s (.prg idx) = true →
       exec (.prgIndexTimeout idx ws) s = .next (settle (indexFree { expired s (.prg idx) with prgs := s.prgs.filter (fun p => !(p.idx == idx)), prgStale := s.prgStale.erase idx } ws))) ∧
  (∀ (s : State) (t : Nat) (ws : List Walk) (j : Job) (i : Nat), pciUp s = true → running s (.pcieRead t) = true → job? s t =
       some j → j.sub = .inst i → j.st = .running → j.unit.isSome = true → j.done = none →
       exec (.pcieCompletionTimeout t ws) s = .next (settle (finish
         (irq (rcount (expired s (.pcieRead t)) (reg .pci 0 0x054) 31 16 1) .pci 0 5) t { status := 0x0D04 } ws))) ∧
  (∀ (s : State), pciUp s = true →
       exec .unexpectedCompletion s = .next (settle (rcount (irq (rcount s (reg .pci 0 0x054) 31 16 1) .pci 0 5) (reg .pci 0 0x054) 15 0 1)))

/-- R366, R367: the packets of the I3C target.  The PEC's form is the model's (PRESUMED, assumption log 24). -/
def Obligations.I3cPackets : Prop :=
  (∀ (s : State) (a : Nat) (p : Bytes), i3cUp s = true → dynAddr s = some a → rbit s (reg .i3c 0 0x040) 0 = true →
       s.i3c.rx.length < 4 → p ≠ [] → p.length < i3cMwl s →
       exec (.mctpPacketWrite (p ++ [pec (addrByte a false :: p)])) s = .next (settle (
         let u := { s with i3c := { s.i3c with rx := s.i3c.rx ++ [p] } }
         let h := u.i3c.rx.headD []
         irq (rsetBytes (rsetf (rsetf u (reg .i3c 0 0x048) 2 0 u.i3c.rx.length) (reg .i3c 0 0x048) 12 4 h.length)
           (reg .i3c 0 0x100) 64 h) .i3c 0 0))) ∧
  (∀ (s : State) (a : Nat) (p : Bytes) (c : Byte), i3cUp s = true → dynAddr s = some a → rbit s (reg .i3c 0 0x040) 0 = true →
       s.i3c.rx.length < 4 → p ≠ [] → p.length < i3cMwl s → c ≠ pec (addrByte a false :: p) →
       exec (.mctpPacketWrite (p ++ [c])) s = .next (settle (
         report (rcount s (reg .i3c 0 0x05C) 15 0 1) .i3c 0 0x1201 0 3))) ∧
  (∀ (s : State) (bs : Bytes), i3cUp s = true → (dynAddr s).isSome = true → (rbit s (reg .i3c 0 0x040) 0 = false ∨ 4 ≤
       s.i3c.rx.length) →  exec (.mctpPacketWrite bs) s = .next (settle (rcount s (reg .i3c 0 0x048) 31 16 1))) ∧
  (∀ (s : State) (bs : Bytes), i3cUp s = true → (dynAddr s).isSome = true → rbit s (reg .i3c 0 0x040) 0 = true →
       s.i3c.rx.length < 4 → (bs.length < 2 ∨ i3cMwl s < bs.length) →
       exec (.mctpPacketWrite bs) s = .next (settle (report s .i3c 0 0x1201 0 3))) ∧
  (∀ (s : State) (a : Acc), takes s a .i3c 0 0x04C 1 = true →
       exec (.i3cRxPop a) s = .next (settle (
         let u := { s with i3c := { s.i3c with rx := s.i3c.rx.drop 1 } }
         let h := u.i3c.rx.headD []
         rsetBytes (rsetf (rsetf u (reg .i3c 0 0x048) 2 0 u.i3c.rx.length) (reg .i3c 0 0x048) 12 4 h.length) (reg .i3c 0 0x100) 64 h))) ∧
  (∀ (s : State) (a : Acc) (d : Word) (n : Nat), takes s a .i3c 0 0x050 (d ||| 0x10000) = true → bit d 17 = false → s.i3c.tx =
       none → n = fld d 8 0 → 0 < n → n + 1 ≤ i3cMrl s →
       exec (.i3cTxSend a d) s = .next (settle (
         let u := rsetf { s with i3c := { s.i3c with tx := some n } } (reg .i3c 0 0x054) 1 0 1
         if rfld s (reg .i3c 0 0x058) 15 0 = 0 then u else tset u .i3cTx (100000 * rfld s (reg .i3c 0 0x058) 15 0)))) ∧
  (∀ (s : State) (a : Acc) (d : Word), takes s a .i3c 0 0x050 (d ||| 0x10000) = true → bit d 17 = false → (s.i3c.tx.isSome =
       true ∨ fld d 8 0 = 0 ∨ i3cMrl s ≤ fld d 8 0) →  exec (.i3cTxSend a d) s = .next (settle (report s .i3c 0 0x1203 0x050 1))) ∧
  (∀ (s : State) (n a : Nat), i3cUp s = true → s.i3c.tx = some n → dynAddr s = some a →
       exec .mctpPacketRead s = .next (settle (
         let p := (rbytes s (reg .i3c 0 0x200) 64).take n
         irq (rsetf (tstop { emit s (.i3c (p ++ [pec (addrByte a true :: p)])) with i3c := { s.i3c with tx := none } } .i3cTx)
           (reg .i3c 0 0x054) 1 0 0) .i3c 0 1))) ∧
  (∀ (s : State) (acked : Bool), i3cUp s = true → s.i3c.tx.isSome = true → (dynAddr s).isSome = true → rbit s (reg .i3c 0
       0x044) 8 = true → rbit s (reg .i3c 0 0x054) 1 = false →
       exec (.ibi acked) s = .next (settle (
         if acked then rsetb (emit s (.ibi 0xAE)) (reg .i3c 0 0x054) 1 true else emit s (.ibi 0xAE)))) ∧
  (∀ (s : State) (a : Acc), takes s a .i3c 0 0x050 0x20000 = true → s.i3c.tx.isSome = true →
       exec (.i3cTxCancel a) s = .next (settle (irq (report (rset (tstop { s with i3c := { s.i3c with tx := none } } .i3cTx)
         (reg .i3c 0 0x054) 0x12020000) .i3c 0 0x1202 0 0) .i3c 0 2))) ∧
  (∀ (s : State), running s .i3cTx = true →
       exec .i3cTxTimeout s = .next (settle (irq (report (rset (tstop { expired s .i3cTx with i3c := { s.i3c with tx := none } } .i3cTx)
         (reg .i3c 0 0x054) 0x12020000) .i3c 0 0x1202 0 0) .i3c 0 2)))

/-- R271, R365, R367: the CCCs.  A length out of 69 to 256 is not stored, GETMRL's third byte and GETSTATUS beyond its interrupt bit are
  the model's (assumption logs 104 and 3). -/
def Obligations.I3cCommonCommands : Prop :=
  (∀ (s : State) (e : Byte) (all : Bool), i3cUp s = true → (all = true ∨ (dynAddr s).isSome = true) →
       exec (.enec ⟨all, e⟩) s = .next (settle (if e.getLsbD 0 then rsetb s (reg .i3c 0 0x044) 8 true else s)) ∧
         exec (.disec ⟨all, e⟩) s = .next (settle (if e.getLsbD 0 then rsetb s (reg .i3c 0 0x044) 8 false else s))) ∧
  (∀ (s : State), i3cUp s = true → (dynAddr s).isSome = true →
       exec .rstdaa s = .next (settle (irq (rsetf (rsetb s (reg .i3c 0 0x044) 7 false) (reg .i3c 0 0x044) 6 0 0) .i3c 0 3))) ∧
  (∀ (s : State) (a : Nat), i3cUp s = true → dynAddr s = none → a < 128 →
       exec (.entdaa a) s = .next (settle (irq (rsetf (rsetb
         (emit s (.i3c (beBytes 6 (0x1E7B * 2 ^ 33 + s.part.number % 256 * 2 ^ 24 + myNode s) ++ [0x06, 0x00])))
         (reg .i3c 0 0x044) 7 true) (reg .i3c 0 0x044) 6 0 a) .i3c 0 3))) ∧
  (∀ (s : State) (a : Nat), i3cUp s = true → dynAddr s = none → a < 128 →
       exec (.setdasa (0x50 + rfld s (reg .rom 0 0x050) 12 10) a) s =
         .next (settle (irq (rsetf (rsetb s (reg .i3c 0 0x044) 7 true) (reg .i3c 0 0x044) 6 0 a) .i3c 0 3))) ∧
  (∀ (s : State) (a : Nat), i3cUp s = true → (dynAddr s).isSome = true → a < 128 →
       exec (.setnewda a) s = .next (settle (irq (rsetf (rsetb s (reg .i3c 0 0x044) 7 true) (reg .i3c 0 0x044) 6 0 a) .i3c 0 3))) ∧
  (∀ (s : State) (n : Nat) (all : Bool), i3cUp s = true → (all = true ∨ (dynAddr s).isSome = true) → 69 ≤ n → n ≤ 256 →
       exec (.setmwl ⟨all, n⟩) s = .next (settle (rsetf s (reg .i3c 0 0x044) 17 9 n)) ∧
         exec (.setmrl ⟨all, n⟩) s = .next (settle (rsetf s (reg .i3c 0 0x044) 26 18 n))) ∧
  (∀ (s : State), i3cUp s = true → (dynAddr s).isSome = true →
       exec .getmwl s = .next (settle (emit s (.i3c (beBytes 2 (rfld s (reg .i3c 0 0x044) 17 9))))) ∧
         exec .getmrl s = .next (settle (emit s (.i3c (beBytes 2 (rfld s (reg .i3c 0 0x044) 26 18) ++ [1])))) ∧
         exec .getpid s = .next (settle (emit s (.i3c (beBytes 6 (0x1E7B * 2 ^ 33 + s.part.number % 256 * 2 ^ 24 + myNode s))))) ∧
         exec .getbcr s = .next (settle (emit s (.i3c [0x06]))) ∧ exec .getdcr s = .next (settle (emit s (.i3c [0x00]))) ∧
         exec .getstatus s = .next (settle (emit s (.i3c (beBytes 2 (Config.i3cStatus s.i3c.tx.isSome).toNat))))) ∧
  (∀ (s : State) (all : Bool), i3cUp s = true → (all = true ∨ (dynAddr s).isSome = true) →
       completes (.rstact ⟨all, 1⟩) s fun u => u.i3c.rx = [] ∧ u.i3c.tx = none ∧ tget u .i3cTx = none ∧
         rfld u (reg .i3c 0 0x048) 2 0 = 0 ∧ rfld u (reg .i3c 0 0x054) 1 0 = 0) ∧
  (∀ (s : State) (e : Byte) (all : Bool), e ≠ 1 →  exec (.rstact ⟨all, e⟩) s = .next (settle s)) ∧
  (∀ (s : State) (n : Nat) (all : Bool), (n < 69 ∨ 256 < n) →
       exec (.setmwl ⟨all, n⟩) s = .next (settle s) ∧ exec (.setmrl ⟨all, n⟩) s = .next (settle s)) ∧
  (∀ (s : State) (a sa : Nat), ((dynAddr s).isSome = true ∨ sa ≠ 0x50 + rfld s (reg .rom 0 0x050) 12 10) →
       exec (.setdasa sa a) s = .next (settle s) ∧ ((dynAddr s).isSome = true → exec (.entdaa a) s = .next (settle s))) ∧
  (∀ (s : State) (e : Byte) (a : Nat), (dynAddr s = none ∨ i3cUp s = false) →
       exec (.enec ⟨false, e⟩) s = .next (settle s) ∧ exec (.disec ⟨false, e⟩) s = .next (settle s) ∧ exec .rstdaa s = .next (settle s) ∧
         exec (.setnewda a) s = .next (settle s) ∧ exec (.setmwl ⟨false, a⟩) s = .next (settle s) ∧ exec (.setmrl ⟨false, a⟩) s = .next (settle s) ∧
         exec .getmwl s = .next (settle s) ∧ exec .getmrl s = .next (settle s) ∧ exec .getpid s = .next (settle s) ∧
         exec .getbcr s = .next (settle s) ∧ exec .getdcr s = .next (settle s) ∧ exec .getstatus s = .next (settle s) ∧
         exec (.rstact ⟨false, e⟩) s = .next (settle s))

/-- R55, R369 to R371, R374: what the service port does with a frame before and beside the session. -/
def Obligations.ServicePortRequests : Prop :=
  (∀ (s : State) (t q : Nat) (p : Bytes), svcUp s = true →
       exec (.svcInvalidFrame false t q p) s = .next (settle (rcount (wakeSource s 4) (reg .svc 0 0x04C) 7 0 1)) ∧
         exec .svcFrameAbort s = .next (settle (rcount (wakeSource s 4) (reg .svc 0 0x04C) 23 16 1))) ∧
  (∀ (s : State) (t q : Nat) (p : Bytes), newRequest s t q = true → svcKnown t = false → crcOk p = true →
       exec (.svcInvalidFrame true t q p) s = .next (settle (answer (arrived s true) { type := t, seq := q, payload := p } 0x1303 []))) ∧
  (∀ (s : State) (q : Nat) (p d : Bytes) (x : List (Nat × Nat × Bytes)), svcUp s = true → s.svc.answered = (0x01, q, d) :: x →
       exec (.hello q p) s = .next (settle (emit (arrived s (crcOk p)) (.svc 0x81 q d)))) ∧
  (∀ (s : State) (q : Nat) (p : Bytes), newRequest s 0x01 q = true → crcOk p = false →
       exec (.hello q p) s = .next (settle (answer (rcount (arrived s false) (reg .svc 0 0x04C) 15 8 1)
         { type := 0x01, seq := q, payload := p } 0x1301 []))) ∧
  (∀ (s : State) (q : Nat) (p : Bytes), newRequest s 0x01 q = true → crcOk p = true →
       exec (.hello q p) s = .next (settle (if p.length = 4
         then answer (arrived s true) { type := 0x01, seq := q, payload := p } 0 (helloData (arrived s true))
         else answer (arrived s true) { type := 0x01, seq := q, payload := p } 0x1303 []))) ∧
  (∀ (s : State) (q d : Nat) (p : Bytes), newRequest s 0x02 q = true → p = withCrc (leBytes 2 d ++ [0, 0]) → crcOk p = true → d
       < 65536 →
       exec (.baud q p) s = .next (settle (let u := arrived s true
         if d < 133 then answer u { type := 0x02, seq := q, payload := p } 0x1303 []
         else tset (answer { u with svc := { u.svc with newDiv := some d } } { type := 0x02, seq := q, payload := p } 0 []) .svcBaud 100000))) ∧
  (∀ (s : State) (d : Nat), running s .svcBaud = true → s.svc.newDiv = some d →
       exec .baudSwitch s = .next (settle (let u := expired s .svcBaud
         irq (tset (rsetf { u with svc := { u.svc with newDiv := none, oldDiv := some (rfld s (reg .svc 0 0x048) 15 0) } }
           (reg .svc 0 0x048) 15 0 d) .svcRevert 200000000) .svc 0 3))) ∧
  (∀ (s : State) (d : Nat), running s .svcRevert = true → s.svc.oldDiv = some d →
       exec .baudRevert s = .next (settle (let u := expired s .svcRevert
         irq (rsetf { u with svc := { u.svc with oldDiv := none } } (reg .svc 0 0x048) 15 0 d) .svc 0 3))) ∧
  (∀ (s : State) (q : Nat) (p : Bytes), svcUp s = true → ((s.svc.answered.any fun a => a.1 == 0x01 && a.2.1 == q) = false) → 2
       ≤ s.svc.queue.length →  exec (.hello q p) s = .next (settle (rcount (arrived s (crcOk p)) (reg .svc 0 0x04C) 31 24 1))) ∧
  (∀ (s : State) (q : Nat) (p : Bytes) (a : SvcReq), svcUp s = true → ((s.svc.answered.any fun a => a.1 == 0x01 && a.2.1 == q)
       = false) → s.svc.queue = [a] →
       exec (.hello q p) s = .next (settle (let u := arrived s (crcOk p)
         { u with svc := { u.svc with queue := [a, { type := 0x01, seq := q, payload := p }] } })))

/-- R55, R289, R295, R370 to R373: the requests of the service port that change more than the port. -/
def Obligations.ServiceSessions : Prop :=
  (∀ (s : State) (q : Nat) (p : Bytes), newRequest s 0x10 q = true → crcOk p = true → p.length = 4 →
       exec (.sessionOpen q p) s = .next (settle (let u := arrived s true
         if s.locked then answer u { type := 0x10, seq := q, payload := p } 0x013C []
         else if s.sage = .run ∧ rbit s (reg .svc 0 0x044) 0 = true ∧ s.svc.session = false then
           answer (irq (tset { u with svc := { u.svc with session := true, erased := [] } } .svcSession 1000000000) .svc 0 0)
             { type := 0x10, seq := q, payload := p } 0 []
         else answer u { type := 0x10, seq := q, payload := p } 0x1303 []))) ∧
  (∀ (s : State) (q i : Nat) (b p : Bytes), newRequest s 0x11 q = true → s.svc.session = true → i < 2048 → b.length = 4096 →
       s.bf = none → p = leBytes 2 i ++ leBytes 2 (0xFFFF - i) ++ b ++ leBytes 4 (crc32c b).toNat →
       exec (.data q p (some b)) s = .next (settle (answer (rcount (stageBlock (arrived s true) i b) (reg .rom 0 0x134) 11 0 1)
         { type := 0x11, seq := q, payload := p, readBack := some b } 0 (leBytes 2 i ++ [0, 0])))) ∧
  (∀ (s : State) (q i : Nat) (b p : Bytes) (c : Word) (r : Option Bytes), newRequest s 0x11 q = true → s.svc.session = true → i
       < 2048 → b.length = 4096 → c ≠ crc32c b → p = leBytes 2 i ++ leBytes 2 (0xFFFF - i) ++ b ++ leBytes 4 c.toNat →
       exec (.data q p r) s = .next (settle (answer (irq (rcount (arrived s true) (reg .rom 0 0x134) 31 16 1) .rom 0 4)
         { type := 0x11, seq := q, payload := p, readBack := r } 0x1302 []))) ∧
  (∀ (s : State) (q i : Nat) (b p : Bytes) (r : Option Bytes), newRequest s 0x11 q = true → s.svc.session = true → i < 2048 →
       b.length = 4096 → s.bf = none → r ≠ some b → p = leBytes 2 i ++ leBytes 2 (0xFFFF - i) ++ b ++ leBytes 4 (crc32c b).toNat
       →
       exec (.data q p r) s = .next (settle (answer (irq (stageBlock (arrived s true) i b) .rom 0 4)
         { type := 0x11, seq := q, payload := p, readBack := r } 0x013A []))) ∧
  (∀ (s : State) (q i : Nat) (b p : Bytes) (r : Option Bytes), newRequest s 0x11 q = true → s.svc.session = true → i < 2048 →
       b.length = 4096 → s.bf.isSome = true → p = leBytes 2 i ++ leBytes 2 (0xFFFF - i) ++ b ++ leBytes 4 (crc32c b).toNat →
       exec (.data q p r) s = .next (settle (let u := arrived s true
         { u with svc := { u.svc with queue := [{ type := 0x11, seq := q, payload := p, readBack := r }] } }))) ∧
  (∀ (s : State) (q : Nat) (p : Bytes) (r : Option Bytes), newRequest s 0x11 q = true → (s.svc.session = false ∨ p.length ≠
       4104) →
       exec (.data q p r) s = .next (settle (answer (arrived s true) { type := 0x11, seq := q, payload := p, readBack := r } 0x1303 []))) ∧
  (∀ (s : State) (q : Nat) (p : Bytes) (r : Option Bytes), newRequest s 0x11 q = true → s.svc.session = true → p.length = 4104
       → (fieldLe p 2 2 ≠ 0xFFFF - fieldLe p 0 2 ∨ 2047 < fieldLe p 0 2) →
       exec (.data q p r) s = .next (settle (answer (arrived s true) { type := 0x11, seq := q, payload := p, readBack := r } 0x1304 []))) ∧
  (∀ (s : State) (q : Nat) (p : Bytes), newRequest s 0x12 q = true → s.svc.session = true → crcOk p = true → p.length = 4 →
       exec (.sessionClose q p) s = .next (settle (
         let u := answer (arrived s true) { type := 0x12, seq := q, payload := p } 0 (leBytes 4 (rfld s (reg .rom 0 0x134) 11 0))
         irq (rsetb (tstop { u with svc := { u.svc with session := false, erased := [] } } .svcSession) (reg .svc 0 0x044) 0 false) .svc 0 1))) ∧
  (∀ (s : State), running s .svcSession = true → s.svc.session = true →
       exec .sessionTimeout s = .next (settle (let u := expired s .svcSession
         report (irq (rsetb (tstop { u with svc := { u.svc with session := false, erased := [] } } .svcSession)
           (reg .svc 0 0x044) 0 false) .svc 0 1) .svc 0 0x1306 0 3))) ∧
  (∀ (s : State) (q o : Nat) (b p : Bytes), newRequest s 0x20 q = true → o < 2 ^ 32 → p = withCrc (leBytes 4 o ++ b) → crcOk p
       = true →
       exec (.svcPushWrite q p) s = .next (settle (let u := arrived s true
         let r : SvcReq := ⟨0x20, q, p, none⟩
         if mayPush u 3 = false then answer u r 0x1303 []
         else if o % 4 = 0 ∧ b.length % 4 = 0 ∧ 4 ≤ b.length ∧ b.length ≤ 4096 ∧ o + b.length ≤ 0x400000 then
           answer (rsetf { u with bootSram := bootWriteBytes s.bootSram o (b.map some) } (reg .rom 0 0x118) 4 3 3) r 0 []
         else answer u r 0x1305 []))) ∧
  (∀ (s : State) (q n : Nat) (p : Bytes) (env : RomEnv) (g : State × Nat), newRequest s 0x21 q = true → mayPush s 3 = true → n
       < 2 ^ 32 → p = withCrc (leBytes 4 n ++ [0xC3, 0xA5, 0, 0]) → crcOk p = true → g = pushGo
       { arrived s true with pushLen := BitVec.ofNat 32 n } 3 env →
       exec (.svcPushGo q p env) s = .next (settle (answer g.1 { type := 0x21, seq := q, payload := p } g.2 []))) ∧
  (∀ (s : State) (q : Nat) (p : Bytes) (env : RomEnv), newRequest s 0x21 q = true → (mayPush s 3 = false ∨ p.length ≠ 12 ∨
       fieldLe p 4 4 ≠ 0xA5C3) → crcOk p = true →
       exec (.svcPushGo q p env) s = .next (settle (answer (arrived s true) { type := 0x21, seq := q, payload := p } 0x1303 []))) ∧
  (∀ (s : State) (k q : Nat) (b p : Bytes), newRequest s (0x40 + k) q = true → k < 64 → p = withCrc b → crcOk p = true →
       exec (.svcFirmwareRequest k q p) s = .next (settle (let u := arrived s true
         if s.sage = .run ∧ rbit s (reg .svc 0 0x044) 1 = true ∧ b.length ≤ 256 then
           (let v := rsetBytes (rset u (reg .svc 0 0x050) (mk 8 0 b.length ||| mk 23 16 (0x40 + k) ||| mk 31 24 q)) (reg .svc 0 0x100) 64 b
            irq { v with svc := { v.svc with queue := [{ type := 0x40 + k, seq := q, payload := p }] } } .svc 0 2)
         else answer u { type := 0x40 + k, seq := q, payload := p } 0x1303 []))) ∧
  (∀ (s : State) (a : Acc) (d : Word) (r : SvcReq) (rest : List SvcReq), takes s a .svc 0 0x054 d = true → s.svc.queue = r ::
       rest → 0x40 ≤ r.type → fld d 8 0 ≤ 256 →
       exec (.svcFwAnswer a d) s = .next (settle (svcDrain (
         answer { s with svc := { s.svc with queue := rest } } r (fld d 31 16) ((rbytes s (reg .svc 0 0x200) 64).take (fld d 8 0))) 2))) ∧
  (∀ (s : State) (a : Acc) (d : Word), takes s a .svc 0 0x054 d = true → ((s.svc.queue.head?.all fun r => r.type < 0x40) =
       true) →  exec (.svcFwAnswer a d) s = .next (settle (report s .svc 0 0x1307 0x054 1))) ∧
  (∀ (s : State) (a : Acc) (d : Word) (r : SvcReq) (rest : List SvcReq), takes s a .svc 0 0x054 d = true → s.svc.queue = r ::
       rest → 0x40 ≤ r.type → 256 < fld d 8 0 →  exec (.svcFwAnswer a d) s = .next (settle (report s .svc 0 0x1303 0x054 1)))

/-- R378, R380, R381, R390, R391, R393, R395: the instance commands and the events of an instance reset.  That DESTROY of an instance with
  no job left completes within its command is the model's (assumption log 88). -/
def Obligations.InstanceLifeCycle : Prop :=
  (∀ (s : State) (a : Acc) (i : Nat) (d : Word), takes s a .inst i 0x084 (withField d 3 0 1) = true → fld d 31 16 = 0xA5C3 →
       (inst s i).st = .none → (i = 0 ∨ i ≤ vfCount s) → (kslot s 4).st = .live → createBad s i = false →
       exec (.instCreate a i d) s = .next (settle (
         let u := setInst s i { inst s i with st := if bit d 4 then .awaitRestore else .active }
         let u := makeMig (makeRoot (ownCtrs u i (mk 1 0 2 ||| mk 14 8 i)) i) i
         irq (rset u (reg .inst i 0x088) 0x00010000) .inst i 2))) ∧
  (∀ (s : State) (i : Nat),
       kslot (makeRoot s i) (instKeys s i).1 =
         { st := .live, ktype := 6, usage := 4, ownerKind := 1, owner := i, gen := (kslot s (instKeys s i).1).gen, parent := some 4,
           pgen := (kslot s 4).gen, depth := 1, key := (List.range 64).map fun k => Config.freeByte (s.fresh + k) } ∧
         (inst (makeMig s i) i).mig = (List.range 32).map (fun k => Config.freeByte (s.fresh + k))) ∧
  (∀ (s : State) (a : Acc) (i : Nat) (d : Word), takes s a .inst i 0x084 (withField d 3 0 1) = true → fld d 31 16 = 0xA5C3 →
       (inst s i).st = .none → (i = 0 ∨ i ≤ vfCount s) → (kslot s 4).st = .live → createBad s i = true →
       exec (.instCreate a i d) s = .next (settle (
         report (irq (rset s (reg .inst i 0x088) 0x00010C1C) .inst i 2) .inst i 0x0C1C 0x084 1))) ∧
  (∀ (s : State) (a : Acc) (i : Nat) (d : Word), takes s a .inst i 0x084 (withField d 3 0 1) = true → fld d 31 16 = 0xA5C3 →
       ((inst s i).st ≠ .none ∨ i ≠ 0 ∧ vfCount s < i → exec (.instCreate a i d) s = .next (settle (instCmdEnds s i 1 0x0C1B))) ∧
         ((inst s i).st = .none → i = 0 ∨ i ≤ vfCount s → (kslot s 4).st ≠ .live →
           exec (.instCreate a i d) s = .next (settle (instCmdEnds s i 1 0x0A09)))) ∧
  (∀ (s : State) (a : Acc) (i : Nat) (d : Word), takes s a .inst i 0x084 (withField d 3 0 2) = true → fld d 31 16 = 0xA5C3 →
       (inst s i).st = .none →  exec (.instDestroy a i d) s = .next (settle (instCmdEnds s i 2 0x0C1B))) ∧
  (∀ (s : State) (a : Acc) (i : Nat) (d : Word), takes s a .inst i 0x084 (withField d 3 0 2) = true → fld d 31 16 = 0xA5C3 →
       (inst s i).st ≠ .none → (inst s i).st ≠ .resetting →
       exec (.instDestroy a i d) s = .next (settle (resetBegins s i .destroy .none 2 []))) ∧
  (∀ (s : State) (a : Acc) (i : Nat) (d : Word), takes s a .inst i 0x084 (withField d 3 0 2) = true → fld d 31 16 = 0xA5C3 →
       (inst s i).st ≠ .none → (inst s i).st ≠ .resetting → genWait s i = 0 → (s.jobs.all (fun e => decide (e.2.sub ≠ .inst i)) =
       true) → s.cstOps = [] →
       completes (.instDestroy a i d) s fun u => (inst u i).st = .none ∧ (inst u i).gen = ((inst s i).gen + 1) % 256 ∧
         (inst u i).mig = [] ∧ u.instRst.contains i = false ∧ rget u (reg .inst i 0x088) = 0x00020000 ∧
         (∀ k, k < 512 → (kslot u k).ownerKind = 1 → (kslot u k).owner = i → (kslot u k).st = .empty) ∧
         (∀ c, c ∈ instCtrs s i → rget u (reg .cst 0 (0x400 + 4 * c)) = 0)) ∧
  (∀ (s : State) (a : Acc) (i : Nat) (d : Word) (ws : List Walk) (st : InstSt), takes s a .inst i 0x084 (withField d 3 0 3) =
       true → fld d 31 16 = 0xA5C3 → (inst s i).st = st → (st = .active ∨ st = .frozen ∨ st = .awaitRestore) →
       exec (.instReset a i d { walks := ws }) s = .next (settle (
         let u := { s with instRst := if s.instRst.contains i then s.instRst else i :: s.instRst }
         let back := if st = .awaitRestore then InstSt.awaitRestore else .active
         let kind := InstReset.reset (rbit s (reg .inst i 0x08C) 20)
         let u := setInst u i { inst s i with st := .resetting, rst := some (kind, back), bumped := false, cmd := 3 }
         if genWait u i = 0 then resetGoes u i ws else tset u (.genDelay i) (genWait u i)))) ∧
  (∀ (s : State) (a : Acc) (i : Nat) (d : Word), takes s a .inst i 0x084 (withField d 3 0 4) = true → fld d 31 16 = 0xA5C3 → i
       ≠ 0 → (inst s i).st = .active →
       completes (.instFreeze a i d) s fun u => inst u i = { inst s i with st := .freezing } ∧ u.fresh = s.fresh + 32 ∧
         rbytes u (reg .inst i 0x120) 8 = (List.range 32).map (fun k => Config.freeByte (s.fresh + k)) ∧
         rget u (reg .inst i 0x088) = 0x00040000 ∧ u.jobs = s.jobs ∧ u.kslots = s.kslots) ∧
  (∀ (s : State) (i : Nat), (inst s i).st = .freezing → (s.jobs.all (fun e => decide (e.2.sub ≠ .inst i)) = true) →
       exec (.instanceFrozen i) s = .next (settle (setInst s i { inst s i with st := .frozen }))) ∧
  (∀ (s : State) (a : Acc) (i : Nat) (d : Word), takes s a .inst i 0x084 (withField d 3 0 5) = true → fld d 31 16 = 0xA5C3 →
       ((inst s i).st = .freezing ∨ (inst s i).st = .frozen) →
       exec (.instThaw a i d) s = .next (settle (
         irq (rset (setInst s i { inst s i with st := .active }) (reg .inst i 0x088) 0x00050000) .inst i 2))) ∧
  (∀ (s : State) (a : Acc) (i : Nat) (d : Word), takes s a .inst i 0x084 (withField d 3 0 5) = true → fld d 31 16 = 0xA5C3 →
       (inst s i).st ≠ .freezing → (inst s i).st ≠ .frozen →
       exec (.instThaw a i d) s = .next (settle (
         report (irq (rset s (reg .inst i 0x088) 0x00050C1B) .inst i 2) .inst i 0x0C1B 0x084 1))) ∧
  (∀ (s : State) (i : Nat), running s (.drain i) = true →
       exec (.drainTimeout i) s = .next (settle (
         let u := expired s (.drain i)
         drainCheck ((instTags u i).foldl squash u) i))) ∧
  (∀ (s : State) (i : Nat) (ws : List Walk), running s (.genDelay i) = true →
       exec (.generationDelayEnd i ws) s = .next (settle (resetGoes (expired s (.genDelay i)) i ws)))

/-- R396 to R398, R400: the two ends of a migration.  The blob's cryptography is PRESUMED as assumption log 4 says. -/
def Obligations.InstanceMigration : Prop :=
  (∀ (s t : State) (a : Acc) (i : Nat) (d : Word) (inp : BusIn) (w z iv head body : Bytes), takes s a .inst i 0x084 (withField
       d 3 0 6) = true → fld d 31 16 = 0xA5C3 → inp.sram = [] → inp.dill = [] → i ≠ 0 → ((inst s i).st = .frozen ∨ (inst s i).st
       = .saved ∧ (inst s i).savedTo = some (rbytes s (reg .inst i 0x140) 8 ++ rbytes s (reg .inst i 0x160) 8)) → s.locked =
       false → inp.wms = some w → z = x25519 (inst s i).mig (rbytes s (reg .inst i 0x140) 8) → body = blobBody s i → (iv, t) =
       draw s 12 → head = ascii "WMB1" ++ leBytes 2 1 ++ leBytes 2 0xB0 ++ leBytes 4 (0xC0 + body.length) ++ leBytes 1 i ++
       leBytes 1 (inst s i).gen ++ leBytes 2 (carried s i).length ++ leBytes 4 s.part.cap ++ leBytes 1 (ctrRange s i).2 ++ zeros
       3 ++ leBytes 8 s.tbTime ++ rbytes s (reg .inst i 0x100) 8 ++ rbytes s (reg .inst i 0x140) 8 ++ rbytes s (reg .inst i
       0x120) 8 ++ rbytes s (reg .inst i 0x160) 8 ++ iv ++ zeros 4 →
       exec (.instSave a i d inp) s = .next (settle (
         if peerWmsOk s i a.master.toNat w = false then instCmdEnds s i 6 0x0C1D
         else if allZero z = true then instCmdEnds s i 6 0x0C0F
         else if rfld s (reg .inst i 0x188) 23 0 < 0xC0 + body.length then instCmdEnds s i 6 0x0C1E
         else
           let k := migKey z (rbytes s (reg .inst i 0x100) 8) (rbytes s (reg .inst i 0x140) 8) (rbytes s (reg .inst i 0x120) 8)
             (rbytes s (reg .inst i 0x160) 8)
           let c := gcmEnc k iv head body
           let u := emit t (.host 0 (addr64 s (reg .inst i 0x180)) (head ++ c.1 ++ c.2))
           if inp.blobOk = false then instCmdEnds u i 6 0x0D04
           else instCmdEnds (setInst (rset u (reg .inst i 0x198) (BitVec.ofNat 32 (0xC0 + body.length))) i
             { inst s i with st := .saved, savedTo := some (rbytes s (reg .inst i 0x140) 8 ++ rbytes s (reg .inst i 0x160) 8) }) i 6 0))) ∧
  (∀ (s : State) (a : Acc) (i : Nat) (d : Word) (inp : BusIn), takes s a .inst i 0x084 (withField d 3 0 6) = true → fld d 31 16
       = 0xA5C3 → inp.sram = [] → inp.dill = [] → (i = 0 ∨ (inst s i).st ≠ .frozen ∧ ¬((inst s i).st = .saved ∧ (inst s
       i).savedTo = some (rbytes s (reg .inst i 0x140) 8 ++ rbytes s (reg .inst i 0x160) 8))) →
       exec (.instSave a i d inp) s = .next (settle (instCmdEnds s i 6 0x0C1B))) ∧
  (∀ (s : State) (a : Acc) (i : Nat) (d : Word) (inp : BusIn), takes s a .inst i 0x084 (withField d 3 0 6) = true → fld d 31 16
       = 0xA5C3 → inp.sram = [] → inp.dill = [] → i ≠ 0 → (inst s i).st = .frozen →
       (s.locked = true → exec (.instSave a i d inp) s = .next (settle (instCmdEnds s i 6 0x0C19))) ∧
         (s.locked = false → inp.wms = none → exec (.instSave a i d inp) s = .next (settle (instCmdEnds s i 6 0x0D04)))) ∧
  (∀ (s : State) (a : Acc) (i : Nat) (d : Word) (inp : BusIn), takes s a .inst i 0x084 (withField d 3 0 7) = true → fld d 31 16
       = 0xA5C3 → inp.sram = [] → inp.dill = [] → i ≠ 0 → (inst s i).st = .awaitRestore →
       (s.locked = true → exec (.instRestore a i d inp) s = .next (settle (instCmdEnds s i 7 0x0C19))) ∧
         (s.locked = false → inp.wms = none ∨ inp.blob = none → exec (.instRestore a i d inp) s = .next (settle (instCmdEnds s i 7 0x0D04)))) ∧
  (∀ (s : State) (a : Acc) (i : Nat) (d : Word) (inp : BusIn), silent s a = false → silent (coreStores s inp) a = false → reg
       .inst i 0x084 < 0x1000000 →
       exec (.instSave a i d inp) s = exec (.instSave a i d { inp with sram := [], dill := [] }) (coreStores s inp) ∧
         exec (.instRestore a i d inp) s = exec (.instRestore a i d { inp with sram := [], dill := [] }) (coreStores s inp)) ∧
  (∀ (s t : State) (a : Acc) (i n : Nat) (d : Word) (inp : BusIn) (w b e z : Bytes), takes s a .inst i 0x084 (withField d 3 0
       7) = true → fld d 31 16 = 0xA5C3 → inp.sram = [] → inp.dill = [] → i ≠ 0 → (inst s i).st = .awaitRestore → s.locked =
       false → inp.wms = some w → inp.blob = some e → n = fieldLe e 8 4 → b = sliceZ e 0 n → z = x25519 (inst s i).mig (rbytes s
       (reg .inst i 0x140) 8) → (t = ((List.range (instKeys s i).2).drop 1).foldl (fun u r => if (kslot u ((instKeys s i).1 +
       r)).st = .empty ∨ (kslot u ((instKeys s i).1 + r)).st = .retired then u else endSlot u ((instKeys s i).1 + r)) s) →
       exec (.instRestore a i d inp) s = .next (settle (
         if peerWmsOk s i a.master.toNat w = false then instCmdEnds s i 7 0x0C1D
         else if blobHeaderOk s i b = false then instCmdEnds s i 7 0x0C1E
         else if allZero z = true then instCmdEnds s i 7 0x0C0F
         else match gcmDec (migKey z (sliceZ b 0x20 32) (sliceZ b 0x40 32) (sliceZ b 0x60 32) (sliceZ b 0x80 32)) (sliceZ b 0xA0 12)
             (b.take 0xB0) (sliceZ b 0xB0 (n - 0xC0)) (b.drop (n - 16)) with
         | none => instCmdEnds s i 7 0x0C1E
         | some body =>
           if configFits s i (body.take 64) (fieldLe b 0x14 1) = false then instCmdEnds s i 7 0x0C1C
           else
             let k := (chunksOf 80 (fieldLe b 0x0E 2) (body.drop 64)).foldl (restoreKey i) (t, 0)
             let c := (chunksOf 16 (fieldLe b 0x14 1) (body.drop (64 + 80 * fieldLe b 0x0E 2))).foldl (restoreCtr i) k
             if c.2 ≠ 0 then instCmdEnds c.1 i 7 c.2
             else
               let u := loadRings c.1 i (body.take 64)
               instCmdEnds (setInst u i { inst u i with st := .frozen }) i 7 0))) ∧
  (∀ (s : State) (a : Acc) (i : Nat) (d : Word) (inp : BusIn), takes s a .inst i 0x084 (withField d 3 0 7) = true → fld d 31 16
       = 0xA5C3 → inp.sram = [] → inp.dill = [] → (i = 0 ∨ (inst s i).st ≠ .awaitRestore) →
       exec (.instRestore a i d inp) s = .next (settle (instCmdEnds s i 7 0x0C1B)))

/-- R382, R383, R386, R389, R393, R394: what the PF and instance software do with faults, counters and the channel. -/
def Obligations.InstanceFaultsAndChannel : Prop :=
  (∀ (s : State) (a : Acc) (i : Nat) (ws : List Walk), takes s a .inst i 0x0A8 1 = true →
       exec (.instResume a i { walks := ws }) s = .next (settle (
         let p := invalidateForwarded { s with itu := s.itu.filter fun t => !(t.inst == i) } i ws
         rsetb ((instTags p.1 i).foldl retryJob p).1 (reg .inst i 0x064) 22 false))) ∧
  (∀ (s : State) (a : Acc) (i : Nat) (ws : List Walk), takes s a .inst i 0x0A8 2 = true →
       exec (.instAbort a i { walks := ws }) s = .next (settle ((instTags s i).foldl abortJob (s, ws)).1)) ∧
  (∀ (s : State) (a : Acc) (i : Nat) (ws : List Walk), takes s a .inst i 0x0A8 4 = true →
       exec (.instInval a i { walks := ws }) s =
         .next (settle (invalidateForwarded { s with itu := s.itu.filter fun t => !(t.inst == i) } i ws).1)) ∧
  (∀ (s : State) (t i : Nat) (j : Job) (ws : List Walk), (jobsWith s (fun j => decide (j.sub = .inst i) && j.fwd.isSome) = [(t,
       j)]) → job? s t = some j →
       (invalidateForwarded s i ws).1 = finish (setJob s t { j with fwd := none }) t { status := 0x0D06 } (ws.take 1)) ∧
  (∀ (s : State) (t : Nat) (j : Job) (ws : List Walk), job? s t = some j → j.st = .faultFetch →
       (retryJob (s, ws) t).1 = setJob s t { j with st := .preempted } ∧
         (abortJob (s, ws) t).1 = finish s t { status := 0x0D05 } (ws.take 1)) ∧
  (∀ (s : State) (a : Acc) (i : Nat) (d : Word), takes s a .inst i 0x0B0 (withField d 1 0 1) = true → rbit s (reg .inst i
       0x0BC) 16 = false → fld d 13 8 < (ctrRange s i).2 →
       exec (.instCtrIncrement a i d) s = .next (settle { rset s (reg .inst i 0x0BC) 0x10000 with cstOps :=
         s.cstOps ++ [⟨.inst i, false, (ctrRange s i).1 + fld d 13 8, addr64 s (reg .inst i 0x0B4)⟩] })) ∧
  (∀ (s : State) (a : Acc) (i : Nat) (d : Word), takes s a .inst i 0x0B0 (withField d 1 0 2) = true → rbit s (reg .inst i
       0x0BC) 16 = false → fld d 13 8 < (ctrRange s i).2 →
       exec (.instCtrRaise a i d) s = .next (settle { rset s (reg .inst i 0x0BC) 0x10000 with cstOps :=
         s.cstOps ++ [⟨.inst i, true, (ctrRange s i).1 + fld d 13 8, addr64 s (reg .inst i 0x0B4)⟩] })) ∧
  (∀ (s : State) (a : Acc) (i : Nat) (d : Word), takes s a .inst i 0x0B0 (withField d 1 0 2) = true → rbit s (reg .inst i
       0x0BC) 16 = false → (ctrRange s i).2 ≤ fld d 13 8 →
       exec (.instCtrRaise a i d) s = .next (settle (irq (rset s (reg .inst i 0x0BC) 0x00000C20) .inst i 3))) ∧
  (∀ (s : State) (a : Acc) (i : Nat) (d : Word), takes s a .inst i 0x0B0 (withField d 1 0 1) = true → rbit s (reg .inst i
       0x0BC) 16 = false → (ctrRange s i).2 ≤ fld d 13 8 →
       exec (.instCtrIncrement a i d) s = .next (settle (irq (rset s (reg .inst i 0x0BC) 0x00000C20) .inst i 3))) ∧
  (∀ (s : State) (a : Acc) (d : Word), takes s a .inst 0 0x420 d = true → rfld s (reg .inst 0 0x424) 17 16 ≠ 1 → 1 ≤ fld d 18 8
       → fld d 18 8 ≤ 1024 →
       exec (.mgrDoorbell a d) s = .next (settle (
         irq (rsetf (rsetf s (reg .inst 0 0x424) 7 0 (fld d 7 0)) (reg .inst 0 0x424) 17 16 1) .inst 0 8))) ∧
  (∀ (s : State) (a : Acc) (d : Word), takes s a .inst 0 0x420 d = true → (rfld s (reg .inst 0 0x424) 17 16 = 1 ∨ fld d 18 8 =
       0 ∨ 1024 < fld d 18 8) →
       exec (.mgrDoorbell a d) s = .next (settle (
         report s .inst 0 (if rfld s (reg .inst 0 0x424) 17 16 = 1 then 0x0C23 else 0x0C22) 0x420 1))) ∧
  (∀ (s : State) (a : Acc) (d : Word), takes s a .inst 0 0x428 (d ||| 0x80000000) = true → rfld s (reg .inst 0 0x424) 17 16 = 1
       → fld d 7 0 = rfld s (reg .inst 0 0x424) 7 0 → fld d 18 8 ≤ 1024 →
       exec (.mgrPublish a d) s = .next (settle (
         rsetf (rsetf (rsetf (rsetf s (reg .inst 0 0x424) 15 8 (fld d 7 0)) (reg .inst 0 0x424) 28 18 (fld d 18 8))
           (reg .inst 0 0x424) 17 16 2) (reg .inst 0 0x430) 15 0 (rfld s (reg .inst 0 0x42C) 15 0)))) ∧
  (∀ (s : State) (a : Acc) (d : Word), takes s a .inst 0 0x428 (d ||| 0x80000000) = true → (rfld s (reg .inst 0 0x424) 17 16 ≠
       1 ∨ fld d 7 0 ≠ rfld s (reg .inst 0 0x424) 7 0 ∨ 1024 < fld d 18 8) →
       exec (.mgrPublish a d) s = .next (settle (report s .inst 0 0x0C23 0x428 1))) ∧
  (∀ (s : State) (t n : Nat) (j : Job) (ws : List Walk), running s (.remJob t) = true → job? s t = some j → j.fwd = some n →
       exec (.remoteJobTimeout t ws) s = .next (settle (
         finish (setJob (expired s (.remJob t)) t { j with fwd := none }) t { status := 0x0C1A } ws)))

/-- R404, R406, R408, R409, R415, R416: what happens on a side of the ring itself. -/
def Obligations.RingSides : Prop :=
  (∀ (s : State) (x : Nat), running s (.heartbeat x) = true →
       exec (.heartbeatSend x) s = .next (settle (
         let t := expired s (.heartbeat x)
         tset (emit (setSide t x { side t x with beats := ((side t x).beats + 1) % 256 })
           (.heartbeat x (rfld s (reg .rom 0 0x050) 9 4) s.incarnation (side t x).beats)) (.heartbeat x) 100))) ∧
  (∀ (s : State) (x : Nat), sideOn s x = true → sideUp s x = true →
       exec (.heartbeat x) s = .next (settle (tset s (.silent x) 791))) ∧
  (∀ (s : State) (x : Nat), sideOn s x = true → sideUp s x = false →
       exec (.blockLock x) s = .next (settle (let t := setSide s x { side s x with lock := true }
         if s.tbLoss ∨ (side s x).st = .down then t else emit t (.lomes x (helloFrame s x))))) ∧
  (∀ (s : State) (x : Nat) (f : Frame17), sideOn s x = true → (side s x).st = .training → f.type = 1 → frameOk f = true →
       s.tbLoss = false → myNode s ≠ 0 →
       completes (.linkHello x f) s fun u => (side u x).st = .up ∧ (side u x).neighbour = some (fieldLe f.payload 0 1) ∧
         (side u x).wrapped = (side s x).wrapped ∧ tget u (.silent x) = some 791 ∧ rbit u (reg .lms x 0x010) 0 = true ∧
         u.out.head? = some (.lomes x (helloFrame s x))) ∧
  (∀ (s : State) (x : Nat), running s (.silent x) = true → x < 2 → sideUp s x = true →
       completes (.silentTimeout x) s fun u => (side u x).st = .silent ∧ (side u x).wrapped = true ∧ (side u x).lock = false ∧
         rfld u (reg .lms x 0x040) 31 16 = satAdd (rfld s (reg .lms x 0x040) 31 16) 1 0xFFFF ∧
         rget u (reg .lms x 0x050) = BitVec.ofNat 32 (expired s (.silent x)).tbTime ∧ rbit u (reg .lms x 0x010) 1 = true) ∧
  (∀ (s : State) (x : Nat), sideOn s x = true →
       exec (.malformedFrame x true) s = .next (settle (rcount (frameHeard s x) (reg .lms x 0x048) 15 0 1)) ∧
         exec (.malformedFrame x false) s = .next (settle (
           report (rcount (frameHeard s x) (reg .lms x 0x048) 31 16 1) .lms x 0x1401 0 3)))

/-- R408, R409, R413 to R415, R426, R429: how the ring forms and who is on it.  That a repeat of the TOPOLOGY in force restarts the wait for
  isolation, and that node 0 takes its own STATUS, are the model's readings (assumption log 93). -/
def Obligations.RingForming : Prop :=
  (∀ (s : State), running s .discover = true → myNode s = 0 → rbit s (reg .lms 0 0x080) 5 = false →
       exec .discoverOriginate s = .next (settle (([0, 1].filter (sideUp s)).foldl (fun u x => emit u (.lomes x
         { type := 0x02, dst := 0, src := 0, srcInc := s.incarnation,
           payload := leBytes 2 ((topoSeq s + 1) % 65536) ++ [1] ++ (leBytes 1 0 ++ leBytes 2 s.incarnation) }))
         { expired s .discover with discOut := [0, 1].filter (sideUp s), disc := [] }))) ∧
  (∀ (s : State) (x : Nat) (f : Frame17), x < 2 → sideOn s x = true → sideUp s x = true → frameOk f = true → f.type = 2 →
       f.flags.testBit 2 = false → myNode s ≠ 0 → s.tbLoss = false →
       exec (.discover x f) s = .next (settle (
         let n := fieldLe f.payload 2 1
         let p := f.payload.take 2 ++ leBytes 1 (n + 1) ++ topoEntries (readEntries f.payload 3 n ++ [(myNode s, s.incarnation)])
         let u := noteCopy (frameHeard s x) x false (readEntries f.payload 3 n)
         if sideUp s (1 - x) then emit u (.lomes (1 - x) { f with hops := f.hops + 1, payload := p })
         else emit u (.lomes x { f with hops := f.hops + 1, flags := f.flags + 4, payload := p })))) ∧
  (∀ (s : State) (x : Nat) (f : Frame17), x < 2 → sideOn s x = true → sideUp s x = true → frameOk f = true → f.type = 2 →
       f.flags.testBit 2 = true → myNode s ≠ 0 → s.tbLoss = false →
       exec (.discover x f) s = .next (settle (
         let u := noteCopy (frameHeard s x) x true (readEntries f.payload 3 (fieldLe f.payload 2 1))
         if sideUp s (1 - x) then emit u (.lomes (1 - x) { f with hops := f.hops + 1 }) else u))) ∧
  (∀ (s : State) (f : Frame17), sideOn s 0 = true → sideUp s 0 = true → frameOk f = true → f.type = 2 → f.flags.testBit 2 =
       false → myNode s = 0 → (f.src ≠ 0 ∨ f.srcInc = s.incarnation) → fieldLe f.payload 0 2 = (topoSeq s + 1) % 65536 →
       s.discOut ≠ [] → s.tbLoss = false →
       exec (.discover 0 f) s = .next (settle (ringNote s (
         newTopo (frameHeard s 0) (readEntries f.payload 3 (fieldLe f.payload 2 1)) none)))) ∧
  (∀ (s : State) (x : Nat) (f : Frame17) (t : Topo), x < 2 → sideOn s x = true → sideUp s x = true → frameOk f = true → f.type
       = 3 → f.src ≠ myNode s → myNode s ≠ 0 → s.topo = none → f.hops < 127 → t.seq = fieldLe f.payload 0 2 → t.brk = (if fieldLe
       f.payload 4 1 = 0xFF then none else some (fieldLe f.payload 4 1)) → t.entries = readEntries f.payload 5 (fieldLe f.payload
       3 1) →
       exec (.topology x f) s = .next (settle (ringNote s (
         transmit (tset (acceptTopo { frameHeard s x with dups := seenTwice (frameHeard s x), disc := [] } t) .isolated 3000000) (1 - x) { f with hops := f.hops + 1 })))) ∧
  (∀ (s : State) (t : Topo) (old : Topo), s.topo = some old → old.entries = [] → t.brk = none → myNode s = 5 → t.entries = [(0,
       3), (5, s.incarnation)] → (peer s 0).inc = 0 →
       (acceptTopo s t).topo = some t ∧ (acceptTopo s t).isolated = false ∧ (peer (acceptTopo s t) 0).inc = 3 ∧
         (∀ x, x < 2 → sideUp s x = true → (side (acceptTopo s t) x).wrapped = false)) ∧
  (∀ (s : State) (t : Topo), running s .topoRepeat = true → s.topo = some t →
       exec .topologyRepeat s = .next (settle (tset (broadcast (expired s .topoRepeat) 0x03 (
         leBytes 2 t.seq ++ leBytes 1 (if t.brk.isSome then 3 else 2) ++ leBytes 1 t.entries.length ++ leBytes 1 (t.brk.getD 0xFF) ++
         topoEntries t.entries)) .topoRepeat 1000000))) ∧
  (∀ (s : State), running s .isolated = true →
       exec .isolatedTimeout s = .next (settle (ringNote s { expired s .isolated with isolated := true })) ∧
         (s.isolated = false → sideUp s 0 = true ∨ sideUp s 1 = true →
           ringNote s { expired s .isolated with isolated := true } = irq { expired s .isolated with isolated := true } .lms 0 2)) ∧
  (∀ (s : State), running s .status = true →
       exec .statusSend s = .next (settle (let t := tset (expired s .status) .status 100000
         if myNode s = 0 then statusIn t 0 (statusPayload t) else sendFrame t 0 0x04 (statusPayload t)))) ∧
  (∀ (s : State) (x n : Nat) (f : Frame17), reaches s x f = true → f.type = 4 → myNode s = 0 → f.src = n → n < 64 →
       f.flags.testBit 1 = false → rbit s (reg .lms 0 (0x200 + 4 * n)) 8 = false →
       exec (.status x f) s = .next (settle (irq (tset (rset (frameHeard s x) (reg .lms 0 (0x200 + 4 * n))
         (mk 7 0 (fieldLe f.payload 0 1) ||| mk 8 8 1 ||| mk 10 10 (fieldLe f.payload 2 1 % 2) |||
          mk 11 11 (fieldLe f.payload 2 1 / 2 % 2) ||| mk 13 12 (fieldLe f.payload 1 1) |||
          mk 14 14 (fieldLe f.payload 2 1 / 4 % 2) ||| mk 23 16 (fieldLe f.payload 3 1))) (.nodeAge n) 500000) .lms 0 4))) ∧
  (∀ (s : State) (n : Nat), running s (.nodeAge n) = true →
       exec (.nodeAgeing n) s = .next (settle (irq (rsetb (expired s (.nodeAge n)) (reg .lms 0 (0x200 + 4 * n)) 8 false) .lms 0 3))) ∧
  (∀ (s : State) (x : Nat) (f : Frame17), reaches s x f = true → f.type = 5 → myNode s = 0 → f.flags.testBit 1 = false → rbit s
       (reg .lms 0 0x080) 5 = false → tget s .discover = none →
       exec (.linkEvent x f) s = .next (settle (tset (frameHeard s x) .discover 5000)))

/-- R409 to R412: forwarding and reliable delivery. -/
def Obligations.ReliableDelivery : Prop :=
  (∀ (s : State) (x : Nat) (f : Frame17) (inp : LmsIn), sideOn s x = true → sideUp s x = true → frameOk f = true → (side s
       x).wrapped = false → f.type ≠ 1 → f.type ≠ 2 → f.type ≠ 3 → f.dst ≠ myNode s → f.dst ≠ 0xFF →
       exec (.frameForward x f inp) s = .next (settle (let t := frameHeard s x
         if f.hops < 127 then transmit t (1 - x) { f with hops := f.hops + 1 }
         else report (rcount t (reg .lms x 0x048) 31 16 1) .lms x 0x1401 0 3))) ∧
  (∀ (s : State) (x : Nat) (f : Frame17), reaches s x f = true → f.type = 6 → f.flags.testBit 3 = false →
       exec (.ack x f) s = .next (settle (ringNote s (frameTaken s x f)))) ∧
  (∀ (s : State) (f u : Frame17) (k : Nat), f.flags.testBit 1 = true → f.dst = myNode s → (peer s f.src).unacked = [(u, k)] →
       (peer s f.src).queue = [] → seqBefore u.seq f.ack = true → u.type = 0x12 →
       (peer (ackIn s f) f.src).unacked = [] ∧ tget (ackIn s f) (.retx f.src u.seq) = none ∧ (ackIn s f).regs = s.regs ∧
         (ackIn s f).out = s.out ∧ (ackIn s f).jobs = s.jobs) ∧
  (∀ (s : State) (x : Nat) (f : Frame17) (inp : LmsIn) (p : Peer), reaches s x f = true → f.type = 0x11 → p = peer (frameTaken
       s x f) f.src → f.dstInc = 0 → f.seq ≠ p.rxNext → seqBefore f.seq p.rxNext = false → p.held.length < 8 → ((p.held.any fun h
       => h.1.seq == f.seq) = false) →
       exec (.regWr x f inp) s = .next (settle (ringNote s (setPeer (frameTaken s x f) f.src { p with held := p.held ++ [(f, inp)] })))) ∧
  (∀ (s : State) (x : Nat) (f : Frame17) (inp : LmsIn) (p : Peer), reaches s x f = true → f.type = 0x11 → p = peer (frameTaken
       s x f) f.src → f.dstInc = 0 → f.seq ≠ p.rxNext → seqBefore f.seq p.rxNext = true → ((p.replies.any fun r => r.1 == f.seq)
       = false) →  exec (.regWr x f inp) s = .next (settle (ringNote s (sendAck (frameTaken s x f) f.src false)))) ∧
  (∀ (s : State) (x k : Nat) (f u : Frame17) (inp : LmsIn) (p : Peer), reaches s x f = true → f.type = 0x11 → p = peer
       (frameTaken s x f) f.src → f.dstInc = 0 → f.seq ≠ p.rxNext → seqBefore f.seq p.rxNext = true → p.replies = [(f.seq,
       u.seq)] → p.unacked = [(u, k)] →
       exec (.regWr x f inp) s = .next (settle (ringNote s (transmit (sendAck (frameTaken s x f) f.src false) (routeSide s f.src)
         { u with ack := p.rxNext, dstInc := p.inc })))) ∧
  (∀ (s t : State) (x : Nat) (f : Frame17) (inp : LmsIn), reaches s x f = true → f.type = 0x11 → t = frameTaken s x f →
       f.dstInc ≠ 0 → f.dstInc ≠ t.incarnation →
       exec (.regWr x f inp) s = .next (settle (ringNote s (
         let u := tstop t (.ackDelay f.src)
         transmit u (routeSide u f.src) { frameTo u f.src 0x06 [] with flags := (frameTo u f.src 0x06 []).flags + 8 })))) ∧
  (∀ (s : State) (n : Nat), running s (.ackDelay n) = true →
       exec (.ackDelayExpiry n) s = .next (settle (
         let t := expired s (.ackDelay n)
         transmit (tstop t (.ackDelay n)) (routeSide t n) (frameTo t n 0x06 [])))) ∧
  (∀ (s : State) (n q k : Nat) (f : Frame17), running s (.retx n q) = true → (((peer s n).unacked.find? fun u => u.1.seq == q)
       = some (f, k)) → barred s n = false → k < rfld s (reg .lms 0 0x084) 11 8 →
       exec (.retransmitTimeout n q) s = .next (settle (
         let f' := { f with ack := (peer s n).rxNext, dstInc := (peer s n).inc }
         let t := setPeer (expired s (.retx n q)) n { peer s n with
           unacked := (peer s n).unacked.map fun u => if u.1.seq = q then (f', k + 1) else u }
         transmit (tset t (.retx n q) (100 * rfld s (reg .lms 0 0x084) 7 0 + 1)) (routeSide s n) f'))) ∧
  (∀ (s : State) (n q k : Nat) (f : Frame17), running s (.retx n q) = true → (((peer s n).unacked.find? fun u => u.1.seq == q)
       = some (f, k)) → (barred s n = true ∨ rfld s (reg .lms 0 0x084) 11 8 ≤ k) →
       exec (.retransmitTimeout n q) s = .next (settle (
         giveUp (expired s (.retx n q)) n (if s.dups.contains n then 0x1406 else 0x1402))))

/-- R418, R419, R421, R429, R466: the aperture, what its frames do at their target and back, and the event queue.  That answers are matched
  first in, first out is the model's (assumption log 94). -/
def Obligations.RemoteAccess : Prop :=
  (∀ (s : State) (a : Acc) (o n : Nat) (w : Bool) (d sel : Word), opens s a w o = true → sel = rget s (reg .lms 0 (0x0A0 + 4 *
       (o / 0x100000 % 4))) → bit sel 7 = true → n = fld sel 5 0 → n ≠ myNode s → fld sel 11 8 < 12 → s.dups.contains n = false →
       exec (.remoteApertureAccess a w o d) s = .next (settle (
         let t := { s with raReqs := s.raReqs ++ [{ node := n, window := o / 0x100000 % 4, write := w, master := a.master, off := 0xC00000 + o }] }
         let off := leBytes 4 (fld sel 11 8 * 0x100000 + o % 0x100000)
         if w then sendFrame t n 0x11 (off ++ [1, 0, 0, 0] ++ leBytes 4 d.toNat) else sendFrame t n 0x10 (off ++ [1])))) ∧
  (∀ (s : State) (a : Acc) (o : Nat) (w : Bool) (d sel : Word), opens s a w o = true → sel = rget s (reg .lms 0 (0x0A0 + 4 * (o
       / 0x100000 % 4))) → (bit sel 7 = false ∨ fld sel 5 0 = myNode s ∨ 12 ≤ fld sel 11 8 ∨ s.dups.contains (fld sel 5 0) =
       true) →
       exec (.remoteApertureAccess a w o d) s = .next (settle (
         let code := if bit sel 7 = false then 0x1403 else if fld sel 5 0 = myNode s ∨ 12 ≤ fld sel 11 8 then 0x1404 else 0x1406
         let t := irq (rset s (reg .lms 0 0x08C) (mk 5 0 (fld sel 5 0) ||| mk 7 6 (o / 0x100000 % 4) ||| mk 31 16 code)) .lms 0 8
         if w then t else emit t (.bus a.master (0xC00000 + o) 0xFFFFFFFF)))) ∧
  (∀ (s t : State) (x off k : Nat) (f : Frame17), isNext s x f = true → f.type = 0x10 → t = inOrder s x f → off = fieldLe
       f.payload 0 3 → k = fieldLe f.payload 4 1 → off + 4 * k ≤ 0xC00000 →
       exec (.regRd x f) s = .next (settle (afterFrame s f (
         let r := readWords f.src off k t
         answerFrame r.1 f 0x12 (zeros 4 ++ r.2))))) ∧
  (∀ (s t : State) (x : Nat) (f : Frame17), isNext s x f = true → f.type = 0x10 → t = inOrder s x f → 0xC00000 < fieldLe
       f.payload 0 3 + 4 * fieldLe f.payload 4 1 →
       exec (.regRd x f) s = .next (settle (afterFrame s f (answerFrame t f 0x12 [0x04, 0x14, 0, 0])))) ∧
  (∀ (s t : State) (x off k : Nat) (f : Frame17) (inp : LmsIn), isNext s x f = true → f.type = 0x11 → t = inOrder s x f → off =
       fieldLe f.payload 0 3 → k = fieldLe f.payload 4 1 → off + 4 * k ≤ 0xC00000 →
       exec (.regWr x f inp) s = .next (settle (afterFrame s f (
         let word (n : Nat) : Word := wordAtLe (f.payload.drop 8) n
         let u := (List.range k).foldl (fun u n => busWrite ⟨BitVec.ofNat 8 (0x80 + f.src), false⟩ (off + 4 * n) 4 (word n) inp.bus u) t
         answerFrame u f 0x12 [0, 0, 0, 0])))) ∧
  (∀ (s t : State) (x : Nat) (f : Frame17) (inp : LmsIn), isNext s x f = true → f.type = 0x11 → t = inOrder s x f → 0xC00000 <
       fieldLe f.payload 0 3 + 4 * fieldLe f.payload 4 1 →
       exec (.regWr x f inp) s = .next (settle (afterFrame s f (answerFrame t f 0x12 [0x04, 0x14, 0, 0])))) ∧
  (∀ (s t : State) (x : Nat) (f : Frame17) (r : RaReq), isNext s x f = true → f.type = 0x12 → t = inOrder s x f →
       (t.raReqs.find? (fun q => decide (q.node = f.src)) = some r) → r.bulk = none → fieldLe f.payload 0 2 = 0 →
       exec (.regRsp x f) s = .next (settle (afterFrame s f (
         let u := { t with raReqs := t.raReqs.eraseP fun q => decide (q.node = f.src) }
         if r.write then u else emit u (.bus r.master r.off (wordAtLe (f.payload.drop 4) 0)))))) ∧
  (∀ (s t : State) (x : Nat) (f : Frame17) (r : RaReq), isNext s x f = true → f.type = 0x12 → t = inOrder s x f →
       (t.raReqs.find? (fun q => decide (q.node = f.src)) = some r) → r.bulk = none → fieldLe f.payload 0 2 ≠ 0 →
       exec (.regRsp x f) s = .next (settle (afterFrame s f (
         let u := { t with raReqs := t.raReqs.eraseP fun q => decide (q.node = f.src) }
         let v := irq (rset u (reg .lms 0 0x08C) (mk 5 0 r.node ||| mk 7 6 r.window ||| mk 31 16 (fieldLe f.payload 0 2))) .lms 0 8
         if r.write then v else emit v (.bus r.master r.off 0xFFFFFFFF))))) ∧
  (∀ (s t : State) (x : Nat) (f : Frame17), reaches s x f = true → f.type = 0x20 → t = frameTaken s x f → t.evq.length < 64 →
       exec (.event x f) s = .next (settle (ringNote s (
         irq { t with evq := t.evq ++ [(fieldLe f.payload 0 2, f.src, wordAtLe f.payload 1)] } .lms 0 5)))) ∧
  (∀ (s t : State) (x : Nat) (f : Frame17), reaches s x f = true → f.type = 0x20 → t = frameTaken s x f → 64 ≤ t.evq.length →
       exec (.event x f) s = .next (settle (ringNote s (irq (rcount t (reg .lms 0 0x090) 31 16 1) .lms 0 6)))) ∧
  (∀ (s : State) (a : Acc), takes s a .lms 0 0x09C 1 = true →
       exec (.evqPop a) s = .next (settle { s with evq := s.evq.drop 1 }))

/-- R392, R394, R421 to R423: remote jobs at both their nodes.  One BUF_RD outstanding at a time, the tag a job gets and the codes of a BUF_RD
  that leaves its buffer are the model's (assumption log 95), and so is a BUF_WR to aux (log 115). -/
def Obligations.RemoteJobs : Prop :=
  (∀ (s t : State) (x g : Nat) (f : Frame17) (inp : LmsIn) (sub : Sub), isNext s x f = true → f.type = 0x30 → t = inOrder s x f
       → sub = .remote f.src (fieldLe f.payload 0 2) (fieldLe f.payload 2 1) (fieldLe f.payload 3 1) → ((if inp.tag < 1024 ∧ job?
       t inp.tag = none then some inp.tag else (List.range 1024).find? fun k => (job? t k).isNone) = some g) → rbit t (reg .lms 0
       0x084) 12 = true → quotaLeft t sub = true → t.hw = none →
       exec (.jobReq x f inp) s = .next (settle (afterFrame s f (
         nextBufRd (newJob t g sub (fieldLe f.payload 3 1) (f.payload.drop 4)) g)))) ∧
  (∀ (s t : State) (x : Nat) (f : Frame17) (inp : LmsIn) (sub : Sub), isNext s x f = true → f.type = 0x30 → t = inOrder s x f →
       sub = .remote f.src (fieldLe f.payload 0 2) (fieldLe f.payload 2 1) (fieldLe f.payload 3 1) → (rbit t (reg .lms 0 0x084)
       12 = false ∨ quotaLeft t sub = false ∨ t.hw ≠ none ∨ (∀ k < 1024, job? t k ≠ none)) →
       exec (.jobReq x f inp) s = .next (settle (afterFrame s f (
         sendFrame t f.src 0x35 (leBytes 2 (fieldLe f.payload 0 2) ++ leBytes 1 (fieldLe f.payload 3 1) ++ [0, 0x05, 0x14]))))) ∧
  (∀ (s t : State) (x g : Nat) (f : Frame17) (j : Job), isNext s x f = true → f.type = 0x32 → t = inOrder s x f → remoteTag t
       f.src (fieldLe f.payload 0 2) = some g → job? t g = some j →
       exec (.bufData x f) s = .next (settle (afterFrame s f (
         let d := f.payload.drop 4
         if fieldLe f.payload 2 2 ≠ 0 then squash t g
         else if j.rsrc.length < dSrcLen j.desc then nextBufRd (setJob t g { j with rsrc := j.rsrc ++ d }) g
         else if j.raux.length < auxLen j.desc then nextBufRd (setJob t g { j with raux := j.raux ++ d }) g else t)))) ∧
  (∀ (s : State) (g : Nat) (j : Job) (n h i e : Nat), job? s g = some j → j.sub = .remote n h i e →
       nextBufRd s g = (
         let ask (buf have_ all : Nat) : State := sendFrame s n 0x31 (leBytes 2 h ++ leBytes 1 e ++ leBytes 1 buf ++ leBytes 4 have_ ++ leBytes 2 (min 256 (all - have_)))
         if j.rsrc.length < dSrcLen j.desc then ask 0 j.rsrc.length (dSrcLen j.desc)
         else if j.raux.length < auxLen j.desc then ask 1 j.raux.length (auxLen j.desc) else s)) ∧
  (∀ (s t : State) (x g e n h i : Nat) (f : Frame17) (j : Job), isNext s x f = true → f.type = 0x36 → t = inOrder s x f →
       remoteTag t f.src (fieldLe f.payload 0 2) = some g → job? t g = some j → j.sub = .remote n h i e →
       exec (.jobCancel x f) s = .next (settle (afterFrame s f (if e = fieldLe f.payload 2 1 then squash t g else t)))) ∧
  (∀ (s : State) (g : Nat) (j : Job), job? s g = some j → j.fwd = none → j.timed = false → j.st ≠ .squashing →
       squash s g = freeTag s g) ∧
  (∀ (s t u : State) (x g i n off : Nat) (f : Frame17) (j : Job) (inp : LmsIn) (hs : List (Nat × Nat)) (ws : List Walk) (b :
       Nat × Nat), isNext s x f = true → f.type = 0x31 → t = inOrder s x f → homeJob t f = some (g, j, i) → b = (if fieldLe
       f.payload 3 1 = 1 then (dAux j.desc, dAuxLen j.desc) else (dSrc j.desc, dSrcLen j.desc)) → n = fieldLe f.payload 8 2 → off
       = fieldLe f.payload 4 4 → off + n ≤ b.2 → translateAll t i 1 false g j.gen (pieces (b.1 + off) n) inp.walks = (u, hs, ws,
       none) →
       exec (.bufRd x f inp) s = .next (settle (afterFrame s f (
         answerFrame u f 0x32 (leBytes 2 g ++ [0, 0] ++ sliceZ inp.mem 0 n))))) ∧
  (∀ (s t u v : State) (x g i n off : Nat) (f : Frame17) (j k : Job) (inp : LmsIn) (hs : List (Nat × Nat)) (ws : List Walk) (b
       : Nat × Nat) (r : TrRes), isNext s x f = true → f.type = 0x31 → t = inOrder s x f → homeJob t f = some (g, j, i) → b = (if
       fieldLe f.payload 3 1 = 1 then (dAux j.desc, dAuxLen j.desc) else (dSrc j.desc, dSrcLen j.desc)) → n = fieldLe f.payload 8
       2 → off = fieldLe f.payload 4 4 → off + n ≤ b.2 → translateAll t i 1 false g j.gen (pieces (b.1 + off) n) inp.walks = (u,
       hs, ws, some r) → v = answerFrame u f 0x32 (leBytes 2 g ++ leBytes 2 (remoteCode r)) → job? v g = some k →
       exec (.bufRd x f inp) s = .next (settle (afterFrame s f (
         finish (tstop (setJob v g { k with fwd := none }) (.remJob g)) g { status := remoteCode r } ws)))) ∧
  (∀ (s t : State) (x g i : Nat) (f : Frame17) (j : Job) (inp : LmsIn), isNext s x f = true → f.type = 0x31 → t = inOrder s x f
       → homeJob t f = some (g, j, i) → (if fieldLe f.payload 3 1 = 1 then dAuxLen j.desc else dSrcLen j.desc) < fieldLe
       f.payload 4 4 + fieldLe f.payload 8 2 →
       exec (.bufRd x f inp) s = .next (settle (afterFrame s f (answerFrame t f 0x32 (leBytes 2 g ++ [0x01, 0x0D]))))) ∧
  (∀ (s t u : State) (x g i off : Nat) (f : Frame17) (j : Job) (inp : LmsIn) (hs : List (Nat × Nat)) (ws : List Walk) (d :
       Bytes) (b : Nat × Nat) (r : Option TrRes), isNext s x f = true → f.type = 0x33 → t = inOrder s x f → homeJob t f = some
       (g, j, i) → d = f.payload.drop 8 → off = fieldLe f.payload 4 4 → (b = (if dType j.desc = 0x01 ∧ (dParam j.desc 0 = 1 ∨
       dParam j.desc 0 = 2) then (dAux j.desc, dAuxLen j.desc) else (dDst j.desc, dDstLen j.desc))) → off + d.length ≤ b.2 →
       translateAll t i 3 true g j.gen (pieces (b.1 + off) d.length) inp.walks = (u, hs, ws, r) →
       exec (.bufWr x f inp) s = .next (settle (afterFrame s f (
         let v := (hs.foldl (fun (p : State × Nat) h => (emit p.1 (.host i h.1 ((d.drop p.2).take h.2)), p.2 + h.2)) (u, 0)).1
         match r with
         | none => v
         | some c => finish (tstop (setJob v g { j with fwd := none }) (.remJob g)) g { status := remoteCode c } ws)))) ∧
  (∀ (s t : State) (x g i : Nat) (f : Frame17) (j : Job) (inp : LmsIn), isNext s x f = true → f.type = 0x34 → t = inOrder s x f
       → homeJob t f = some (g, j, i) →
       exec (.jobDone x f inp) s = .next (settle (afterFrame s f (
         let b := fieldLe f.payload 7 1
         let k := { j with fwd := none, approved := b.testBit 1, faulted := j.faulted || b.testBit 2, preempted := j.preempted || b.testBit 3 }
         let r : JobRes := { status := fieldLe f.payload 4 2, outLen := fieldLe f.payload 8 4, result := fieldLe f.payload 12 8 }
         finish (tstop (setJob t g k) (.remJob g)) g r inp.walks)))) ∧
  (∀ (s t : State) (x g i : Nat) (f : Frame17) (j : Job) (inp : LmsIn), isNext s x f = true → f.type = 0x35 → t = inOrder s x f
       → homeJob t f = some (g, j, i) →
       exec (.jobAbort x f inp) s = .next (settle (afterFrame s f (
         finish (tstop (setJob t g { j with fwd := none }) (.remJob g)) g { status := fieldLe f.payload 4 2, ran := false } inp.walks)))) ∧
  (∀ (s t u : State) (x : Nat) (f : Frame17) (inp : LmsIn) (e : Nat × Nat × Nat × Nat), isNext s x f = true → t = inOrder s x f
       → homeJob t f = none → (t.issued.find? (fun e => decide (e.2.2.2 = fieldLe f.payload 0 2)) = some e) → u = settle
       (afterFrame s f (rcount t (reg .inst e.1 0x0AC) 15 8 1)) →
       (f.type = 0x31 → exec (.bufRd x f inp) s = .next u) ∧ (f.type = 0x33 → exec (.bufWr x f inp) s = .next u) ∧
         (f.type = 0x34 → exec (.jobDone x f inp) s = .next u) ∧ (f.type = 0x35 → exec (.jobAbort x f inp) s = .next u))

/-- R295, R296, R424, R425, R429, R430: pushes at their target and bulk channels at node 0. -/
def Obligations.RingPushesAndBulk : Prop :=
  (∀ (s t : State) (x o : Nat) (f : Frame17) (d : Bytes), isNext s x f = true → f.type = 0x40 → t = inOrder s x f → o = fieldLe
       f.payload 0 4 → d = f.payload.drop 4 →
       exec (.pushData x f) s = .next (settle (afterFrame s f (
         if mayPush t 2 = true ∧ rbit t (reg .lms 0 0x084) 13 = true ∧ o + d.length ≤ 0x400000 then
           rsetf { t with bootSram := bootWriteBytes t.bootSram o (d.map some) } (reg .rom 0 0x118) 4 3 2
         else answerFrame t f 0x42 ([0x07, 0x14] ++ leBytes 2 (rfld t (reg .rom 0 0x118) 31 16)))))) ∧
  (∀ (s t : State) (x : Nat) (f : Frame17) (inp : LmsIn), isNext s x f = true → f.type = 0x41 → t = inOrder s x f →
       exec (.pushCtrl x f inp) s = .next (settle (afterFrame s f (
         if mayPush t 2 = true ∧ rbit t (reg .lms 0 0x084) 13 = true then
           let u := { rsetf t (reg .rom 0 0x118) 4 3 2 with pushLen := wordAtLe f.payload 0 }
           if wordAtLe f.payload 1 = 0xA5C30001 then
             let g := pushGo u 2 inp.rom
             answerFrame g.1 f 0x42 ([0, 0] ++ leBytes 2 g.2)
           else answerFrame u f 0x42 ([0, 0] ++ leBytes 2 (rfld u (reg .rom 0 0x118) 31 16))
         else answerFrame t f 0x42 ([0x07, 0x14] ++ leBytes 2 (rfld t (reg .rom 0 0x118) 31 16)))))) ∧
  (∀ (s t : State) (x : Nat) (f : Frame17), reaches s x f = true → f.type = 0x42 → (f.dstInc = 0 ∨ f.dstInc = s.incarnation) →
       f.seq = (peer (frameHeard s x) f.src).rxNext → t = orderTaken (frameHeard s x) f →
       exec (.pushRsp x f) s = .next (settle (ringNote s (ackIn (takeHeld f.src 8 (
         match pushChannel t f.src with
         | none => rcount t (reg .inst 0 0x0AC) 15 8 1
         | some c => if (bulk t c).any fun b => decide (b.gen = (inst t 0).gen) then
               bulkEnd t c (if fieldLe f.payload 0 2 ≠ 0 then fieldLe f.payload 0 2 else fieldLe f.payload 2 2)
             else rcount t (reg .inst 0 0x0AC) 15 8 1)) f)))) ∧
  (∀ (s : State) (c : Nat) (b : Bulk) (code : Nat), bulk s c = some b →
       bulkEnd s c code = (
         let p := peer s b.node
         let t := if b.kind = 1 then setPeer s b.node { p with queue := p.queue.filter fun f => !(f.type == 0x40 || f.type == 0x41) } else s
         let t := tstop (setBulk t c none) (.bulk c)
         let t := { t with raReqs := t.raReqs.map fun r => if r.bulk.any (fun b => b.1 == c) then { r with bulk := some (c, 256) } else r }
         irq (rset t (reg .lms 0 (0x0D4 + 32 * c)) (mk 1 1 1 ||| mk 15 8 b.gen ||| mk 31 16 code)) .lms 0 7)) ∧
  (∀ (s : State) (c n : Nat) (b : Bulk), bulk s c = some b →
       bulkMoved s c n = (
         let t := tset (rcount s (reg .lms 0 (0x0D8 + 32 * c)) 22 0 n) (.bulk c) 100000000
         if rfld t (reg .lms 0 (0x0D8 + 32 * c)) 22 0 < b.len ∨ (b.kind = 1 ∧ b.finish) then t else bulkEnd t c 0)) ∧
  (∀ (s t : State) (x c e : Nat) (f : Frame17) (r : RaReq) (b : Bulk), isNext s x f = true → f.type = 0x12 → t = inOrder s x f
       → (t.raReqs.find? (fun q => decide (q.node = f.src)) = some r) → r.bulk = some (c, e) → bulk t c = some b → b.gen = e →
       (inst t 0).gen = e →
       exec (.regRsp x f) s = .next (settle (afterFrame s f (
         let u := { t with raReqs := t.raReqs.eraseP fun q => decide (q.node = f.src) }
         if fieldLe f.payload 0 2 ≠ 0 then bulkEnd u c (fieldLe f.payload 0 2)
         else
           let d := sliceZ (f.payload.drop 4) 0 (4 * r.words)
           bulkMoved (emit u (.host 0 (b.haddr + rfld u (reg .lms 0 (0x0D8 + 32 * c)) 22 0) d)) c d.length)))) ∧
  (∀ (s : State) (a : Acc) (c n off len : Nat) (d : Word) (m : Option Bytes), c < 4 → served s a .lms 0 (0x0D0 + 32 * c) = true
       → fld d 31 16 = 0xA5C3 → bit d 14 = true → bulk s c = none → n = fld d 13 8 → off = rfld s (reg .lms 0 (0x0C8 + 32 * c))
       23 0 → len = rfld s (reg .lms 0 (0x0CC + 32 * c)) 22 0 → myNode s = 0 → n ≠ 0 → 4 ≤ len → len % 4 = 0 → off % 4 = 0 → off
       + len ≤ 0x400000 →
       exec (.bulkPush a c d m) s = .next (settle (
         let t := noted s a .lms 0 (0x0D0 + 32 * c) (withField d 1 0 1)
         let g := (inst t 0).gen
         let b : Bulk := { kind := 1, node := n, finish := bit d 2, haddr := addr64 t (reg .lms 0 (0x0C0 + 32 * c)), off := off, len := len, gen := g }
         let t := rset (rset (setBulk t c (some b)) (reg .lms 0 (0x0D4 + 32 * c)) (mk 0 0 1 ||| mk 15 8 g)) (reg .lms 0 (0x0D8 + 32 * c)) 0
         let t := tset { t with issued := (0, g, t.tbTime, 65536 + c) :: t.issued } (.bulk c) 100000000
         if s.dups.contains n then bulkEnd t c 0x1406
         else match m with
           | none => bulkEnd t c 0x0D04
           | some m =>
             let data (k : Nat) : Bytes := ((sliceZ m 0 len).drop (256 * k)).take 256
             let t := (List.range ((len + 255) / 256)).foldl (fun t k => sendFrame t n 0x40 (leBytes 4 (off + 256 * k) ++ data k)) t
             if bit d 2 then sendFrame t n 0x41 (leBytes 4 (off + len) ++ leBytes 4 0xA5C30001) else t))) ∧
  (∀ (s : State) (a : Acc) (c n off len : Nat) (d : Word), c < 4 → served s a .lms 0 (0x0D0 + 32 * c) = true → fld d 31 16 =
       0xA5C3 → bit d 14 = true → bulk s c = none → n = fld d 13 8 → off = rfld s (reg .lms 0 (0x0C8 + 32 * c)) 23 0 → len = rfld
       s (reg .lms 0 (0x0CC + 32 * c)) 22 0 → myNode s = 0 → n ≠ 0 → 4 ≤ len → len ≤ 0x10000 → len % 4 = 0 → off % 4 = 0 →
       exec (.bulkFetch a c d) s = .next (settle (
         let t := noted s a .lms 0 (0x0D0 + 32 * c) (withField d 1 0 2)
         let g := (inst t 0).gen
         let b : Bulk := { kind := 2, node := n, finish := bit d 2, haddr := addr64 t (reg .lms 0 (0x0C0 + 32 * c)), off := off, len := len, gen := g }
         let t := rset (rset (setBulk t c (some b)) (reg .lms 0 (0x0D4 + 32 * c)) (mk 0 0 1 ||| mk 15 8 g)) (reg .lms 0 (0x0D8 + 32 * c)) 0
         let t := tset { t with issued := (0, g, t.tbTime, 65536 + c) :: t.issued } (.bulk c) 100000000
         let words (k : Nat) : Nat := min 64 ((len - 256 * k) / 4)
         let ask (k : Nat) : RaReq := { node := n, bulk := some (c, g), words := words k }
         if s.dups.contains n then bulkEnd t c 0x1406
         else (List.range ((len + 255) / 256)).foldl (fun t k =>
           sendFrame { t with raReqs := t.raReqs ++ [ask k] } n 0x10 (leBytes 4 (off + 256 * k) ++ leBytes 1 (words k))) t))) ∧
  (∀ (s : State) (a : Acc) (c off len : Nat) (d : Word) (m : Option Bytes), c < 4 → served s a .lms 0 (0x0D0 + 32 * c) = true →
       bulk s c = none → off = rfld s (reg .lms 0 (0x0C8 + 32 * c)) 23 0 → len = rfld s (reg .lms 0 (0x0CC + 32 * c)) 22 0 →
       let bad := fld d 31 16 ≠ 0xA5C3 ∨ bit d 14 = false ∨ myNode s ≠ 0 ∨ fld d 13 8 = 0 ∨ len < 4 ∨ len % 4 ≠ 0 ∨ off % 4 ≠ 0;
         (bad ∨ 0x400000 < off + len → exec (.bulkPush a c d m) s =
           .next (settle (report (noted s a .lms 0 (0x0D0 + 32 * c) (withField d 1 0 1)) .lms 0 0x1408 (0x0D0 + 32 * c) 1))) ∧
         (bad ∨ 0x10000 < len → exec (.bulkFetch a c d) s =
           .next (settle (report (noted s a .lms 0 (0x0D0 + 32 * c) (withField d 1 0 2)) .lms 0 0x1408 (0x0D0 + 32 * c) 1)))) ∧
  (∀ (s : State) (a : Acc) (c : Nat) (d w : Word) (m : Option Bytes), c < 4 → served s a .lms 0 (0x0D0 + 32 * c) = true → bulk
       s c ≠ none → w = withField d 1 0 1 →
       exec (.bulkPush a c d m) s = .next (settle (busLog (noted s a .lms 0 (0x0D0 + 32 * c) w) a true (reg .lms 0 (0x0D0 + 32 * c)) 4 w .busy))) ∧
  (∀ (s : State) (c : Nat), running s (.bulk c) = true →
       exec (.bulkProgressTimeout c) s = .next (settle (bulkEnd (expired s (.bulk c)) c 0x140A)))

/-- R434, R435, R437, R441, R443 to R446, R448: the claim of a unit of a pair, from its request to its end.  The cryptography of a grant is
  PRESUMED as assumption log 4 says; that the hold-off and the handshake are latched per claim is the model's (assumption log 98), and so
  is that a grant waits while TBCLK is lost (log 119). -/
def Obligations.ClaimsAndLeases : Prop :=
  (∀ (s : State) (c e fl : Nat), pairUp s = true → s.tbLoss = false →
       exec (.claimLinkFrame c e fl false) s = .next (settle (rcount s (reg .pair 0 0x07C) 31 16 1))) ∧
  (∀ (s : State) (c e fl : Nat) (b : Bool), (pairUp s = false ∨ s.tbLoss = true) →
       exec (.claimLinkFrame c e fl b) s = .next (settle s)) ∧
  (∀ (s : State) (c e fl : Nat), pairUp s = true → s.tbLoss = false →
       exec (.claimLinkFrame c e fl true) s = .next (settle (
         let t := rcount s (reg .pair 0 0x07C) 15 0 1
         let t := tset { t with pair := { s.pair with fresh := true, peerClaim := c, peerFlags := fl } } .clStale 201
         let t := if s.pair.fresh then t else irq t .pair 0 10
         let t := if t.reconciling then { t with pair := { t.pair with claimSeen := max t.pair.claimSeen c } }
           else if counter t 133 < c then (pairCount t true 133 c).1 else t
         pairEval (if t.pair.claim ≠ 0 ∧ e = t.pair.claim ∧ fl % 2 = 0 then { t with pair := { t.pair with mayDrive := true } } else t)))) ∧
  (∀ (s : State), running s .clStale = true →
       exec .claimLinkStale s = .next (settle (
         let t := expired s .clStale
         pairEval (irq { t with pair := { t.pair with fresh := false } } .pair 0 10)))) ∧
  (∀ (s : State),
       pairEval s = if sameSideTie s then endClaim (irq (report s .pair 0 0x150E 0 3) .pair 0 11) 2
         else if s.pair.claim ≠ 0 ∧ s.pair.claim < peerClaim s then endClaim s 2 else followRule s) ∧
  (∀ (s u : State) (x : Nat), s.pair.claim ≠ 0 → paired s = true → u = endClaim s x →
       u.pair.claim = 0 ∧ u.pair.mayDrive = false ∧ tget u .lease = none ∧ tget u .holdoff = none ∧
         mval u 6 = sha512 (mval s 6 ++ sha512 (claimRecord s false x s.pair.claim)) ∧ rbit u (reg .pair 0 0x010) 4 = true ∧
         driving u = false) ∧
  (∀ (s t : State) (a : Acc) (d : Word), served s a .pair 0 0x058 = true → t = noted s a .pair 0 0x058 (withField d 1 0 1) →
       exec (.pairReqRenew a d) s = .next (settle (
         if fld d 31 16 ≠ 0xA5C3 then report t .pair 0 0x150C 0x058 1
         else if paired s = false then report t .pair 0 0x1501 0x058 1 else pairRequest t 1))) ∧
  (∀ (s t : State) (a : Acc) (d : Word), served s a .pair 0 0x058 = true → t = noted s a .pair 0 0x058 (withField d 1 0 2) →
       exec (.pairReqClaim a d) s = .next (settle (
         if fld d 31 16 ≠ 0xA5C3 then report t .pair 0 0x150C 0x058 1
         else if paired s = false then report t .pair 0 0x1501 0x058 1 else pairRequest t 2))) ∧
  (∀ (s : State) (k : Nat), witnessMode s = false →
       rbytes (pairRequest s k) (reg .pair 0 0x060) 4 = (List.range 16).map (fun i => Config.freeByte (s.fresh + i)) ∧
         rbit (pairRequest s k) (reg .pair 0 0x05C) 16 = true ∧ rbit (pairRequest s k) (reg .pair 0 0x05C) 17 = false ∧
         tget (pairRequest s k) .pairReq = some 1000000000 ∧ rbit (pairRequest s k) (reg .pair 0 0x010) 0 = true ∧
         (rget (pairRequest s k) (reg .pair 0 0x070)).toNat = s.tbTime % 2 ^ 32) ∧
  (∀ (s : State) (k : Nat) (b : Bytes), witnessMode s = true → (b = (List.range 16).map (fun i => Config.freeByte (s.fresh +
       i))) →
       pairRequest s k = (
         let t := rsetBytes (draw s 16).2 (reg .pair 0 0x060) 4 b
         let t := rset (rset t (reg .pair 0 0x070) (BitVec.ofNat 32 s.tbTime)) (reg .pair 0 0x074) (BitVec.ofNat 32 (s.tbTime / 2 ^ 32))
         let t := tset (rsetf (rsetb t (reg .pair 0 0x05C) 16 true) (reg .pair 0 0x05C) 17 17 0) .pairReq 1000000000
         sendFrame t (rfld s (reg .pair 0 0x044) 13 8) 0x50 (leBytes 1 1 ++ leBytes 1 k ++ leBytes 1 (if pairSide s = 2 then 1 else 0) ++ [0] ++
           leBytes 4 s.pair.claim ++ b ++ leBytes 8 s.tbTime ++ devidPub s ++ leBytes 2 s.incarnation ++ [0, 0]))) ∧
  (∀ (s : State), running s .pairReq = true →
       exec .requestExpiry s = .next (settle (rsetb (expired s .pairReq) (reg .pair 0 0x05C) 16 false))) ∧
  (∀ (s t : State) (a : Acc) (d : Word), served s a .pair 0 0x130 = true → t = noted s a .pair 0 0x130 (d ||| 1) →
       exec (.pairGrantGo a d) s = .next (settle (
         if fld d 31 16 ≠ 0xA5C3 then report t .pair 0 0x150C 0x130 1
         else if s.reconciling = true ∨ s.tbLoss = true then { t with pair := { t.pair with grantWaits := some 1 } }
         else grantArrives t (rbytes t (reg .pair 0 0x0A0) 36) 1))) ∧
  (∀ (s t : State) (o : Nat) (g : Bytes), t = rsetf s (reg .pair 0 0x05C) 20 18 (fieldLe g 6 1) →
       grantArrives s g o = (
         match grantBad t g with
         | some code => irq (report (rsetf t (reg .pair 0 0x05C) 15 0 code) .pair 0 code (if o = 1 then 0x130 else 0) o) .pair 0 2
         | none => applyGrant (irq (tstop (rsetb (rsetb (rsetf t (reg .pair 0 0x05C) 15 0 0) (reg .pair 0 0x05C) 16 false)
             (reg .pair 0 0x05C) 17 true) .pairReq) .pair 0 1) g)) ∧
  (∀ (s t : State) (x : Nat) (f : Frame17), isNext s x f = true → f.type = 0x50 → f.payload.take 1 = [3] → f.payload.length =
       148 → t = rsetBytes (inOrder s x f) (reg .pair 0 0x0A0) 36 (f.payload.drop 4) →
       exec (.grantFrame x f) s = .next (settle (afterFrame s f (
         if t.reconciling = true ∨ t.tbLoss = true then { t with pair := { t.pair with grantWaits := some 3 } }
         else grantArrives t (rbytes t (reg .pair 0 0x0A0) 36) 3)))) ∧
  (∀ (s : State) (g : Bytes), fieldLe g 6 1 = 1 →
       applyGrant s g = tset { s with pair := { s.pair with lease := fieldLe g 0x40 4 } } .lease (reqTime s + 100 * fieldLe g 0x40 4 - s.tbTime)) ∧
  (∀ (s : State) (g : Bytes) (c h : Nat), fieldLe g 6 1 = 2 → c = fieldLe g 8 4 → h = fieldLe g 0x44 4 →
       applyGrant s g = (
         let one (t : State) (r : Bool × Nat × Nat) : State := (pairCount t r.1 r.2.1 r.2.2).1
         let t := one (one s (true, 132, c)) (true, 133, peerClaim s)
         let t := if (fieldLe g 7 1).testBit 2 then one t (false, 134, 0) else t
         let t := if (fieldLe g 7 1).testBit 1 then one t (false, 135, 0) else t
         let t := { t with pair := { t.pair with claim := c, mayDrive := decide (h = 0), lease := fieldLe g 0x40 4 } }
         let t := tset (tstop t .holdoff) .lease (reqTime s + 100 * fieldLe g 0x40 4 - s.tbTime)
         let t := if h = 0 then t else tset t .holdoff (100 * h)
         pairEval (hwExtend t 6 (claimRecord t true (fieldLe g 7 1) c)))) ∧
  (∀ (s u : State) (g : Bytes), fieldLe g 6 1 = 2 → fieldLe g 0x44 4 = 0 → s.pair.fresh = false → 0 < fieldLe g 8 4 → u =
       applyGrant s g →
       u.pair.claim = fieldLe g 8 4 ∧ u.pair.mayDrive = true ∧ u.pair.lease = fieldLe g 0x40 4 ∧ tget u .holdoff = none) ∧
  (∀ (s : State) (g : Bytes),
       (fieldLe g 6 1 = 3 → applyGrant s g = endClaim s 4) ∧
         (fieldLe g 6 1 = 4 → applyGrant s g = (pairCount s true 136 (counter s 134)).1)) ∧
  (∀ (s : State), running s .lease = true →  exec .leaseExpiry s = .next (settle (endClaim (expired s .lease) 1))) ∧
  (∀ (s : State), running s .holdoff = true →
       exec .holdoffEnd s = .next (settle (
         let t := expired s .holdoff
         pairEval { t with pair := { t.pair with mayDrive := true } })))

/-- R450 to R452, R454: what a unit of a pair does beside its claim. -/
def Obligations.PairBeatsAndHealth : Prop :=
  (∀ (s : State), running s .beatSend = true →
       exec .pairBeatSend s = .next (settle (
         let t := expired s .beatSend
         let b := leBytes 1 (pairState t) ++ leBytes 1 (linkFlags t) ++ zeros 2 ++ leBytes 4 s.pair.claim
         let u := sendFrame t (peerNode s) 0x51 b
         tset (if witnessMode u then sendFrame u (rfld u (reg .pair 0 0x044) 13 8) 0x51 b else u) .beatSend 1000))) ∧
  (∀ (s t : State) (x : Nat) (f : Frame17), reaches s x f = true → f.type = 0x51 → t = frameTaken s x f →
       exec (.pairBeat x f) s = .next (settle (ringNote s (
         let u := if paired t = true ∧ f.src = peerNode t then
             tset (tstop { t with pair := { t.pair with beatsLost := false, peerNode := f.src } } .claimAgain) .beatPeer
               (1000 * rfld t (reg .pair 0 0x044) 23 16)
           else t
         if rbit t (reg .pair 0 0x044) 6 = false then u
         else if u.pair.wbeats.any fun e => decide (e.1 = f.src) then
           { u with pair := { u.pair with wbeats := u.pair.wbeats.map fun e => if e.1 = f.src then (f.src, u.tbTime) else e } }
         else if u.pair.wbeats.length < 16 then { u with pair := { u.pair with wbeats := u.pair.wbeats ++ [(f.src, u.tbTime)] } }
         else u)))) ∧
  (∀ (s t : State), running s .beatPeer = true → s.pair.claim = 0 → rbit s (reg .pair 0 0x044) 14 = true → t = expired s
       .beatPeer →
       exec .beatTimeout s = .next (settle (
         tset (pairRequest (irq { t with pair := { t.pair with beatsLost := true } } .pair 0 9) 2) .claimAgain 10000000))) ∧
  (∀ (s t : State), running s .beatPeer = true → (s.pair.claim ≠ 0 ∨ rbit s (reg .pair 0 0x044) 14 = false) → t = expired s
       .beatPeer →  exec .beatTimeout s = .next (settle (irq { t with pair := { t.pair with beatsLost := true } } .pair 0 9))) ∧
  (∀ (s t : State), running s .claimAgain = true → t = expired s .claimAgain →
       exec .claimRequestRepeat s = .next (settle (
         if s.pair.claim = 0 ∧ s.pair.beatsLost = true ∧ rbit s (reg .pair 0 0x044) 14 = true then tset (pairRequest t 2) .claimAgain 10000000 else t))) ∧
  (∀ (s t : State), running s .health = true → t = expired s .health →
       exec .healthReportTimer s = .next (settle (
         let u := rsetBytes t (reg .pair 0 0x400) 64 (healthReport t)
         let v := if witnessMode u then sendFrame u (rfld u (reg .pair 0 0x044) 13 8) 0x50 ([2, 0, 0, 0] ++ healthReport t) else irq u .pair 0 0
         tset v .health (100000 * (10 * rfld v (reg .pair 0 0x044) 31 24))))) ∧
  (∀ (s t : State) (a : Acc), served s a .pair 0 0x144 = true → t = noted s a .pair 0 0x144 1 →
       exec (.pairHealthCtrl a) s = .next (settle (
         if paired s = false then report t .pair 0 0x1501 0x144 1
         else
           let u := rsetBytes t (reg .pair 0 0x400) 64 (healthReport t)
           if witnessMode u then sendFrame u (rfld u (reg .pair 0 0x044) 13 8) 0x50 ([2, 0, 0, 0] ++ healthReport t) else irq u .pair 0 0))) ∧
  (∀ (s t : State) (a : Acc) (d : Word), served s a .pair 0 0x078 = true → t = noted s a .pair 0 0x078 d →
       exec (.pairWarm a d) s = .next (settle (
         if fld d 31 16 ≠ 0xA5C3 then report t .pair 0 0x150C 0x078 1
         else (List.range s.part.ports).foldl (fun u n =>
           if bit d n = true ∧ portOn u n = true ∧ (port u n).st.deciding = true then setPort u n { port u n with warm := warmList u n } else u) t))) ∧
  (∀ (s : State) (n cs fa : Nat) (d : Bytes) (b : Option Bool), (portOn s n = false ∨ pairUp s = false ∨ driving s = true) →
       exec (.snoopedFlashCommand n ⟨cs, fa⟩ d b) s = .next (settle s)) ∧
  (∀ (s u : State) (n cs fa : Nat) (d : Bytes) (b : Option Bool), portOn s n = true → pairUp s = true → driving s = false → u =
       (match b with | some x => setPort s n { port s n with cs0Busy := x } | none => s) →
       exec (.snoopedFlashCommand n ⟨cs, fa⟩ d b) s = .next (settle (snoopAll n 64 (
         let seen := ((List.range d.length).map fun i => (snoopKey cs (fa + i), d.getD i 0)).filter fun e =>
           (wanted u n).any fun r => decide (snoopKey r.1 r.2.1 ≤ e.1) && decide (e.1 < snoopKey r.1 r.2.1 + r.2.2)
         let keep := seen.foldl (fun t e => Tbl.set (fun _ => (none : Option Byte)) t e.1 (some e.2)) (port u n).snoop
         setPort u n { port u n with snoop := keep })))) ∧
  (∀ (s : State) (n k : Nat),
       snoopAll n 0 s = s ∧ snoopAll n (k + 1) s = (match snoopServe s n with | some u => snoopAll n k u | none => s)) ∧
  (∀ (s : State) (n fa : Nat) (d : Bytes) (p : Port), portOn s n = true → pairUp s = true → driving s = false → p = port s n →
       p.warm = [(fa, d.length)] → 0 < d.length → p.leafReqs = [] → p.blocks = [] → p.refills = [] → p.seq = .idle → p.snoop = []
       → fa + d.length < 2 ^ 32 → (flashLane s).isSome = true → s.jobs = [] → p.st ≠ .recovering →
       completes (.snoopedFlashCommand n ⟨0, fa⟩ d none) s fun u => (port u n).warm = [] ∧ (port u n).snoop = [] ∧ u.regs = s.regs)

/-- R449, R453, R454, R458: mirroring at both ends, and the witness. -/
def Obligations.PairMirrorAndWitness : Prop :=
  (∀ (s t : State) (a : Acc) (d w : Word) (k n : Nat), served s a .pair 0 0x134 = true → w = d ||| 0x80000000 → t = noted s a
       .pair 0 0x134 w → k = fld d 7 0 → n = fld d 16 8 →
       exec (.mirrorSend a d) s = .next (settle (
         if s.pair.mtxBusy ≠ none then busLog t a true (reg .pair 0 0x134) 4 w .busy
         else if pairState s = 0x66 ∧ 1 ≤ n ∧ n ≤ 256 ∧ (k = 1 ∨ (0x10 ≤ k ∧ k ≤ 0x1F)) then
           let b := (rbytes t (reg .pair 0 0x200) 64).take n
           sendFrame { t with pair := { t.pair with mtxBusy := some t.pair.mtxSeq, mtxSeq := (t.pair.mtxSeq + 1) % 2 ^ 32 } } (peerNode t) 0x50
             (leBytes 1 4 ++ leBytes 1 k ++ leBytes 2 b.length ++ leBytes 4 t.pair.mtxSeq ++ b)
         else irq (rsetf (report t .pair 0 0x150D 0x134 1) (reg .pair 0 0x138) 31 16 0x150D) .pair 0 6))) ∧
  (∀ (s t : State) (x c : Nat) (f : Frame17) (d : Bytes), isNext s x f = true → f.type = 0x50 → f.payload.take 2 = [4, 1] → t =
       inOrder s x f → mirrorParse t f.src f.payload = some (1, d) → d.length = 16 → allZero (sliceZ d 1 7) = true → c = fieldLe
       d 0 1 → 4 ≤ c → c ≤ 67 →
       exec (.mirrorCounter x f) s = .next (settle (afterFrame s f (
         let u := { t with pair := { t.pair with applies := t.pair.applies ++ [(c, fieldLe d 8 8)] } }
         if u.locked then u
         else u.pair.applies.foldl (fun u e =>
           let o : CstOp := ⟨.port ((e.1 - 4) / 4), true, e.1, e.2⟩
           if u.cstOps.any fun q => decide (q = o) then u else { u with cstOps := u.cstOps ++ [o] }) u)))) ∧
  (∀ (s t : State) (x c : Nat) (f : Frame17) (d : Bytes), isNext s x f = true → f.type = 0x50 → f.payload.take 2 = [4, 1] → t =
       inOrder s x f → mirrorParse t f.src f.payload = some (1, d) → c = fieldLe d 0 1 → (d.length ≠ 16 ∨ allZero (sliceZ d 1 7)
       = false ∨ c < 4 ∨ 67 < c) →
       exec (.mirrorCounter x f) s = .next (settle (afterFrame s f (
         if d.length ≠ 16 ∨ allZero (sliceZ d 1 7) = false ∨ 8 ≤ t.pair.mrx.length then report t .pair 0 0x150D 0 3
         else irq { t with pair := { t.pair with mrx := t.pair.mrx ++ [(1, d)] } } .pair 0 5)))) ∧
  (∀ (s t : State) (x n : Nat) (f : Frame17) (d r : Bytes), isNext s x f = true → f.type = 0x50 → f.payload.take 2 = [4, 2] → t
       = inOrder s x f → mirrorParse t f.src f.payload = some (2, d) → n = fieldLe d 0 1 → r = sliceZ d 4 80 →
       exec (.mirrorQuarantine x f) s = .next (settle (afterFrame s f (
         if d.length ≠ 84 ∨ allZero (sliceZ d 1 3) = false ∨ portOn t n = false then report t .pair 0 0x150D 0 3
         else if (port t n).st = .held ∨ (port t n).st = .quarantined then t
         else failedWith t n (fieldLe r 0 2) (fieldLe r 2 1) (fieldLe r 3 1) (fieldLe r 4 4) (fieldLe r 8 4) r)))) ∧
  (∀ (s t : State) (x k : Nat) (f : Frame17) (d : Bytes), isNext s x f = true → f.type = 0x50 → k < 16 → f.payload.take 2 = [4,
       BitVec.ofNat 8 (0x10 + k)] → t = inOrder s x f → mirrorParse t f.src f.payload = some (0x10 + k, d) →
       exec (.mirrorFirmwareRecord k x f) s = .next (settle (afterFrame s f (
         if 8 ≤ t.pair.mrx.length then report t .pair 0 0x150D 0 3
         else irq { t with pair := { t.pair with mrx := t.pair.mrx ++ [(0x10 + k, d)] } } .pair 0 5)))) ∧
  (∀ (s t : State) (x k : Nat) (f : Frame17), isNext s x f = true → f.type = 0x50 → t = inOrder s x f → mirrorParse t f.src
       f.payload = none →
       let u := settle (afterFrame s f (report t .pair 0 0x150D 0 3));
         (f.payload.take 2 = [4, 1] → exec (.mirrorCounter x f) s = .next u) ∧ (f.payload.take 2 = [4, 2] → exec (.mirrorQuarantine x f) s = .next u) ∧
         (k < 16 → f.payload.take 2 = [4, BitVec.ofNat 8 (0x10 + k)] → exec (.mirrorFirmwareRecord k x f) s = .next u)) ∧
  (∀ (s t : State) (a : Acc), served s a .pair 0 0x140 = true → t = noted s a .pair 0 0x140 1 →
       exec (.pairMrxPop a) s = .next (settle (
         if s.pair.mrx = [] then busLog t a true (reg .pair 0 0x140) 4 1 .busy else { t with pair := { t.pair with mrx := t.pair.mrx.drop 1 } }))) ∧
  (∀ (s t u : State) (x : Nat) (f : Frame17), isNext s x f = true → f.type = 0x50 → t = inOrder s x f → u = (if rbit t (reg
       .pair 0 0x044) 6 = false then t else if 4 ≤ t.pair.win.length then report t .pair 0 0x150F 0 3 else irq
       { t with pair := { t.pair with win := t.pair.win ++ [(f.src, f.payload.take 264)] } } .pair 0 7) →
       (f.payload.take 1 = [1] → exec (.pairRequest x f) s = .next (settle (afterFrame s f u))) ∧
         (f.payload.take 1 = [2] → exec (.pairHealthReport x f) s = .next (settle (afterFrame s f u)))) ∧
  (∀ (s t : State) (a : Acc), served s a .pair 0 0x14C = true → t = noted s a .pair 0 0x14C 1 →
       exec (.pairWinPop a) s = .next (settle (
         if s.pair.win = [] then busLog t a true (reg .pair 0 0x14C) 4 1 .busy else { t with pair := { t.pair with win := t.pair.win.drop 1 } }))) ∧
  (∀ (s t : State) (a : Acc) (d w : Word) (n : Nat), served s a .pair 0 0x150 = true → w = d ||| 0x80000000 → t = noted s a
       .pair 0 0x150 w → n = fld d 5 0 →
       exec (.pairWoutSend a d) s = .next (settle (
         if s.pair.woutBusy ≠ none then busLog t a true (reg .pair 0 0x150) 4 w .busy
         else if rbit s (reg .pair 0 0x044) 6 = false ∨ n = myNode s then
           irq (rsetf (report t .pair 0 0x150F 0x150 1) (reg .pair 0 0x154) 31 16 0x150F) .pair 0 8
         else sendFrame { t with pair := { t.pair with woutBusy := some n } } n 0x50 ([3, 0, 0, 0] ++ rbytes t (reg .pair 0 0x700) 36))))

/-- R462, R476, R477: the hub's own input and the switched domains.  That a switch-off takes effect when it is handled and a switch-on at its
  end is the model's reading (assumption log 101). -/
def Obligations.PowerDomainSwitches : Prop :=
  (∀ (s : State) (n : Nat) (up : Bool), n < s.part.ports → (port s n).preq = !up → s.tbLoss = false → s.rst ≠ .por →
       exec (.preqChange n up) s = .next (settle (
         let t := setPort s n { port s n with preq := up }
         let b := if up then 16 + n else n
         if pageUp t .evh 0 = false then t
         else if rbit s (reg .evh 0 0x048) b then irq t .evh 0 0 else rsetb t (reg .evh 0 0x048) b true))) ∧
  (∀ (s : State) (n : Nat) (up : Bool), (s.part.ports ≤ n ∨ (port s n).preq = up ∨ s.tbLoss = true ∨ s.rst = .por) →
       exec (.preqChange n up) s = .next (settle s)) ∧
  (∀ (s t : State) (a : Acc) (d : Word) (differ bad : List Nat), served s a .pwr 0 0x044 = true → t = noted s a .pwr 0 0x044 d
       → (differ = (List.range 30).filter (fun b => bit d b != (domOn t b && bit (domainsOf t.part) b))) → (bad = differ.filter
       (fun b => !firmwareDomain b || !bit (domainsOf t.part) b)) →
       exec (.pwrDomainEnWrite a d) s = .next (settle (
         if s.pwr.sw ≠ [] then busLog t a true (reg .pwr 0 0x044) 4 d .busy
         else
           let u := bad.foldl (fun u _ => report u .pwr 0 0x0308 0x044 1) t
           let u := rset u (reg .pwr 0 0x044) (((d &&& ~~~ 0x10F00000) ||| 0x10F00000) &&& domainsOf u.part)
           switchNext u ((differ.filter fun b => !bad.contains b).map fun b => (b, bit d b))))) ∧
  (∀ (s : State) (b : Nat) (rest : List (Nat × Bool)),
       switchNext s [] = { s with pwr := { s.pwr with sw := [] } } ∧
         switchNext s ((b, true) :: rest) = { s with pwr := { s.pwr with sw := (b, true) :: rest } } ∧
         switchNext s ((b, false) :: rest) = if mayOff s b then { domainOff s b with pwr := { s.pwr with sw := (b, false) :: rest } }
           else switchNext (report s .pwr 0 0x0309 0x044 1) rest) ∧
  (∀ (s : State) (a : Acc) (d stored : Word), takes s a .pwr 0 0x044 d = true → s.pwr.sw = [] → stored = ((d &&& ~~~
       0x10F00000) ||| 0x10F00000) &&& domainsOf s.part → ((∀ b, b < 30 → bit d b = (domOn s b && bit (domainsOf s.part) b))) →
       exec (.pwrDomainEnWrite a d) s = .next (settle { rset s (reg .pwr 0 0x044) stored with pwr := { s.pwr with sw := [] } })) ∧
  (∀ (s t : State) (a : Acc) (d : Word) (b : Nat), takes s a .pwr 0 0x044 d = true → s.pwr.sw = [] → firmwareDomain b = true →
       b < 30 → bit (domainsOf s.part) b = true → domOn s b = true → ((∀ k, k < 30 → bit d k = (decide (k ≠ b) && domOn s k &&
       bit (domainsOf s.part) k))) → t = rset s (reg .pwr 0 0x044) (((d &&& ~~~ 0x10F00000) ||| 0x10F00000) &&& domainsOf s.part)
       →
       exec (.pwrDomainEnWrite a d) s = .next (settle (
         if mayOff t b then { domainOff t b with pwr := { s.pwr with sw := [(b, false)] } }
         else { report t .pwr 0 0x0309 0x044 1 with pwr := { s.pwr with sw := [] } }))) ∧
  (∀ (s : State) (a : Acc) (d stored : Word) (b : Nat), takes s a .pwr 0 0x044 d = true → s.pwr.sw = [] → firmwareDomain b =
       false → b < 30 → bit (domainsOf s.part) b = true → domOn s b = true → ((∀ k, k < 30 → bit d k = (decide (k ≠ b) && domOn s
       k && bit (domainsOf s.part) k))) → stored = ((d &&& ~~~ 0x10F00000) ||| 0x10F00000) &&& domainsOf s.part →
       exec (.pwrDomainEnWrite a d) s = .next (settle (
         { rset (report s .pwr 0 0x0308 0x044 1) (reg .pwr 0 0x044) stored with pwr := { s.pwr with sw := [] } }))) ∧
  (∀ (s : State) (b : Nat) (on : Bool) (rest : List (Nat × Bool)), s.pwr.sw = (b, on) :: rest →
       exec .domainSwitchDone s = .next (settle (
         let t := switchNext (if on then domainOn s b else s) rest
         if t.pwr.sw = [] then irq t .pwr 0 2 else t))) ∧
  (∀ (s : State) (b : Nat), b < 30 →  domOn (domainOff s b) b = false ∧ domOn (domainOn s b) b = true)

/-- R482 to R489: the states of PWR_STATUS and what moves between them.  That the wake takes 6,000 cycles and that the cores' halt is a
  command of its own are the model's (assumption log 102). -/
def Obligations.RestEntryAndWake : Prop :=
  (∀ (s t : State) (a : Acc) (d : Word), served s a .pwr 0 0x04C = true → t = noted s a .pwr 0 0x04C (withField d 1 0 1) →
       exec (.restEnter a d) s = .next (settle (
         let no (code : Nat) : State := irq (report (rsetf t (reg .pwr 0 0x040) 31 16 code) .pwr 0 code 0x04C 1) .pwr 0 1
         if fld d 31 16 ≠ 0xA5C3 then no 0x0301
         else match restBad t with
           | some code => no code
           | none => rsetf { t with pwr := { t.pwr with seen := activeSources t } } (reg .pwr 0 0x040) 2 0 1))) ∧
  (∀ (s : State),
       restBad s = (
         if rbit s (reg .rom 0 0x054) 31 = false then some 0x0301
         else if pwrState s ≠ 0 then some 0x0306
         else if portsHeld s = false then some 0x0302
         else if s.jobs ≠ [] ∨ bulkBusy s = true ∨ (List.range 65).any (fun i => decide (remoteItems s i ≠ 0)) = true then some 0x0303
         else if s.fus.isSome ∨ s.cstOps ≠ [] ∨ s.bf.isSome ∨ s.svc.session = true ∨ pushOpen s = true then some 0x0304
         else if (activeSources s).any (routedToCore s) = true ∨ rget s (reg .evh 0 0x048) ≠ 0 then some 0x0305
         else none)) ∧
  (∀ (s t : State) (a : Acc) (d : Word), served s a .pwr 0 0x04C = true → t = noted s a .pwr 0 0x04C (withField d 1 0 2) →
       exec (.restCancel a d) s = .next (settle (
         if fld d 31 16 ≠ 0xA5C3 then irq (report (rsetf t (reg .pwr 0 0x040) 31 16 0x0301) .pwr 0 0x0301 0x04C 1) .pwr 0 1
         else if pwrState t = 1 then rsetf (rsetf t (reg .pwr 0 0x040) 2 0 0) (reg .pwr 0 0x040) 10 8 7 else t))) ∧
  (∀ (s : State),
       exec .restCoresHalted s = .next (settle (
         if pwrState s = 1 ∧ bit s.halted 0 = false ∧ (List.range 3).any (fun q => dillRuns s q && bit s.halted (q + 1)) = false then
           rsetf { s with pwr := { s.pwr with off := s.domOff } } (reg .pwr 0 0x040) 2 0 2
         else s))) ∧
  (∀ (s : State), pwrState s = 2 →
       exec .restEntered s = .next (settle (
         let t := domsOff { s with pwr := { s.pwr with since := s.tbTime } } (domainsOf s.part &&& 0x007FFFFF)
         let t := rcount (rsetf t (reg .pwr 0 0x040) 2 0 3) (reg .pwr 0 0x054) 15 0 1
         let n := (rget s (reg .pwr 0 0x050)).toNat
         if n = 0 then t else tset t .wake (100 * n)))) ∧
  (∀ (s : State) (b : Nat), pwrState s = 2 → b < 23 → bit (domainsOf s.part) b = true →
       completes .restEntered s fun u => domOn u b = false ∧ pwrState u = 3) ∧
  (∀ (s : State), running s .wake = true →  exec .wakeTimer s = .next (settle (wakeSource (expired s .wake) 5))) ∧
  (∀ (s : State) (c : Nat),
       wakeSource s c = (
         let starts (t : State) : State :=
           tset (tstop { rsetf t (reg .pwr 0 0x040) 2 0 4 with pwr := { s.pwr with cause := c } } .wake) .wakeDone 6000
         let abandoned (t : State) : State := irq (report (rsetf (rcount t (reg .pwr 0 0x054) 31 16 1) (reg .pwr 0 0x040) 31 16 0x0307)
           .pwr 0 0x0307 0 0) .pwr 0 1
         match pwrState s with
         | 1 => abandoned (rsetf (rsetf s (reg .pwr 0 0x040) 2 0 0) (reg .pwr 0 0x040) 10 8 c)
         | 2 => abandoned (starts s)
         | 3 => starts (rset s (reg .pwr 0 0x058) (BitVec.ofNat 32 (min ((s.tbTime - s.pwr.since) / 100) 0xFFFFFFFF)))
         | _ => s)) ∧
  (∀ (s : State), running s .wakeDone = true →
       exec .wakeComplete s = .next (settle (
         let t := expired s .wakeDone
         irq (rsetf (backToRun t) (reg .pwr 0 0x040) 10 8 t.pwr.cause) .pwr 0 0))) ∧
  (∀ (s : State),
       (backToRun s).domOff = s.pwr.off ∧ pwrState (backToRun s) = 0 ∧ (backToRun s).sram = s.sram ∧ (backToRun s).frames = s.frames ∧
         (backToRun s).kslots = s.kslots)

/-- R14: an access of another size or alignment than a naturally aligned 32-bit word: a read returns zero, a write has no effect, and
  either one is recorded in the bus error log and does nothing else. -/
def Obligations.WrongSizedAccesses : Prop :=
  (∀ (s t : State) (a : Acc) (off size : Nat) (d : Word) (inp : BusIn), silent s a = false → off < 0x1000000 → (size ≠ 4 ∨ off
       % 4 ≠ 0) → t = wakeByHost (coreStores s inp) a →
       ∃ c, writeCause t a off size = some c ∧ exec (.registerWrite a off size d inp) s = .next (settle (busLog t a true off size d c))) ∧
  (∀ (s t : State) (a : Acc) (off size : Nat), silent s a = false → off < 0x1000000 → (size ≠ 4 ∨ off % 4 ≠ 0) → t = wakeByHost
       s a →
       ∃ c, readCause t a off size = some c ∧ busRead a off size .clean s = emit (busLog t a false off size 0 c) (.bus a.master off 0))

/-- R69: a reserved page reads zero at every offset, ignores writes and records each access with cause 0x3; the remote aperture holds no
  local page. -/
def Obligations.ReservedPages : Prop :=
  (∀ (s t u : State) (a : Acc) (off size : Nat) (d : Word) (inp : BusIn), silent s a = false → off < 0x1000000 → pageOf off =
       .reserved → t = wakeByHost (coreStores s inp) a → u = wakeByHost s a →
       exec (.registerWrite a off size d inp) s = .next (settle (busLog t a true off size d .reserved)) ∧
         busRead a off size .clean s = emit (busLog u a false off size 0 .reserved) (.bus a.master off 0) ∧ Cause.reserved.code = 3) ∧
  (∀ (off : Nat) (k : PageKind) (i : Nat), 0xC00000 ≤ off → off < 0x1000000 →  pageOf off = .aperture ∧ pageOf off ≠ .page k i)

/-- The invariant of the model's memories: each lists its keys strictly rising and lists no entry equal to what an unlisted key reads as,
  so that equal contents are equal data; every step keeps it (the form is the model's choice, assumption log 1). -/
def Obligations.MemoriesStayCanonical : Prop :=
  ∀ (s t : State), memoriesWf s = true → step s = .next t →  memoriesWf t = true

/-- R303, R305: programming only ever sets fuse bits, at READ and at STRICT, through every command, reset and supply failure; and a bit
  that reads 1 at STRICT reads 1 at READ, which is kept by every step.  What a sense reads of a bit that has passed no verify is free
  (R304, assumption log 111); this statement is about the array. -/
def Obligations.FuseBitsNeverRevert : Prop :=
  (∀ (s t : State) (w : Nat), step s = .next t →
       fuseRead s w &&& ~~~ fuseRead t w = 0 ∧ fuseStrict s w &&& ~~~ fuseStrict t w = 0) ∧
  (∀ (s t : State), step s = .next t → (∀ w, fuseStrict s w &&& ~~~ fuseRead s w = 0) →
       ∀ w, fuseStrict t w &&& ~~~ fuseRead t w = 0)

/-- R318, R320, R321: no operation, reset, interruption or reconcile lowers a counter's value.  The premise says of the copies what R320
  and R321 leave: a reconcile would take no value below the counter's.  A counter that has lost both copies is excepted: R323 gives
  it the value 0 only where it has no verified value. -/
def Obligations.CountersNeverFall : Prop :=
  ∀ (s t : State), countersWf s → step s = .next t →
      countersWf t ∧ ∀ c, (ctrLost s c → ctrLost t c) ∧ (counter s c ≤ counter t c ∨ ctrLost t c)

/-- The model's queue is first in, first out: whatever command a step runs, what waited behind it still waits, in the same order; and the
  part number never changes. -/
def Obligations.QueueFirstInFirstOut : Prop :=
  ∀ (s t : State), step s = .next t →  t.pending = s.pending.tail ∧ t.part = s.part

/-- State.reset meets the invariants, and holds the reset values of R254, R318, R378 and R478.  Which part it is, its straps and what its
  fuses hold are the model's choice (assumption log 7). -/
def Obligations.ResetMeetsTheInvariants : Prop :=
  ∀ (n i k w c : Nat),
      memoriesWf State.reset = true ∧ countersWf State.reset ∧ State.reset.pending = [] ∧ State.reset.rst = .none ∧
        fuseStrict State.reset w &&& ~~~ fuseRead State.reset w = 0 ∧ counter State.reset c = 0 ∧
        (inst State.reset i).st = .none ∧ (port State.reset n).st = .held ∧ (kslot State.reset k).st = .empty ∧
        State.reset.domOff = 0 ∧ rget State.reset (reg .pwr 0 0x044) = 0x3FFFFFFF ∧ rfld State.reset (reg .rom 0 0x040) 3 0 = 1 ∧
        State.reset.tbTime = 0 ∧ State.reset.jobs = [] ∧ State.reset.sram = []
end

