-- ==== Sys2Proof/Laws/Tables.lean ====
section
/-! SUPPORT. Laws/Tables.lean: the laws of the sparse table: what a key reads after a write, and that every operation keeps the
canonical form. -/
namespace Sys2Proof

variable {α : Type}

theorem Tbl.get_erase_same (d : Nat → α) (t : Tbl α) (k : Nat) : Tbl.get d (t.erase k) k = d k := by
  induction t with
  | nil => rfl
  | cons e t ih =>
    obtain ⟨j, v⟩ := e
    by_cases h : j = k
    · simpa [Tbl.erase, List.filter, h] using ih
    · have hb : (j != k) = true := by simpa using h
      simp only [Tbl.erase, List.filter, hb, Tbl.get] at ih ⊢
      simpa [Ne.symm h] using ih

theorem Tbl.get_erase_other (d : Nat → α) (t : Tbl α) {k i : Nat} (h : i ≠ k) :
    Tbl.get d (t.erase k) i = Tbl.get d t i := by
  induction t with
  | nil => rfl
  | cons e t ih =>
    obtain ⟨j, v⟩ := e
    by_cases hj : j = k
    · subst hj
      simp only [Tbl.erase, List.filter, bne_self_eq_false, Tbl.get] at ih ⊢
      simpa [h] using ih
    · have hb : (j != k) = true := by simpa using hj
      simp only [Tbl.erase, List.filter, hb, Tbl.get] at ih ⊢
      split
      · rfl
      · exact ih

theorem Tbl.get_insert (d : Nat → α) (t : Tbl α) (k i : Nat) (v : α) (hk : i = k → ∀ e ∈ t, e.1 ≠ k) :
    Tbl.get d (t.insert k v) i = if i = k then v else Tbl.get d t i := by
  induction t with
  | nil => rfl
  | cons e t ih =>
    obtain ⟨j, w⟩ := e
    have ih' := ih fun h e he => hk h e (List.mem_cons_of_mem _ he)
    unfold Tbl.insert
    split
    · rfl
    · simp only [Tbl.get]
      by_cases hi : i = k
      · subst hi
        have : i ≠ j := fun h => hk rfl (j, w) List.mem_cons_self h.symm
        simp only [this, if_false, if_true] at ih' ⊢
        exact ih'
      · simp only [hi, if_false] at ih' ⊢
        rw [ih']

theorem Tbl.erase_keys (t : Tbl α) (k : Nat) : ∀ e ∈ t.erase k, e.1 ≠ k := by
  intro e he
  have := (List.mem_filter.mp he).2
  simpa using this

/-- What a key reads after a write: the value written at its key, what it read before at every other. -/
theorem Tbl.get_set [DecidableEq α] (d : Nat → α) (t : Tbl α) (k i : Nat) (v : α) :
    Tbl.get d (t.set d k v) i = if i = k then v else Tbl.get d t i := by
  unfold Tbl.set
  split
  next h =>
    by_cases hi : i = k
    · subst hi; simp [Tbl.get_erase_same, h]
    · simp [Tbl.get_erase_other d t hi, hi]
  next h =>
    rw [Tbl.get_insert d _ k i v fun _ => Tbl.erase_keys t k]
    split
    · rfl
    next hi => exact Tbl.get_erase_other d t hi

@[simp] theorem Tbl.get_set_same [DecidableEq α] (d : Nat → α) (t : Tbl α) (k : Nat) (v : α) :
    Tbl.get d (t.set d k v) k = v := by simp [Tbl.get_set]

theorem Tbl.get_set_other [DecidableEq α] (d : Nat → α) (t : Tbl α) {k i : Nat} (v : α) (h : i ≠ k) :
    Tbl.get d (t.set d k v) i = Tbl.get d t i := by simp [Tbl.get_set, h]

theorem Tbl.get_clearRange (d : Nat → α) (t : Tbl α) (lo hi i : Nat) :
    Tbl.get d (t.clearRange lo hi) i = if lo ≤ i ∧ i < hi then d i else Tbl.get d t i := by
  induction t with
  | nil => simp [Tbl.clearRange, Tbl.get]
  | cons e t ih =>
    obtain ⟨j, v⟩ := e
    by_cases hj : lo ≤ j ∧ j < hi
    · have : (!(decide (lo ≤ j) && decide (j < hi))) = false := by simp [hj.1, hj.2]
      simp only [Tbl.clearRange, List.filter, this, Tbl.get] at ih ⊢
      rw [ih]
      by_cases hi' : i = j
      · subst hi'; simp [hj]
      · simp [hi']
    · have : (!(decide (lo ≤ j) && decide (j < hi))) = true := by
        simp only [Bool.not_eq_true', Bool.and_eq_false_iff, decide_eq_false_iff_not]; omega
      simp only [Tbl.clearRange, List.filter, this, Tbl.get] at ih ⊢
      rw [ih]
      by_cases hi' : i = j
      · subst hi'; simp [hj]
      · simp [hi']

/-! ### The canonical form -/

theorem Tbl.sortedFrom_weaken {t : Tbl α} {i j : Nat} (h : Tbl.sortedFrom (some j) t = true) (hij : i ≤ j) :
    Tbl.sortedFrom (some i) t = true := by
  cases t with
  | nil => rfl
  | cons e t =>
    obtain ⟨k, v⟩ := e
    simp only [Tbl.sortedFrom, Bool.and_eq_true, decide_eq_true_eq] at h ⊢
    exact ⟨by omega, h.2⟩

theorem Tbl.sortedFrom_none {t : Tbl α} {i : Nat} (h : Tbl.sortedFrom (some i) t = true) :
    Tbl.sortedFrom none t = true := by
  cases t with
  | nil => rfl
  | cons e t =>
    obtain ⟨k, v⟩ := e
    simp only [Tbl.sortedFrom, Bool.and_eq_true] at h ⊢
    exact h.2

theorem Tbl.sortedFrom_filter (p : Nat × α → Bool) : ∀ (t : Tbl α) (o : Option Nat),
    Tbl.sortedFrom o t = true → Tbl.sortedFrom o (t.filter p) = true := by
  intro t
  induction t with
  | nil => intro o h; exact h
  | cons e t ih =>
    obtain ⟨j, v⟩ := e
    intro o h
    have hj : Tbl.sortedFrom (some j) t = true := by
      cases o with
      | none => simpa [Tbl.sortedFrom] using h
      | some i => simp only [Tbl.sortedFrom, Bool.and_eq_true] at h; exact h.2
    simp only [List.filter]
    split
    · cases o with
      | none => simpa [Tbl.sortedFrom] using ih (some j) hj
      | some i =>
        simp only [Tbl.sortedFrom, Bool.and_eq_true] at h ⊢
        exact ⟨h.1, ih (some j) hj⟩
    · cases o with
      | none => exact Tbl.sortedFrom_none (ih (some j) hj)
      | some i =>
        simp only [Tbl.sortedFrom, Bool.and_eq_true, decide_eq_true_eq] at h
        exact Tbl.sortedFrom_weaken (ih (some j) hj) (Nat.le_of_lt h.1)

theorem Tbl.sortedFrom_insert (k : Nat) (v : α) : ∀ (t : Tbl α) (o : Option Nat), (∀ e ∈ t, e.1 ≠ k) →
    (∀ i, o = some i → i < k) → Tbl.sortedFrom o t = true → Tbl.sortedFrom o (t.insert k v) = true := by
  intro t
  induction t with
  | nil =>
    intro o _ ho _
    cases o with
    | none => rfl
    | some i => simpa [Tbl.insert, Tbl.sortedFrom] using ho i rfl
  | cons e t ih =>
    obtain ⟨j, w⟩ := e
    intro o hk ho h
    have hjk : j ≠ k := hk (j, w) List.mem_cons_self
    have hj : Tbl.sortedFrom (some j) t = true := by
      cases o with
      | none => simpa [Tbl.sortedFrom] using h
      | some i => simp only [Tbl.sortedFrom, Bool.and_eq_true] at h; exact h.2
    unfold Tbl.insert
    split
    next hlt =>
      cases o with
      | none => simp [Tbl.sortedFrom, hlt, hj]
      | some i => simp [Tbl.sortedFrom, hlt, hj, ho i rfl]
    next hlt =>
      have hr := ih (some j) (fun e he => hk e (List.mem_cons_of_mem _ he)) (fun i hi => by cases hi; omega) hj
      cases o with
      | none => simpa [Tbl.sortedFrom] using hr
      | some i =>
        simp only [Tbl.sortedFrom, Bool.and_eq_true] at h ⊢
        exact ⟨h.1, hr⟩

theorem Tbl.noDefault_filter [DecidableEq α] (d : Nat → α) (p : Nat × α → Bool) (t : Tbl α)
    (h : t.noDefault d = true) : Tbl.noDefault d (t.filter p) = true := by
  simp only [Tbl.noDefault, List.all_eq_true] at h ⊢
  intro e he
  exact h e (List.mem_filter.mp he).1

theorem Tbl.mem_insert {t : Tbl α} {k : Nat} {v : α} {e : Nat × α} (h : e ∈ t.insert k v) : e = (k, v) ∨ e ∈ t := by
  induction t with
  | nil => simpa [Tbl.insert] using h
  | cons f t ih =>
    obtain ⟨j, w⟩ := f
    unfold Tbl.insert at h
    split at h
    · simpa [or_comm, or_left_comm] using h
    · rcases List.mem_cons.mp h with h | h
      · exact .inr (h ▸ List.mem_cons_self)
      · exact (ih h).imp id (List.mem_cons_of_mem _)

theorem Tbl.wf_filter [DecidableEq α] (d : Nat → α) (p : Nat × α → Bool) (t : Tbl α) (h : t.wf d = true) :
    Tbl.wf d (t.filter p) = true := by
  simp only [Tbl.wf, Bool.and_eq_true] at h ⊢
  exact ⟨Tbl.sortedFrom_filter p t none h.1, Tbl.noDefault_filter d p t h.2⟩

@[simp] theorem Tbl.wf_nil [DecidableEq α] (d : Nat → α) : Tbl.wf d ([] : Tbl α) = true := rfl

/-- Clearing a range keeps the canonical form. -/
theorem Tbl.wf_clearRange [DecidableEq α] (d : Nat → α) (t : Tbl α) (lo hi : Nat) (h : t.wf d = true) :
    Tbl.wf d (t.clearRange lo hi) = true := Tbl.wf_filter d _ t h

/-- Erasing a key keeps the canonical form. -/
theorem Tbl.wf_erase [DecidableEq α] (d : Nat → α) (t : Tbl α) (k : Nat) (h : t.wf d = true) :
    Tbl.wf d (t.erase k) = true := Tbl.wf_filter d _ t h

/-- A write keeps the canonical form. -/
theorem Tbl.wf_set [DecidableEq α] (d : Nat → α) (t : Tbl α) (k : Nat) (v : α) (h : t.wf d = true) :
    Tbl.wf d (t.set d k v) = true := by
  unfold Tbl.set
  split
  · exact Tbl.wf_erase d t k h
  next hv =>
    have he := Tbl.wf_erase d t k h
    simp only [Tbl.wf, Bool.and_eq_true] at he ⊢
    refine ⟨Tbl.sortedFrom_insert k v _ none (Tbl.erase_keys t k) (fun _ h => nomatch h) he.1, ?_⟩
    simp only [Tbl.noDefault, List.all_eq_true] at he ⊢
    intro e hm
    rcases Tbl.mem_insert hm with rfl | hm
    · simpa using hv
    · exact he.2 e hm

/-- Storing bytes keeps the canonical form. -/
theorem memWrite_wf : ∀ (bs : Bytes) (m : Tbl Byte) (a : Nat), m.wf zeroByte = true →
    (memWrite m a bs).wf zeroByte = true := by
  intro bs
  induction bs with
  | nil => intro m a h; exact h
  | cons b t ih => intro m a h; exact ih _ _ (Tbl.wf_set zeroByte m a b h)

/-- Read after write of a byte memory: the bytes stored at their addresses, every other byte as before. -/
theorem memWrite_get : ∀ (bs : Bytes) (m : Tbl Byte) (a i : Nat),
    Tbl.get zeroByte (memWrite m a bs) i =
      if a ≤ i ∧ i < a + bs.length then bs.getD (i - a) 0 else Tbl.get zeroByte m i := by
  intro bs
  induction bs with
  | nil =>
    intro m a i
    have : ¬ (a ≤ i ∧ i < a + ([] : Bytes).length) := by
      simp only [List.length_nil]; omega
    simp only [memWrite, this, if_false]
  | cons b t ih =>
    intro m a i
    simp only [memWrite, ih, List.length_cons]
    by_cases h : i = a
    · subst h
      have h1 : ¬ (i + 1 ≤ i ∧ i < i + 1 + t.length) := by omega
      have h2 : i ≤ i ∧ i < i + (t.length + 1) := by omega
      simp [h1]
    · by_cases h2 : a + 1 ≤ i ∧ i < a + 1 + t.length
      · have h3 : a ≤ i ∧ i < a + (t.length + 1) := by omega
        have h4 : i - a = (i - (a + 1)) + 1 := by omega
        simp [h2, h3, h4]
      · have h3 : ¬ (a ≤ i ∧ i < a + (t.length + 1)) := by omega
        rw [if_neg h2, if_neg h3, Tbl.get_set, if_neg h]

end Sys2Proof
end

