-- ==== Sys2Proof/Laws/KeepsBase.lean ====
section
/-! SUPPORT. Laws/KeepsBase.lean: what no operation of the machine does: change the part, touch the command queue, break a memory's
canonical form, clear a fuse bit or lower a counter.  `Keeps a s` says that it has not happened between `a` and `s`; one lemma
per operation says that the operation keeps it. -/
namespace Sys2Proof.Machine

/-- Between `a` and `s` the part and the command queue are the same, no memory has lost its canonical form, no fuse bit has reverted, and
no counter has fallen but one whose two copies are lost. -/
structure Keeps (a s : State) : Prop where
  part : s.part = a.part
  pending : s.pending = a.pending
  mem : memoriesWf a = true → memoriesWf s = true
  fuseR : ∀ w, fuseRead a w &&& ~~~ fuseRead s w = 0
  fuseS : ∀ w, fuseStrict a w &&& ~~~ fuseStrict s w = 0
  fuseSub : (∀ w, fuseStrict a w &&& ~~~ fuseRead a w = 0) → ∀ w, fuseStrict s w &&& ~~~ fuseRead s w = 0
  ctr : countersWf a → countersWf s ∧ (∀ c, ctrLost a c → ctrLost s c) ∧ ∀ c, counter a c ≤ counter s c ∨ ctrLost s c

theorem Keeps.refl (a : State) : Keeps a a :=
  ⟨rfl, rfl, id, fun _ => BitVec.and_not_self _, fun _ => BitVec.and_not_self _, id, fun h => ⟨h, fun _ h => h, fun _ => .inl (Nat.le_refl _)⟩⟩

/-- Bits that are never lost from `x` to `y` nor from `y` to `z` are not lost from `x` to `z`. -/
theorem bits_trans {x y z : Word} (h1 : x &&& ~~~ y = 0) (h2 : y &&& ~~~ z = 0) : x &&& ~~~ z = 0 := by
  ext i hi
  have a := congrArg (fun v => v.getLsbD i) h1
  have b := congrArg (fun v => v.getLsbD i) h2
  simp [hi] at a b ⊢
  exact b ∘ a

theorem Keeps.trans {a s t : State} (h : Keeps a s) (k : Keeps s t) : Keeps a t where
  part := k.part.trans h.part
  pending := k.pending.trans h.pending
  mem := k.mem ∘ h.mem
  fuseR w := bits_trans (h.fuseR w) (k.fuseR w)
  fuseS w := bits_trans (h.fuseS w) (k.fuseS w)
  fuseSub := k.fuseSub ∘ h.fuseSub
  ctr w := by
    obtain ⟨w1, l1, c1⟩ := h.ctr w
    obtain ⟨w2, l2, c2⟩ := k.ctr w1
    refine ⟨w2, fun c hc => l2 c (l1 c hc), fun c => ?_⟩
    rcases c1 c with h1 | h1
    · rcases c2 c with h2 | h2
      · exact .inl (Nat.le_trans h1 h2)
      · exact .inr h2
    · exact .inr (l2 c h1)

/-- A change of state that touches none of what `Keeps` speaks of. -/
theorem Keeps.same {a s t : State} (h : Keeps a s) (h1 : t.part = s.part) (h2 : t.pending = s.pending) (h3 : t.fuseR = s.fuseR)
    (h4 : t.fuseS = s.fuseS) (h5 : t.regs = s.regs) (h6 : t.sram = s.sram) (h7 : t.bootSram = s.bootSram)
    (h8 : t.dillMem = s.dillMem) (h9 : t.ctr = s.ctr) (h10 : t.torn = s.torn) (h11 : t.ctrFailed = s.ctrFailed)
    (h12 : t.fuseU = s.fuseU) : Keeps a t := by
  refine h.trans ⟨h1, h2, ?_, ?_, ?_, ?_, ?_⟩
  · simp only [memoriesWf, h3, h4, h5, h6, h7, h8, h9, h12]; exact id
  · intro w; simp only [fuseRead, h3]; exact BitVec.and_not_self _
  · intro w; simp only [fuseStrict, h4]; exact BitVec.and_not_self _
  · simp only [fuseRead, fuseStrict, h3, h4]; exact id
  · simp only [countersWf, ctrLost, counter, h9, h10, h11]
    exact fun h => ⟨h, fun _ h => h, fun _ => .inl (Nat.le_refl _)⟩

/-- A change of the memories alone that keeps their canonical form. -/
theorem Keeps.mems {a s t : State} (h : Keeps a s) (h1 : t.part = s.part) (h2 : t.pending = s.pending) (h3 : t.fuseR = s.fuseR)
    (h4 : t.fuseS = s.fuseS) (h12 : t.fuseU = s.fuseU) (h9 : t.ctr = s.ctr) (h10 : t.torn = s.torn) (h11 : t.ctrFailed = s.ctrFailed)
    (h5 : Tbl.wf resetValue s.regs = true → Tbl.wf resetValue t.regs = true)
    (h6 : Tbl.wf zeroByte s.sram = true → Tbl.wf zeroByte t.sram = true)
    (h7 : Tbl.wf zeroByte s.bootSram = true → Tbl.wf zeroByte t.bootSram = true)
    (h8 : Tbl.wf zeroByte s.dillMem = true → Tbl.wf zeroByte t.dillMem = true) : Keeps a t := by
  refine h.trans ⟨h1, h2, ?_, ?_, ?_, ?_, ?_⟩
  · simp only [memoriesWf, h3, h4, h9, h12, Bool.and_eq_true]
    rintro ⟨⟨⟨⟨⟨⟨⟨w1, w2⟩, w3⟩, w4⟩, w5⟩, w6⟩, w7⟩, w8⟩
    exact ⟨⟨⟨⟨⟨⟨⟨h5 w1, h6 w2⟩, h7 w3⟩, h8 w4⟩, w5⟩, w6⟩, w7⟩, w8⟩
  · intro w; simp only [fuseRead, h3]; exact BitVec.and_not_self _
  · intro w; simp only [fuseStrict, h4]; exact BitVec.and_not_self _
  · simp only [fuseRead, fuseStrict, h3, h4]; exact id
  · simp only [countersWf, ctrLost, counter, h9, h10, h11]
    exact fun h => ⟨h, fun _ h => h, fun _ => .inl (Nat.le_refl _)⟩

theorem keeps_ite {c : Prop} [Decidable c] {a s t : State} (h1 : Keeps a s) (h2 : Keeps a t) : Keeps a (if c then s else t) := by
  split <;> assumption
theorem keeps_foldl {β : Type} {a s : State} {g : State → β → State} {l : List β} (h : Keeps a s)
    (hg : ∀ s x, Keeps a s → Keeps a (g s x)) : Keeps a (l.foldl g s) := by
  induction l generalizing s with
  | nil => exact h
  | cons x t ih => exact ih (hg s x h)
theorem keeps_foldl1 {β γ : Type} {a : State} {p : State × γ} {g : State × γ → β → State × γ} {l : List β} (h : Keeps a p.1)
    (hg : ∀ p x, Keeps a p.1 → Keeps a (g p x).1) : Keeps a (l.foldl g p).1 := by
  induction l generalizing p with
  | nil => exact h
  | cons x t ih => exact ih (hg p x h)
theorem keepsR_foldl1 {β γ : Type} {a : State} {p : RomRun × γ} {g : RomRun × γ → β → RomRun × γ} {l : List β} (h : Keeps a p.1.s)
    (hg : ∀ p x, Keeps a p.1.s → Keeps a (g p x).1.s) : Keeps a (l.foldl g p).1.s := by
  induction l generalizing p with
  | nil => exact h
  | cons x t ih => exact ih (hg p x h)
theorem keeps_fst {β : Type} {a s : State} {x : β} {e : State × β} (he : e = (s, x)) (h : Keeps a e.1) : Keeps a s := by
  rw [he] at h; exact h
theorem keeps_fst3 {β γ : Type} {a s : State} {x : β} {y : γ} {e : State × β × γ} (he : e = (s, x, y)) (h : Keeps a e.1) : Keeps a s := by
  rw [he] at h; exact h
theorem keeps_fst4 {β γ δ : Type} {a s : State} {x : β} {y : γ} {z : δ} {e : State × β × γ × δ} (he : e = (s, x, y, z)) (h : Keeps a e.1) : Keeps a s := by
  rw [he] at h; exact h
theorem keeps_fst5 {β γ δ ε : Type} {a s : State} {x : β} {y : γ} {z : δ} {w : ε} {e : State × β × γ × δ × ε} (he : e = (s, x, y, z, w)) (h : Keeps a e.1) : Keeps a s := by
  rw [he] at h; exact h
theorem keepsR_fst {β : Type} {a : State} {x : RomRun} {y : β} {e : RomRun × β} (he : e = (x, y)) (h : Keeps a e.1.s) : Keeps a x.s := by
  rw [he] at h; exact h
theorem keeps_snd {β : Type} {a s : State} {x : β} {e : β × State} (he : e = (x, s)) (h : Keeps a e.2) : Keeps a s := by
  rw [he] at h; exact h
theorem keeps_done {a s t : State} (h : Keeps a (settle s)) (he : done s = .next t) : Keeps a t := by
  cases he; exact h
/-- A record update of the fields that `Keeps` does not speak of. -/
theorem keeps_mk {a s : State} (h : Keeps a s) {v1 v8 v45 v48 v54 v64 v79 : Nat} {v2 : List Out} {v4 : RstPhase}
    {v5 : List (Timer × Nat)} {v7 v55 : Tbl Bool} {v9 v10 v11 v20 v26 v36 v50 v51 v62 v75 v78 v80 : Bool} {v13 : Tbl Port}
    {v14 : Tbl Frame} {v15 : List (Nat × Nat)} {v16 v37 v41 v44 : Word} {v17 : PwrSt} {v18 : Option DlyRun}
    {v19 v61 v73 v76 v82 v83 v84 : List Nat} {v21 : Tbl (Bytes × Nat)} {v22 : List CstOp} {v29 : Tbl Word} {v30 : Option FusRun}
    {v31 : PairSt} {v32 : TemSt} {v33 : SageSt} {v38 : Option BfRun} {v39 : SvcSt} {v40 : I3cSt}
    {v42 : Option (Nat × Option Nat)} {v43 : List (Acc × Nat × Word)} {v46 v47 v56 : Bytes} {v49 : Tbl KSlot}
    {v52 : Option Bytes} {v53 : Tbl Job} {v57 v66 : Tbl Nat} {v58 : Tbl Inst} {v59 : List ItuEnt} {v60 : List Prg}
    {v63 : List (Nat × Nat × Nat × Nat)} {v65 : List (Nat × Option Nat)} {v67 : Tbl Side} {v68 : Tbl Peer} {v69 : Option Topo}
    {v70 : List RaReq} {v71 : Tbl (Option Bulk)} {v72 : List (Nat × Nat × Word)} {v74 : List (List (Nat × Nat) × Nat)}
    {v77 : Tbl PciFn} {v81 : Tbl MsixEnt} {v85 : Option (ResetRank × Nat)} {v86 : Nat} {v87 : List Nat} {v89 : Bool} :
    Keeps a { s with fresh := v1, out := v2, rst := v4, timers := v5, rwoUsed := v7, tbTime := v8, tbLoss := v9, tbLocked := v10, xinCmos := v11, ports := v13, frames := v14, writeBacks := v15, domOff := v16, pwr := v17, dly := v18, instRst := v19, locked := v20, meas := v21, cstOps := v22, reconciling := v26, fuseSh := v29, fus := v30, pair := v31, tem := v32, sage := v33, bootLock := v36, pushLen := v37, bf := v38, svc := v39, i3c := v40, halted := v41, twdHeld := v42, twdLate := v43, twdNew := v44, tapIr := v45, boundary := v46, token := v47, tamperDue := v48, kslots := v49, ladder := v50, scrubDirty := v51, fwRec := v52, jobs := v53, jobOrd := v54, phases := v55, ctxKey := v56, wrr := v57, insts := v58, itu := v59, prgs := v60, prgStale := v61, fqPhase := v62, issued := v63, incarnation := v64, prgWait := v65, aesBytes := v66, sides := v67, peers := v68, topo := v69, raReqs := v70, bulks := v71, evq := v72, discOut := v73, disc := v74, isolated := v75, dups := v76, pci := v77, vfEnable := v78, numVfs := v79, ariCap := v80, msix := v81, vecs := v82, ringed := v83, coreLines := v84, hw := v85, hashTurn := v86, flashLanes := v87, lifeNew := v89 } := 
  h.same rfl rfl rfl rfl rfl rfl rfl rfl rfl rfl rfl rfl

/-! ### The operations that change a memory -/

theorem rset_keeps {a : State} (s : State) (o : Nat) (v : Word) (h : Keeps a s) : Keeps a (rset s o v) :=
  h.mems rfl rfl rfl rfl rfl rfl rfl rfl (Tbl.wf_set _ _ _ _) id id id
theorem rclear_keeps {a : State} (s : State) (lo hi : Nat) (h : Keeps a s) : Keeps a (rclear s lo hi) :=
  h.mems rfl rfl rfl rfl rfl rfl rfl rfl (Tbl.wf_clearRange _ _ _ _) id id id
theorem keeps_sram {a s : State} (h : Keeps a s) (o : Nat) (bs : Bytes) : Keeps a { s with sram := memWrite s.sram o bs } :=
  h.mems rfl rfl rfl rfl rfl rfl rfl rfl id (memWrite_wf _ _ _) id id
theorem keeps_boot {a s : State} (h : Keeps a s) (o : Nat) (bs : Bytes) : Keeps a { s with bootSram := memWrite s.bootSram o bs } :=
  h.mems rfl rfl rfl rfl rfl rfl rfl rfl id id (memWrite_wf _ _ _) id
theorem keeps_bootEmpty {a s : State} (h : Keeps a s) : Keeps a { s with bootSram := [] } :=
  h.mems rfl rfl rfl rfl rfl rfl rfl rfl id id (fun _ => rfl) id
theorem keeps_bootClear {a s : State} (h : Keeps a s) (lo hi : Nat) : Keeps a { s with bootSram := s.bootSram.clearRange lo hi } :=
  h.mems rfl rfl rfl rfl rfl rfl rfl rfl id id (Tbl.wf_clearRange _ _ _ _) id
theorem keeps_dill {a s : State} (h : Keeps a s) (o : Nat) (bs : Bytes) : Keeps a { s with dillMem := memWrite s.dillMem o bs } :=
  h.mems rfl rfl rfl rfl rfl rfl rfl rfl id id id (memWrite_wf _ _ _)
theorem keeps_dillEmpty {a s : State} (h : Keeps a s) : Keeps a { s with dillMem := [] } :=
  h.mems rfl rfl rfl rfl rfl rfl rfl rfl id id id (fun _ => rfl)
theorem bootWriteBytes_wf : ∀ (bs : List (Option Byte)) (m : Tbl Byte) (o : Nat), m.wf zeroByte = true →
    (bootWriteBytes m o bs).wf zeroByte = true := by
  intro bs
  induction bs with
  | nil => intro m o h; exact h
  | cons b t ih =>
    intro m o h
    unfold bootWriteBytes
    cases b with
    | none => exact ih m (o + 1) h
    | some v => exact ih _ (o + 1) (Tbl.wf_set _ _ _ _ h)
theorem keeps_bootBytes {a s : State} (h : Keeps a s) (o : Nat) (bs : List (Option Byte)) :
    Keeps a { s with bootSram := bootWriteBytes s.bootSram o bs } :=
  h.mems rfl rfl rfl rfl rfl rfl rfl rfl id id (bootWriteBytes_wf _ _ _) id
theorem range_zip_sorted (bs : Bytes) : ∀ (lo : Nat) (o : Option Nat), (∀ i, o = some i → i < lo) →
    Tbl.sortedFrom o ((List.range' lo bs.length).zip bs) = true := by
  induction bs with
  | nil => intro lo o _; cases o <;> rfl
  | cons b t ih =>
    intro lo o h
    simp only [List.length_cons, List.range'_succ, List.zip_cons_cons]
    cases o with
    | none => exact ih (lo + 1) (some lo) (by intro i hi; cases hi; exact Nat.lt_succ_self _)
    | some i =>
      simp only [Tbl.sortedFrom, Bool.and_eq_true, decide_eq_true_eq]
      exact ⟨h i rfl, ih (lo + 1) (some lo) (by intro i hi; cases hi; exact Nat.lt_succ_self _)⟩
theorem memOf_wf (bs : Bytes) : (memOf bs).wf zeroByte = true := by
  simp only [Tbl.wf, Bool.and_eq_true, memOf]
  refine ⟨Tbl.sortedFrom_filter _ _ none ?_, ?_⟩
  · rw [List.range_eq_range']; exact range_zip_sorted bs 0 none (by simp)
  · simp only [Tbl.noDefault, List.all_eq_true]
    intro e he
    have := (List.mem_filter.mp he).2
    simp only [decide_eq_true_eq] at this
    exact decide_eq_true this
/-- A list sorted up to keys below `m`, followed by one sorted from keys of at least `m` on, is sorted. -/
theorem sortedFrom_append {v : Type} (m : Nat) : ∀ (l r : List (Nat × v)) (o : Option Nat), Tbl.sortedFrom o l = true →
    (∀ i, o = some i → i < m) → (∀ e ∈ l, e.1 < m) → (∀ e ∈ r, m ≤ e.1) → Tbl.sortedFrom none r = true →
    Tbl.sortedFrom o (l ++ r) = true := by
  intro l
  induction l with
  | nil =>
    intro r o _ ho _ hr hs
    cases r with
    | nil => cases o <;> rfl
    | cons e t =>
      cases o with
      | none => exact hs
      | some i =>
        simp only [List.nil_append, Tbl.sortedFrom, Bool.and_eq_true, decide_eq_true_eq]
        exact ⟨Nat.lt_of_lt_of_le (ho i rfl) (hr e List.mem_cons_self), hs⟩
  | cons e t ih =>
    intro r o hs ho hl hr hrs
    have he : ∀ i, some e.1 = some i → i < m := fun i hi => by cases hi; exact hl e List.mem_cons_self
    cases o with
    | none => exact ih r (some e.1) hs he (fun x hx => hl x (List.mem_cons_of_mem _ hx)) hr hrs
    | some i =>
      simp only [List.cons_append, Tbl.sortedFrom, Bool.and_eq_true, decide_eq_true_eq] at hs ⊢
      exact ⟨hs.1, ih r (some e.1) hs.2 he (fun x hx => hl x (List.mem_cons_of_mem _ hx)) hr hrs⟩
/-- Bytes read into boot SRAM from its start leave its canonical form. -/
theorem loadBoot_wf (bs : Bytes) (m : Tbl Byte) (h : m.wf zeroByte = true) :
    Tbl.wf zeroByte (memOf bs ++ m.filter fun e => decide (bs.length ≤ e.1)) = true := by
  have hb := memOf_wf bs
  have hf := Tbl.wf_filter zeroByte (fun e => decide (bs.length ≤ e.1)) m h
  simp only [Tbl.wf, Tbl.noDefault, Bool.and_eq_true, List.all_append] at hb hf ⊢
  refine ⟨sortedFrom_append bs.length _ _ none hb.1 (by simp) ?_ ?_ hf.1, hb.2, hf.2⟩
  · intro e he
    have := List.of_mem_zip (List.mem_filter.mp he).1
    exact List.mem_range.mp this.1
  · intro e he
    exact of_decide_eq_true (List.mem_filter.mp he).2
theorem loadBoot_keeps {a : State} (s : State) (bs : Bytes) (h : Keeps a s) : Keeps a (loadBoot s bs) :=
  h.mems rfl rfl rfl rfl rfl rfl rfl rfl id id (loadBoot_wf bs _) id
theorem keeps_fuseU {a s : State} (h : Keeps a s) (w : Nat) (u : Word) :
    Keeps a { s with fuseU := Tbl.set (fun _ => (0 : Word)) s.fuseU w u } := by
  refine h.trans ⟨rfl, rfl, ?_, fun _ => BitVec.and_not_self _, fun _ => BitVec.and_not_self _, id,
    fun h => ⟨h, fun _ h => h, fun _ => .inl (Nat.le_refl _)⟩⟩
  simp only [memoriesWf, Bool.and_eq_true]
  rintro ⟨⟨⟨⟨⟨⟨⟨w1, w2⟩, w3⟩, w4⟩, w5⟩, w6⟩, w7⟩, w8⟩
  exact ⟨⟨⟨⟨⟨⟨⟨w1, w2⟩, w3⟩, w4⟩, w5⟩, w6⟩, Tbl.wf_set _ _ _ _ w7⟩, w8⟩

/-! ### The fuse array -/

theorem fuseRead_setFuse (s : State) (w i : Nat) (r t : Word) :
    fuseRead (setFuse s w r t) i = if i = w then r ||| t else fuseRead s i := by
  simp only [fuseRead, setFuse, Tbl.get_set]
theorem fuseStrict_setFuse (s : State) (w i : Nat) (r t : Word) :
    fuseStrict (setFuse s w r t) i = if i = w then t else fuseStrict s i := by
  simp only [fuseStrict, setFuse, Tbl.get_set]
/-- A pulse only adds bits. -/
theorem setFuse_keeps {a : State} (s : State) (w : Nat) (r t : Word) (h : Keeps a s) :
    Keeps a (setFuse s w (fuseRead s w ||| r) (fuseStrict s w ||| t)) := by
  refine h.trans ⟨rfl, rfl, ?_, ?_, ?_, ?_, ?_⟩
  · simp only [memoriesWf, setFuse, Bool.and_eq_true]
    rintro ⟨⟨⟨⟨⟨⟨⟨w1, w2⟩, w3⟩, w4⟩, w5⟩, w6⟩, w7⟩, w8⟩
    exact ⟨⟨⟨⟨⟨⟨⟨w1, w2⟩, w3⟩, w4⟩, Tbl.wf_set _ _ _ _ w5⟩, Tbl.wf_set _ _ _ _ w6⟩, w7⟩, w8⟩
  · intro i
    rw [fuseRead_setFuse]
    split
    next hi => subst hi; ext j hj; simp; intro x y; simp [x] at y
    next => exact BitVec.and_not_self _
  · intro i
    rw [fuseStrict_setFuse]
    split
    next hi => subst hi; ext j hj; simp; intro x y; simp [x] at y
    next => exact BitVec.and_not_self _
  · intro hs i
    rw [fuseRead_setFuse, fuseStrict_setFuse]
    split
    next hi => ext j hj; simp; intro x y z u; cases x <;> simp_all
    next => exact hs i
  · exact fun h => ⟨h, fun _ h => h, fun _ => .inl (Nat.le_refl _)⟩

/-! ### The counter store -/

theorem counter_setCopies (s : State) (c i v : Nat) (x : Option (Option Nat × Option Nat)) :
    counter (setCopies s c v x) i = if i = c then v else counter s i := by
  simp only [counter, setCopies, Tbl.get_set]

/-- A counter's copies are set so that a reconcile takes no value below the counter's, or are lost. -/
theorem keeps_torn {a s t : State} {c v : Nat} {x : Option (Option Nat × Option Nat)} (h : Keeps a s)
    (hp : t.part = s.part) (hq : t.pending = s.pending) (hm : memoriesWf s = true → memoriesWf t = true) (hr : t.fuseR = s.fuseR)
    (hs : t.fuseS = s.fuseS)
    (ht : t.torn = s.torn.filter (fun e => e.1 != c) ++ x.toList.map fun p => (c, p.1, p.2))
    (hc : ∀ i, counter t i = if i = c then v else counter s i)
    (hx : ∀ p, x = some p → (∀ u, reconciled p.1 p.2 = some u → v ≤ u) ∧ (reconciled p.1 p.2 = none → c ∈ t.ctrFailed))
    (hf : ∀ i, i ≠ c → i ∈ s.ctrFailed → i ∈ t.ctrFailed)
    (hv : countersWf a → countersWf s → (counter s c ≤ v ∧ ¬ ctrLost s c) ∨ x = some (none, none)) : Keeps a t := by
  refine ⟨hp.trans h.part, hq.trans h.pending, hm ∘ h.mem, ?_, ?_, ?_, fun ha => ?_⟩
  · intro w; simp only [fuseRead, hr]; exact h.fuseR w
  · intro w; simp only [fuseStrict, hs]; exact h.fuseS w
  · simp only [fuseRead, fuseStrict, hr, hs]; exact h.fuseSub
  obtain ⟨hw, hla, hca⟩ := h.ctr ha
  replace hv := hv ha
  have hlost : ∀ i, ctrLost s i → ctrLost t i := by
    intro i hi
    simp only [ctrLost, ht, List.mem_append, List.mem_filter]
    by_cases hic : i = c
    · subst hic
      rcases hv hw with ⟨_, hn⟩ | rfl
      · exact absurd hi hn
      · right; simp
    · left; exact ⟨hi, by simpa using hic⟩
  have hd : ((s.torn.filter (fun e => e.1 != c)).map (·.1)).Nodup := hw.1.sublist (List.filter_sublist.map _)
  refine ⟨⟨?_, ?_⟩, fun i hi => hlost i (hla i hi), ?_⟩
  · rw [ht]
    cases x with
    | none => simpa using hd
    | some p =>
      simp only [Option.toList_some, List.map_append, List.map_cons, List.map_nil, List.nodup_append]
      refine ⟨hd, by simp, ?_⟩
      intro i hi j hj
      simp only [List.mem_singleton] at hj
      simp only [List.mem_map, List.mem_filter] at hi
      obtain ⟨e, ⟨_, he⟩, rfl⟩ := hi
      subst hj
      simpa using he
  · intro e he
    rw [ht, List.mem_append, List.mem_filter] at he
    rcases he with ⟨he, hne⟩ | he
    · have hne' : e.1 ≠ c := by simpa using hne
      have h2 := hw.2 e he
      split at h2 <;> rename_i hrec
      · rw [hc, if_neg hne']; exact h2
      · exact hf _ hne' h2
    · cases x with
      | none => cases he
      | some p =>
        simp only [Option.toList_some, List.map_cons, List.map_nil, List.mem_singleton] at he
        subst he
        split
        next u hu => rw [hc, if_pos rfl]; exact (hx p rfl).1 u hu
        next hn => exact (hx p rfl).2 hn
  · intro i
    rcases hca i with hi | hi
    · by_cases hic : i = c
      · subst hic
        rcases hv hw with ⟨hle, _⟩ | rfl
        · left; rw [hc, if_pos rfl]; exact Nat.le_trans hi hle
        · right; simp [ctrLost, ht]
      · left; rw [hc, if_neg hic]; exact hi
    · exact .inr (hlost i hi)

theorem setCopies_keeps {a : State} {s : State} {c v : Nat} {x : Option (Option Nat × Option Nat)} (h : Keeps a s)
    (hx : ∀ p, x = some p → ∀ u, reconciled p.1 p.2 = some u → v ≤ u)
    (hv : countersWf a → countersWf s → (counter s c ≤ v ∧ ¬ ctrLost s c) ∨ x = some (none, none)) :
    Keeps a (setCopies s c v x) := by
  refine (keeps_torn h rfl rfl ?_ rfl rfl rfl (fun i => counter_setCopies s c i v x) ?_ ?_ hv)
  · simp only [memoriesWf, setCopies, Bool.and_eq_true]
    rintro ⟨⟨⟨⟨⟨⟨⟨w1, w2⟩, w3⟩, w4⟩, w5⟩, w6⟩, w7⟩, w8⟩
    exact ⟨⟨⟨⟨⟨⟨⟨w1, w2⟩, w3⟩, w4⟩, w5⟩, w6⟩, w7⟩, Tbl.wf_set _ _ _ _ w8⟩
  · intro p hp
    refine ⟨hx p hp, fun _ => ?_⟩
    subst hp
    simp only [setCopies, Option.isNone_some]
    split
    · contradiction
    · split
      next hcf => simpa using hcf
      next => simp
  · intro i hic hi
    simp only [setCopies]
    split
    · exact List.mem_filter.mpr ⟨hi, by simpa using hic⟩
    · split
      · exact hi
      · exact List.mem_append_left _ hi
/-- Setting a counter's copies leaves the entries of the other counters. -/
theorem setCopies_torn {s : State} {c v : Nat} {x : Option (Option Nat × Option Nat)} {e : Nat × Option Nat × Option Nat}
    (he : e ∈ s.torn) (hne : e.1 ≠ c) : e ∈ (setCopies s c v x).torn := by
  simp only [setCopies, List.mem_append, List.mem_filter]
  exact .inl ⟨he, by simpa using hne⟩
/-- A duplicate-free list has one entry per key. -/
theorem nodup_key {α : Type} : ∀ {l : List (Nat × α)}, (l.map (·.1)).Nodup → ∀ {c : Nat} {x y : α}, (c, x) ∈ l → (c, y) ∈ l → x = y := by
  intro l
  induction l with
  | nil => intro _ c x y hx; cases hx
  | cons e t ih =>
    intro hn c x y hx hy
    simp only [List.map_cons, List.nodup_cons, List.mem_map] at hn
    cases hx with
    | head =>
      cases hy with
      | head => rfl
      | tail _ hy => exact absurd ⟨_, hy, rfl⟩ hn.1
    | tail _ hx =>
      cases hy with
      | head => exact absurd ⟨_, hx, rfl⟩ hn.1
      | tail _ hy => exact ih hn.2 hx hy
/-- An operation that is granted is one on a counter that has not failed. -/
theorem cstBad_notFailed {s : State} {o : CstOp} (hb : cstBad s o = none) : o.ctr ∉ s.ctrFailed := by
  intro hf
  unfold cstBad at hb
  split at hb; · cases hb
  split at hb; · cases hb
  split at hb; · cases hb
  split at hb; · cases hb
  split at hb; · cases hb
  next hc => exact hc (by simpa using hf)
/-- What an operation would store is no smaller than what the counter holds. -/
theorem counter_le_cstResult (s : State) (o : CstOp) : counter s o.ctr ≤ cstResult s o := by
  unfold cstResult
  split
  · exact Nat.le_max_left _ _
  · exact Nat.le_succ _
/-- The copies of an interrupted operation let a reconcile take no value below the old one. -/
theorem cutCopies_le {t old v u : Nat} (hle : old ≤ v) {p : Option Nat × Option Nat} (h : cutCopies t old v = some p)
    (hu : reconciled p.1 p.2 = some u) : old ≤ u := by
  unfold cutCopies at h
  split at h <;> cases h <;> cases hu <;> first | exact hle | exact Nat.le_refl _ | exact Nat.le_trans hle (Nat.le_max_left _ _)
theorem cutCopies_some {t old v : Nat} {p : Option Nat × Option Nat} (h : cutCopies t old v = some p) :
    ∃ u, reconciled p.1 p.2 = some u := by
  unfold cutCopies at h
  split at h <;> cases h <;> exact ⟨_, rfl⟩

end Sys2Proof.Machine
end

