-- ==== Sys2Proof/Laws/Keeps1.lean ====
section
/-! SUPPORT. Laws/Keeps1.lean: each operation `f` of the machine keeps what `Keeps` speaks of (`f_keeps`), part 1 of 6. -/
namespace Sys2Proof.Machine

theorem setPeer_keeps {a : State} (a0 : State) (a1 : Nat) (a2 : Peer) (h : Keeps a a0) : Keeps a (setPeer a0 a1 a2) := by
  unfold setPeer
  repeat' first
    | with_reducible assumption
    | extract_lets
    | intro _
    | with_reducible apply keeps_mk

theorem learnInc_keeps {a : State} (a0 : State) (a1 : Nat) (a2 : Nat) (h : Keeps a a0) : Keeps a (learnInc a0 a1 a2) := by
  unfold learnInc
  repeat' first
    | with_reducible assumption
    | with_reducible apply setPeer_keeps
    | extract_lets
    | split
    | with_reducible apply keeps_mk

theorem setSide_keeps {a : State} (a0 : State) (a1 : Nat) (a2 : Side) (h : Keeps a a0) : Keeps a (setSide a0 a1 a2) := by
  unfold setSide
  repeat' first
    | with_reducible assumption
    | extract_lets
    | intro _
    | with_reducible apply keeps_mk

theorem rsetf_keeps {a : State} (a0 : State) (a1 : Nat) (a2 : Nat) (a3 : Nat) (a4 : Nat) (h : Keeps a a0) : Keeps a (rsetf a0 a1 a2 a3 a4) := by
  unfold rsetf
  repeat' first
    | with_reducible assumption
    | with_reducible apply rset_keeps

theorem rsetb_keeps {a : State} (a0 : State) (a1 : Nat) (a2 : Nat) (a3 : Bool) (h : Keeps a a0) : Keeps a (rsetb a0 a1 a2 a3) := by
  unfold rsetb
  repeat' first
    | with_reducible assumption
    | with_reducible apply rsetf_keeps

theorem irq_keeps {a : State} (a0 : State) (a1 : PageKind) (a2 : Nat) (a3 : Nat) (h : Keeps a a0) : Keeps a (irq a0 a1 a2 a3) := by
  unfold irq
  repeat' first
    | with_reducible assumption
    | with_reducible apply rsetb_keeps

theorem tset_keeps {a : State} (a0 : State) (a1 : Timer) (a2 : Nat) (h : Keeps a a0) : Keeps a (tset a0 a1 a2) := by
  unfold tset
  repeat' first
    | with_reducible assumption
    | extract_lets
    | intro _
    | with_reducible apply keeps_mk

theorem emit_keeps {a : State} (a0 : State) (a1 : Out) (h : Keeps a a0) : Keeps a (emit a0 a1) := by
  unfold emit
  repeat' first
    | with_reducible assumption
    | with_reducible apply keeps_mk

theorem sendHello_keeps {a : State} (a0 : State) (a1 : Nat) (h : Keeps a a0) : Keeps a (sendHello a0 a1) := by
  unfold sendHello
  repeat' first
    | with_reducible assumption
    | with_reducible apply emit_keeps
    | split

theorem discoverIn_keeps {a : State} (a0 : State) (a1 : Nat) (h : Keeps a a0) : Keeps a (discoverIn a0 a1) := by
  unfold discoverIn
  repeat' first
    | with_reducible assumption
    | with_reducible apply tset_keeps
    | split

theorem transmit_keeps {a : State} (a0 : State) (a1 : Nat) (a2 : Frame17) (h : Keeps a a0) : Keeps a (transmit a0 a1 a2) := by
  unfold transmit
  repeat' first
    | with_reducible assumption
    | with_reducible apply emit_keeps
    | extract_lets
    | with_reducible refine keeps_fst ‹_ = (_, _)› ?_
    | split
    | with_reducible apply keeps_mk

theorem tstop_keeps {a : State} (a0 : State) (a1 : Timer) (h : Keeps a a0) : Keeps a (tstop a0 a1) := by
  unfold tstop
  repeat' first
    | with_reducible assumption
    | extract_lets
    | intro _
    | with_reducible apply keeps_mk

theorem pump_keeps {a : State} (a0 : State) (a1 : Nat) (a2 : Nat) (h : Keeps a a0) : Keeps a (pump a0 a1 a2) := by
  induction a2 generalizing a0 with
  | zero => exact h
  | succ k ih =>
    unfold pump
    repeat' first
      | with_reducible apply ih
      | with_reducible assumption
      | with_reducible apply setPeer_keeps
      | with_reducible apply transmit_keeps
      | with_reducible apply tstop_keeps
      | with_reducible apply tset_keeps
      | extract_lets
      | with_reducible refine keeps_fst ‹_ = (_, _)› ?_
      | split
      | with_reducible apply keeps_mk

theorem sendFrame_keeps {a : State} (a0 : State) (a1 : Nat) (a2 : Nat) (a3 : Bytes) (h : Keeps a a0) : Keeps a (sendFrame a0 a1 a2 a3) := by
  unfold sendFrame
  repeat' first
    | with_reducible assumption
    | with_reducible apply pump_keeps
    | with_reducible apply setPeer_keeps
    | with_reducible apply tset_keeps
    | with_reducible apply transmit_keeps
    | with_reducible apply tstop_keeps
    | extract_lets
    | with_reducible refine keeps_fst ‹_ = (_, _)› ?_
    | split
    | with_reducible apply keeps_mk

theorem linkEvent_keeps {a : State} (a0 : State) (a1 : Nat) (a2 : Bool) (h : Keeps a a0) : Keeps a (linkEvent a0 a1 a2) := by
  unfold linkEvent
  repeat' first
    | with_reducible assumption
    | with_reducible apply discoverIn_keeps
    | with_reducible apply sendFrame_keeps
    | extract_lets
    | split

theorem helloIn_keeps {a : State} (a0 : State) (a1 : Nat) (a2 : Frame17) (h : Keeps a a0) : Keeps a (helloIn a0 a1 a2) := by
  unfold helloIn
  repeat' first
    | with_reducible assumption
    | with_reducible apply learnInc_keeps
    | with_reducible apply setSide_keeps
    | with_reducible apply irq_keeps
    | with_reducible apply tset_keeps
    | with_reducible apply sendHello_keeps
    | with_reducible apply linkEvent_keeps
    | with_reducible apply discoverIn_keeps
    | extract_lets
    | split
    | with_reducible apply keeps_mk

theorem report_keeps {a : State} (a0 : State) (a1 : PageKind) (a2 : Nat) (a3 : Nat) (a4 : Nat) (a5 : Nat) (h : Keeps a a0) : Keeps a (report a0 a1 a2 a3 a4 a5) := by
  unfold report
  repeat' first
    | with_reducible assumption
    | with_reducible apply rsetb_keeps
    | with_reducible apply irq_keeps
    | with_reducible apply rset_keeps
    | extract_lets
    | split

theorem restCode_keeps {a : State} (a0 : State) (a1 : Nat) (a2 : Nat) (h : Keeps a a0) : Keeps a (restCode a0 a1 a2) := by
  unfold restCode
  repeat' first
    | with_reducible assumption
    | with_reducible apply irq_keeps
    | with_reducible apply report_keeps
    | with_reducible apply rsetf_keeps
    | split

theorem rcount_keeps {a : State} (a0 : State) (a1 : Nat) (a2 : Nat) (a3 : Nat) (a4 : Nat) (h : Keeps a a0) : Keeps a (rcount a0 a1 a2 a3 a4) := by
  unfold rcount
  repeat' first
    | with_reducible assumption
    | with_reducible apply rsetf_keeps

theorem abandonRest_keeps {a : State} (a0 : State) (h : Keeps a a0) : Keeps a (abandonRest a0) := by
  unfold abandonRest
  repeat' first
    | with_reducible assumption
    | with_reducible apply restCode_keeps
    | with_reducible apply rcount_keeps

theorem setPwrState_keeps {a : State} (a0 : State) (a1 : Nat) (h : Keeps a a0) : Keeps a (setPwrState a0 a1) := by
  unfold setPwrState
  repeat' first
    | with_reducible assumption
    | with_reducible apply rsetf_keeps

theorem startWake_keeps {a : State} (a0 : State) (a1 : Nat) (h : Keeps a a0) : Keeps a (startWake a0 a1) := by
  unfold startWake
  repeat' first
    | with_reducible assumption
    | with_reducible apply tset_keeps
    | with_reducible apply tstop_keeps
    | with_reducible apply setPwrState_keeps
    | with_reducible apply keeps_mk

theorem wakeSource_keeps {a : State} (a0 : State) (a1 : Nat) (h : Keeps a a0) : Keeps a (wakeSource a0 a1) := by
  unfold wakeSource
  repeat' first
    | with_reducible assumption
    | with_reducible apply abandonRest_keeps
    | with_reducible apply rsetf_keeps
    | with_reducible apply setPwrState_keeps
    | with_reducible apply startWake_keeps
    | with_reducible apply rset_keeps
    | with_reducible refine keeps_fst ‹_ = (_, _)› ?_
    | split

theorem wakeOnLines_keeps {a : State} (a0 : State) (a1 : List Nat) (h : Keeps a a0) : Keeps a (wakeOnLines a0 a1) := by
  unfold wakeOnLines
  repeat' first
    | with_reducible assumption
    | with_reducible apply wakeSource_keeps
    | extract_lets
    | split
    | intro _
    | with_reducible apply keeps_mk

theorem setMsix_keeps {a : State} (a0 : State) (a1 : Nat) (a2 : Nat) (a3 : MsixEnt) (h : Keeps a a0) : Keeps a (setMsix a0 a1 a2 a3) := by
  unfold setMsix
  repeat' first
    | with_reducible assumption
    | extract_lets
    | intro _
    | with_reducible apply keeps_mk

theorem dropPending_keeps {a : State} (a0 : State) (a1 : Nat) (a2 : Nat) (h : Keeps a a0) : Keeps a (dropPending a0 a1 a2) := by
  unfold dropPending
  repeat' first
    | with_reducible assumption
    | with_reducible apply setMsix_keeps
    | extract_lets
    | split
    | with_reducible apply keeps_mk

theorem sendMsix_keeps {a : State} (a0 : State) (a1 : Nat) (a2 : Nat) (h : Keeps a a0) : Keeps a (sendMsix a0 a1 a2) := by
  unfold sendMsix
  repeat' first
    | with_reducible assumption
    | with_reducible apply setMsix_keeps
    | with_reducible apply emit_keeps
    | extract_lets
    | split
    | with_reducible apply keeps_mk

theorem queueEvent_keeps {a : State} (a0 : State) (a1 : Nat) (a2 : Nat) (a3 : Word) (h : Keeps a a0) : Keeps a (queueEvent a0 a1 a2 a3) := by
  unfold queueEvent
  repeat' first
    | with_reducible assumption
    | with_reducible apply irq_keeps
    | with_reducible apply rcount_keeps
    | split
    | with_reducible apply keeps_mk

theorem sendEvent_keeps {a : State} (a0 : State) (a1 : Nat) (h : Keeps a a0) : Keeps a (sendEvent a0 a1) := by
  unfold sendEvent
  repeat' first
    | with_reducible assumption
    | with_reducible apply rcount_keeps
    | with_reducible apply queueEvent_keeps
    | with_reducible apply sendFrame_keeps
    | extract_lets
    | split

theorem deliverLines_keeps {a : State} (a0 : State) (h : Keeps a a0) : Keeps a (deliverLines a0) := by
  unfold deliverLines
  repeat' first
    | with_reducible assumption
    | with_reducible apply wakeOnLines_keeps
    | with_reducible apply dropPending_keeps
    | with_reducible apply tstop_keeps
    | with_reducible apply sendMsix_keeps
    | with_reducible apply tset_keeps
    | with_reducible apply rcount_keeps
    | with_reducible apply sendEvent_keeps
    | with_reducible apply keeps_foldl
    | with_reducible apply keeps_foldl1
    | extract_lets
    | split
    | intro _
    | with_reducible apply keeps_mk

theorem settle_keeps {a : State} (a0 : State) (h : Keeps a a0) : Keeps a (settle a0) := by
  unfold settle
  repeat' first
    | with_reducible assumption
    | with_reducible apply deliverLines_keeps
    | extract_lets
    | split

theorem elapse_keeps {a : State} (a0 : State) (a1 : Nat) (h : Keeps a a0) : Keeps a (elapse a0 a1) := by
  unfold elapse
  repeat' first
    | with_reducible assumption
    | extract_lets
    | split
    | intro _
    | with_reducible apply keeps_mk

theorem fire_keeps {a s : State} {t k} (h : Keeps a s) (hk : ∀ x, Keeps a x → Keeps a (k x)) : Keeps a (fire s t k) := by
  unfold fire
  split
  · exact h
  · split
    · exact h
    · apply hk
      unfold tstop elapse
      split <;> exact h.same rfl rfl rfl rfl rfl rfl rfl rfl rfl rfl rfl rfl

theorem setPort_keeps {a : State} (a0 : State) (a1 : Nat) (a2 : Port) (h : Keeps a a0) : Keeps a (setPort a0 a1 a2) := by
  unfold setPort
  repeat' first
    | with_reducible assumption
    | extract_lets
    | intro _
    | with_reducible apply keeps_mk

theorem modPort_keeps {a : State} (a0 : State) (a1 : Nat) (a2 : Port → Port) (h : Keeps a a0) : Keeps a (modPort a0 a1 a2) := by
  unfold modPort
  repeat' first
    | with_reducible assumption
    | with_reducible apply setPort_keeps

theorem protoReset_keeps {a : State} (a0 : State) (a1 : Nat) (h : Keeps a a0) : Keeps a (protoReset a0 a1) := by
  unfold protoReset
  repeat' first
    | with_reducible assumption
    | with_reducible apply modPort_keeps
    | extract_lets
    | intro _
    | with_reducible apply keeps_mk

theorem backToRun_keeps {a : State} (a0 : State) (h : Keeps a a0) : Keeps a (backToRun a0) := by
  unfold backToRun
  repeat' first
    | with_reducible assumption
    | with_reducible apply protoReset_keeps
    | with_reducible apply setPwrState_keeps
    | with_reducible apply keeps_foldl
    | with_reducible apply keeps_foldl1
    | extract_lets
    | intro _
    | with_reducible apply keeps_mk

theorem wakeDone_keeps {a : State} (a0 : State) (h : Keeps a a0) : Keeps a (wakeDone a0) := by
  unfold wakeDone
  repeat' first
    | with_reducible assumption
    | with_reducible apply irq_keeps
    | with_reducible apply rsetf_keeps
    | with_reducible apply backToRun_keeps

theorem rsetWords_keeps {a : State} (a0 : State) (a1 : Nat) (a2 : List Word) (h : Keeps a a0) : Keeps a (rsetWords a0 a1 a2) := by
  induction a2 generalizing a0 a1 with
  | nil => exact h
  | cons b t ih =>
    unfold rsetWords
    repeat' first
      | with_reducible apply ih
      | with_reducible assumption
      | with_reducible apply rset_keeps

theorem rsetBytes_keeps {a : State} (a0 : State) (a1 : Nat) (a2 : Nat) (a3 : Bytes) (h : Keeps a a0) : Keeps a (rsetBytes a0 a1 a2 a3) := by
  unfold rsetBytes
  repeat' first
    | with_reducible assumption
    | with_reducible apply rsetWords_keeps
    | extract_lets
    | intro _

theorem draw_keeps {a : State} (a0 : State) (a1 : Nat) (h : Keeps a a0) : Keeps a (draw a0 a1).2 := by
  unfold draw
  repeat' first
    | with_reducible assumption
    | extract_lets
    | intro _
    | with_reducible apply keeps_mk

theorem newNonce_keeps {a : State} (a0 : State) (h : Keeps a a0) : Keeps a (newNonce a0) := by
  unfold newNonce
  repeat' first
    | with_reducible assumption
    | with_reducible apply rsetBytes_keeps
    | with_reducible apply draw_keeps

theorem setKslot_keeps {a : State} (a0 : State) (a1 : Nat) (a2 : KSlot) (h : Keeps a a0) : Keeps a (setKslot a0 a1 a2) := by
  unfold setKslot
  repeat' first
    | with_reducible assumption
    | extract_lets
    | intro _
    | with_reducible apply keeps_mk

theorem orphan_keeps {a : State} (a0 : State) (a1 : Nat) (h : Keeps a a0) : Keeps a (orphan a0 a1) := by
  unfold orphan
  repeat' first
    | with_reducible assumption
    | with_reducible apply setKslot_keeps
    | with_reducible apply irq_keeps
    | with_reducible apply rcount_keeps
    | extract_lets
    | split
    | with_reducible apply keeps_mk

theorem endSlot_keeps {a : State} (a0 : State) (a1 : Nat) (h : Keeps a a0) : Keeps a (endSlot a0 a1) := by
  unfold endSlot
  repeat' first
    | with_reducible assumption
    | with_reducible apply setKslot_keeps
    | extract_lets
    | split
    | with_reducible apply keeps_mk

theorem scrubVisit_keeps {a : State} (a0 : State × Nat) (a1 : Nat) (h : Keeps a a0.1) : Keeps a (scrubVisit a0 a1).1 := by
  unfold scrubVisit
  dsimp only
  repeat' first
    | with_reducible assumption
    | with_reducible apply orphan_keeps
    | with_reducible apply endSlot_keeps
    | extract_lets
    | split

theorem scrubPass_keeps {a : State} (a0 : State) (h : Keeps a a0) : Keeps a (scrubPass a0) := by
  unfold scrubPass
  dsimp only
  repeat' first
    | with_reducible assumption
    | with_reducible apply scrubVisit_keeps
    | with_reducible apply rcount_keeps
    | with_reducible apply irq_keeps
    | with_reducible apply keeps_foldl
    | with_reducible apply keeps_foldl1
    | extract_lets
    | split
    | with_reducible apply keeps_mk

theorem cstApply_keeps {a : State} (s : State) (o : CstOp) (x y : Bool) (h : Keeps a s) : Keeps a (cstApply s o x y).1 := by
  unfold cstApply
  split
  · exact h
  next hb =>
    have hnf := cstBad_notFailed hb
    have hle := counter_le_cstResult s o
    have hnl : countersWf s → ¬ ctrLost s o.ctr := fun hw hl => hnf (by simpa [reconciled] using hw.2 _ hl)
    extract_lets old v
    split
    · exact h
    · split
      · refine irq_keeps _ _ _ _ (setCopies_keeps h ?_ fun _ hw => .inl ⟨Nat.le_refl _, hnl hw⟩)
        intro p hp u hu; cases hp; cases hu; exact Nat.le_refl _
      · split
        · refine irq_keeps _ _ _ _ (setCopies_keeps h ?_ fun _ hw => .inl ⟨hle, hnl hw⟩)
          intro p hp u hu; cases hp; cases hu; exact Nat.le_refl _
        · exact setCopies_keeps h (by intro p hp; cases hp) fun _ hw => .inl ⟨hle, hnl hw⟩

theorem coreCstEnds_keeps {a : State} (a0 : State) (a1 : Nat) (a2 : Nat) (a3 : Bool) (h : Keeps a a0) : Keeps a (coreCstEnds a0 a1 a2 a3) := by
  unfold coreCstEnds
  repeat' first
    | with_reducible assumption
    | with_reducible apply rset_keeps
    | with_reducible apply irq_keeps
    | with_reducible apply report_keeps
    | extract_lets
    | split

theorem instCtrEnds_keeps {a : State} (a0 : State) (a1 : Nat) (a2 : Nat) (a3 : Bool) (h : Keeps a a0) : Keeps a (instCtrEnds a0 a1 a2 a3) := by
  unfold instCtrEnds
  repeat' first
    | with_reducible assumption
    | with_reducible apply rset_keeps
    | with_reducible apply irq_keeps
    | extract_lets

theorem sendPair_keeps {a : State} (a0 : State) (a1 : Nat) (a2 : Bytes) (h : Keeps a a0) : Keeps a (sendPair a0 a1 a2) := by
  unfold sendPair
  repeat' first
    | with_reducible assumption
    | with_reducible apply sendFrame_keeps

theorem sendMirror_keeps {a : State} (a0 : State) (a1 : Nat) (a2 : Bytes) (h : Keeps a a0) : Keeps a (sendMirror a0 a1 a2) := by
  unfold sendMirror
  repeat' first
    | with_reducible assumption
    | with_reducible apply sendPair_keeps
    | extract_lets
    | with_reducible apply keeps_mk

theorem mirrorRaise_keeps {a : State} (a0 : State) (a1 : Nat) (a2 : Nat) (h : Keeps a a0) : Keeps a (mirrorRaise a0 a1 a2) := by
  unfold mirrorRaise
  repeat' first
    | with_reducible assumption
    | with_reducible apply sendMirror_keeps
    | split

theorem modPair_keeps {a : State} (a0 : State) (a1 : PairSt → PairSt) (h : Keeps a a0) : Keeps a (modPair a0 a1) := by
  unfold modPair
  repeat' first
    | with_reducible assumption
    | with_reducible apply keeps_mk

theorem requeueApplies_keeps {a : State} (a0 : State) (h : Keeps a a0) : Keeps a (requeueApplies a0) := by
  unfold requeueApplies
  repeat' first
    | with_reducible assumption
    | with_reducible apply keeps_foldl
    | with_reducible apply keeps_foldl1
    | extract_lets
    | split
    | intro _
    | with_reducible apply keeps_mk

theorem raiseNext_keeps {a : State} (a0 : State) (a1 : Nat) (h : Keeps a a0) : Keeps a (raiseNext a0 a1) := by
  unfold raiseNext
  repeat' first
    | with_reducible assumption
    | extract_lets
    | with_reducible refine keeps_fst ‹_ = (_, _)› ?_
    | split
    | intro _
    | with_reducible apply keeps_mk

theorem cmdEnd_keeps {a : State} (a0 : State) (a1 : Nat) (a2 : Nat) (h : Keeps a a0) : Keeps a (cmdEnd a0 a1 a2) := by
  unfold cmdEnd
  repeat' first
    | with_reducible assumption
    | with_reducible apply irq_keeps
    | with_reducible apply rsetb_keeps
    | with_reducible apply rsetf_keeps
    | split

theorem endBound_keeps {a : State} (a0 : State) (a1 : Nat) (a2 : Nat) (h : Keeps a a0) : Keeps a (endBound a0 a1 a2) := by
  unfold endBound
  repeat' first
    | with_reducible assumption
    | extract_lets
    | split
    | intro _
    | with_reducible apply keeps_mk

theorem toState_keeps {a : State} (a0 : State) (a1 : Nat) (a2 : PortSt) (h : Keeps a a0) : Keeps a (toState a0 a1 a2) := by
  unfold toState
  repeat' first
    | with_reducible assumption
    | with_reducible apply setPort_keeps
    | with_reducible apply rset_keeps
    | with_reducible apply irq_keeps
    | with_reducible apply endBound_keeps
    | extract_lets
    | split
    | with_reducible apply keeps_mk

theorem setFrame_keeps {a : State} (a0 : State) (a1 : Nat) (a2 : Frame) (h : Keeps a a0) : Keeps a (setFrame a0 a1 a2) := by
  unfold setFrame
  repeat' first
    | with_reducible assumption
    | extract_lets
    | intro _
    | with_reducible apply keeps_mk

theorem mapFrames_keeps {a : State} (a0 : State) (a1 : Nat → Frame → Bool) (a2 : Frame → Frame) (h : Keeps a a0) : Keeps a (mapFrames a0 a1 a2) := by
  unfold mapFrames
  repeat' first
    | with_reducible assumption
    | with_reducible apply setFrame_keeps
    | with_reducible apply keeps_foldl
    | with_reducible apply keeps_foldl1
    | extract_lets
    | intro _

theorem freeFrames_keeps {a : State} (a0 : State) (a1 : Nat) (h : Keeps a a0) : Keeps a (freeFrames a0 a1) := by
  unfold freeFrames
  repeat' first
    | with_reducible assumption
    | with_reducible apply mapFrames_keeps
    | extract_lets
    | intro _

theorem holdPins_keeps {a : State} (a0 : State) (a1 : Nat) (h : Keeps a a0) : Keeps a (holdPins a0 a1) := by
  unfold holdPins
  repeat' first
    | with_reducible assumption
    | with_reducible apply modPort_keeps
    | extract_lets
    | intro _
    | with_reducible apply keeps_mk

theorem stopPortTimers_keeps {a : State} (a0 : State) (a1 : Nat) (h : Keeps a a0) : Keeps a (stopPortTimers a0 a1) := by
  unfold stopPortTimers
  repeat' first
    | with_reducible assumption
    | extract_lets
    | with_reducible refine keeps_fst ‹_ = (_, _)› ?_
    | split
    | intro _
    | with_reducible apply keeps_mk

theorem dropWork_keeps {a : State} (a0 : State) (a1 : Nat) (h : Keeps a a0) : Keeps a (dropWork a0 a1) := by
  unfold dropWork
  repeat' first
    | with_reducible assumption
    | with_reducible apply modPort_keeps
    | with_reducible apply stopPortTimers_keeps
    | extract_lets
    | intro _
    | with_reducible apply keeps_mk

theorem enterHeld_keeps {a : State} (a0 : State) (a1 : Nat) (h : Keeps a a0) : Keeps a (enterHeld a0 a1) := by
  unfold enterHeld
  repeat' first
    | with_reducible assumption
    | with_reducible apply toState_keeps
    | with_reducible apply freeFrames_keeps
    | with_reducible apply holdPins_keeps
    | with_reducible apply dropWork_keeps
    | with_reducible apply modPort_keeps
    | extract_lets
    | intro _
    | with_reducible apply keeps_mk

theorem extend_keeps {a : State} (a0 : State) (a1 : Nat) (a2 : Bytes) (h : Keeps a a0) : Keeps a (extend a0 a1 a2) := by
  unfold extend
  repeat' first
    | with_reducible assumption
    | extract_lets
    | intro _
    | with_reducible apply keeps_mk

theorem measureRecovery_keeps {a : State} (a0 : State) (a1 : Nat) (a2 : Nat) (h : Keeps a a0) : Keeps a (measureRecovery a0 a1 a2) := by
  unfold measureRecovery
  repeat' first
    | with_reducible assumption
    | with_reducible apply extend_keeps
    | with_reducible refine keeps_fst ‹_ = (_, _)› ?_
    | split
    | with_reducible apply keeps_mk

theorem quarantine_keeps {a : State} (a0 : State) (a1 : Nat) (a2 : Nat) (h : Keeps a a0) : Keeps a (quarantine a0 a1 a2) := by
  unfold quarantine
  repeat' first
    | with_reducible assumption
    | with_reducible apply measureRecovery_keeps
    | with_reducible apply toState_keeps
    | with_reducible apply holdPins_keeps
    | with_reducible apply dropWork_keeps
    | with_reducible apply mapFrames_keeps
    | with_reducible apply cmdEnd_keeps
    | with_reducible apply rsetf_keeps
    | extract_lets
    | split
    | intro _
    | with_reducible apply keeps_mk

theorem configFail_keeps {a : State} (a0 : State) (a1 : Nat) (a2 : Nat) (h : Keeps a a0) : Keeps a (configFail a0 a1 a2) := by
  unfold configFail
  repeat' first
    | with_reducible assumption
    | with_reducible apply cmdEnd_keeps
    | with_reducible apply enterHeld_keeps
    | with_reducible apply measureRecovery_keeps
    | with_reducible apply modPort_keeps
    | with_reducible apply toState_keeps
    | with_reducible apply dropWork_keeps
    | with_reducible apply quarantine_keeps
    | extract_lets
    | with_reducible refine keeps_fst ‹_ = (_, _)› ?_
    | split
    | intro _
    | with_reducible apply keeps_mk

theorem duReport_keeps {a : State} (a0 : State) (a1 : Nat) (h : Keeps a a0) : Keeps a (duReport a0 a1) := by
  unfold duReport
  repeat' first
    | with_reducible assumption
    | with_reducible apply report_keeps
    | split

theorem seqFail_keeps {a : State} (a0 : State) (a1 : Nat) (a2 : Nat) (h : Keeps a a0) : Keeps a (seqFail a0 a1 a2) := by
  unfold seqFail
  repeat' first
    | with_reducible assumption
    | with_reducible apply duReport_keeps
    | with_reducible apply quarantine_keeps
    | with_reducible apply configFail_keeps
    | extract_lets
    | split

theorem startRelease_keeps {a : State} (a0 : State) (a1 : Nat) (h : Keeps a a0) : Keeps a (startRelease a0 a1) := by
  unfold startRelease
  repeat' first
    | with_reducible assumption
    | with_reducible apply modPort_keeps
    | with_reducible apply tset_keeps
    | extract_lets
    | with_reducible refine keeps_fst ‹_ = (_, _)› ?_
    | split
    | intro _
    | with_reducible apply keeps_mk

theorem fillEnds_keeps {a : State} (a0 : State) (a1 : Nat) (h : Keeps a a0) : Keeps a (fillEnds a0 a1) := by
  unfold fillEnds
  repeat' first
    | with_reducible assumption
    | with_reducible apply cmdEnd_keeps
    | with_reducible apply enterHeld_keeps
    | with_reducible apply startRelease_keeps
    | with_reducible apply toState_keeps
    | with_reducible apply modPort_keeps
    | extract_lets
    | split
    | intro _
    | with_reducible apply keeps_mk

theorem needLeaf_keeps {a : State} (a0 : State) (a1 : Nat) (a2 : LeafReq) (h : Keeps a a0) : Keeps a (needLeaf a0 a1 a2) := by
  unfold needLeaf
  repeat' first
    | with_reducible assumption
    | with_reducible apply rcount_keeps
    | with_reducible apply setPort_keeps
    | extract_lets
    | with_reducible refine keeps_fst ‹_ = (_, _)› ?_
    | split
    | intro _
    | with_reducible apply keeps_mk

theorem fillFrom_keeps {a : State} (a0 : State) (a1 : Nat) (a2 : Nat) (a3 : Nat) (h : Keeps a a0) : Keeps a (fillFrom a0 a1 a2 a3) := by
  unfold fillFrom
  repeat' first
    | with_reducible assumption
    | with_reducible apply fillEnds_keeps
    | with_reducible apply modPort_keeps
    | with_reducible apply setFrame_keeps
    | with_reducible apply needLeaf_keeps
    | extract_lets
    | with_reducible refine keeps_fst ‹_ = (_, _)› ?_
    | split
    | intro _
    | with_reducible apply keeps_mk

theorem fillStart_keeps {a : State} (a0 : State) (a1 : Nat) (h : Keeps a a0) : Keeps a (fillStart a0 a1) := by
  unfold fillStart
  repeat' first
    | with_reducible assumption
    | with_reducible apply fillEnds_keeps
    | with_reducible apply fillFrom_keeps
    | with_reducible refine keeps_fst ‹_ = (_, _)› ?_
    | split

theorem treesLoaded_keeps {a : State} (a0 : State) (a1 : Nat) (h : Keeps a a0) : Keeps a (treesLoaded a0 a1) := by
  unfold treesLoaded
  repeat' first
    | with_reducible assumption
    | with_reducible apply modPort_keeps
    | with_reducible apply fillStart_keeps
    | extract_lets
    | split
    | intro _
    | with_reducible apply keeps_mk

theorem startTreeLoad_keeps {a : State} (a0 : State) (a1 : Nat) (h : Keeps a a0) : Keeps a (startTreeLoad a0 a1) := by
  unfold startTreeLoad
  repeat' first
    | with_reducible assumption
    | with_reducible apply seqFail_keeps
    | with_reducible apply irq_keeps
    | with_reducible apply treesLoaded_keeps
    | with_reducible apply modPort_keeps
    | with_reducible apply setFrame_keeps
    | with_reducible apply keeps_foldl
    | with_reducible apply keeps_foldl1
    | extract_lets
    | with_reducible refine keeps_fst ‹_ = (_, _)› ?_
    | split
    | intro _
    | with_reducible apply keeps_mk

theorem measureMan_keeps {a : State} (a0 : State) (a1 : Nat) (a2 : Manifest) (h : Keeps a a0) : Keeps a (measureMan a0 a1 a2) := by
  unfold measureMan
  repeat' first
    | with_reducible assumption
    | with_reducible apply extend_keeps
    | with_reducible apply keeps_foldl
    | with_reducible apply keeps_foldl1
    | extract_lets
    | intro _

theorem mclear_keeps {a : State} (a0 : State) (a1 : Nat) (h : Keeps a a0) : Keeps a (mclear a0 a1) := by
  unfold mclear
  repeat' first
    | with_reducible assumption
    | with_reducible apply keeps_mk

theorem clearMan_keeps {a : State} (a0 : State) (a1 : Nat) (h : Keeps a a0) : Keeps a (clearMan a0 a1) := by
  unfold clearMan
  repeat' first
    | with_reducible assumption
    | with_reducible apply mclear_keeps
    | with_reducible apply keeps_foldl
    | with_reducible apply keeps_foldl1
    | extract_lets
    | intro _

theorem flipSides_keeps {a : State} (a0 : State) (a1 : Nat) (h : Keeps a a0) : Keeps a (flipSides a0 a1) := by
  unfold flipSides
  repeat' first
    | with_reducible assumption
    | with_reducible apply modPort_keeps
    | with_reducible apply rset_keeps
    | with_reducible apply mapFrames_keeps
    | with_reducible apply extend_keeps
    | with_reducible apply startTreeLoad_keeps
    | with_reducible apply measureMan_keeps
    | with_reducible apply clearMan_keeps
    | extract_lets
    | with_reducible refine keeps_fst ‹_ = (_, _)› ?_
    | split
    | intro _
    | with_reducible apply keeps_mk

theorem flipReady_keeps {a : State} (a0 : State) (a1 : Nat) (h : Keeps a a0) : Keeps a (flipReady a0 a1) := by
  unfold flipReady
  repeat' first
    | with_reducible assumption
    | with_reducible apply flipSides_keeps
    | extract_lets
    | split

theorem portRaised_keeps {a : State} (a0 : State) (a1 : Nat) (a2 : Nat × Nat) (a3 : Bool) (h : Keeps a a0) : Keeps a (portRaised a0 a1 a2 a3) := by
  unfold portRaised
  repeat' first
    | with_reducible assumption
    | with_reducible apply raiseNext_keeps
    | with_reducible apply cmdEnd_keeps
    | with_reducible apply enterHeld_keeps
    | with_reducible apply configFail_keeps
    | with_reducible apply flipReady_keeps
    | with_reducible apply setPort_keeps
    | with_reducible apply startTreeLoad_keeps
    | extract_lets
    | with_reducible refine keeps_fst ‹_ = (_, _)› ?_
    | split
    | with_reducible apply keeps_mk

theorem tellRequester_keeps {a : State} (a0 : State) (a1 : CstOp) (a2 : Nat) (a3 : Bool) (h : Keeps a a0) : Keeps a (tellRequester a0 a1 a2 a3) := by
  unfold tellRequester
  repeat' first
    | with_reducible assumption
    | with_reducible apply coreCstEnds_keeps
    | with_reducible apply instCtrEnds_keeps
    | with_reducible apply mirrorRaise_keeps
    | with_reducible apply modPair_keeps
    | with_reducible apply requeueApplies_keeps
    | with_reducible apply portRaised_keeps
    | extract_lets
    | with_reducible refine keeps_fst ‹_ = (_, _)› ?_
    | split
    | intro _
    | with_reducible apply keeps_mk

theorem pulsed_keeps {a : State} (a0 : State) (a1 : Nat) (a2 : Word) (a3 : Word) (a4 : Word) (a5 : Word) (h : Keeps a a0) : Keeps a (pulsed a0 a1 a2 a3 a4 a5) := by
  unfold pulsed
  repeat' first
    | with_reducible assumption
    | with_reducible apply setFuse_keeps
    | with_reducible apply keeps_fuseU
    | extract_lets
    | intro _
    | with_reducible apply keeps_mk

theorem romPulses_keeps {a : State} (a0 : State) (a1 : RomEnv) (a2 : Nat) (a3 : Word) (h : Keeps a a0) : Keeps a (romPulses a0 a1 a2 a3).1 := by
  unfold romPulses
  repeat' first
    | with_reducible assumption
    | with_reducible apply pulsed_keeps
    | extract_lets
    | with_reducible refine keeps_fst ‹_ = (_, _)› ?_
    | split
    | intro _

theorem romSteps_keeps {a : State} (a0 : RomEnv) (a1 : List FusStep) (a2 : State) (h : Keeps a a2) : Keeps a (romSteps a0 a1 a2).1 := by
  induction a1 generalizing a2 with
  | nil => exact h
  | cons b t ih =>
    unfold romSteps
    repeat' first
      | with_reducible apply ih
      | with_reducible assumption
      | with_reducible apply romPulses_keeps
      | with_reducible apply keeps_foldl
      | with_reducible apply keeps_foldl1
      | extract_lets
      | with_reducible refine keeps_fst ‹_ = (_, _)› ?_
      | with_reducible refine keeps_fst3 ‹_ = (_, _, _)› ?_
      | with_reducible refine keeps_fst4 ‹_ = (_, _, _, _)› ?_
      | with_reducible refine keeps_fst5 ‹_ = (_, _, _, _, _)› ?_
      | with_reducible refine keeps_snd ‹_ = (_, _)› ?_
      | split
      | intro _
      | with_reducible apply keeps_mk

theorem bfOut_keeps {a : State} (a0 : State) (a1 : Nat) (a2 : Nat) (a3 : Nat) (a4 : Bytes) (h : Keeps a a0) : Keeps a (bfOut a0 a1 a2 a3 a4) := by
  unfold bfOut
  repeat' first
    | with_reducible assumption
    | with_reducible apply emit_keeps

theorem romFlashOp_keeps {a : State} (a0 : RomRun × Bool) (a1 : Nat) (a2 : Nat) (a3 : Bytes) (h : Keeps a a0.1.s) : Keeps a (romFlashOp a0 a1 a2 a3).1.s := by
  unfold romFlashOp
  repeat' first
    | with_reducible assumption
    | with_reducible apply bfOut_keeps
    | with_reducible apply keeps_foldl
    | with_reducible apply keeps_foldl1
    | with_reducible apply keepsR_foldl1
    | extract_lets
    | with_reducible refine keeps_fst ‹_ = (_, _)› ?_
    | with_reducible refine keepsR_fst ‹_ = (_, _)› ?_
    | split
    | intro _
    | with_reducible apply keeps_mk

theorem writeFlash_keeps {a : State} (a0 : RomRun) (a1 : Nat) (a2 : Bytes) (h : Keeps a a0.s) : Keeps a (writeFlash a0 a1 a2).1.s := by
  unfold writeFlash
  repeat' first
    | with_reducible assumption
    | with_reducible apply romFlashOp_keeps
    | with_reducible apply keeps_foldl
    | with_reducible apply keeps_foldl1
    | with_reducible apply keepsR_foldl1
    | extract_lets
    | with_reducible refine keeps_fst ‹_ = (_, _)› ?_
    | with_reducible refine keeps_fst3 ‹_ = (_, _, _)› ?_
    | with_reducible refine keeps_fst4 ‹_ = (_, _, _, _)› ?_
    | with_reducible refine keepsR_fst ‹_ = (_, _)› ?_
    | with_reducible refine keeps_fst5 ‹_ = (_, _, _, _, _)› ?_
    | with_reducible refine keeps_snd ‹_ = (_, _)› ?_
    | split
    | intro _
    | with_reducible apply keeps_mk

theorem romReads_keeps {a : State} (a0 : State) (a1 : Nat) (a2 : Nat) (h : Keeps a a0) : Keeps a (romReads a0 a1 a2) := by
  unfold romReads
  repeat' first
    | with_reducible assumption
    | with_reducible apply bfOut_keeps
    | with_reducible apply keeps_foldl
    | with_reducible apply keeps_foldl1
    | extract_lets
    | intro _

theorem writeCopy_keeps {a : State} (a0 : RomRun) (a1 : Nat) (a2 : Bytes) (h : Keeps a a0.s) : Keeps a (writeCopy a0 a1 a2).1.s := by
  unfold writeCopy
  repeat' first
    | with_reducible assumption
    | with_reducible apply writeFlash_keeps
    | with_reducible apply report_keeps
    | with_reducible apply romReads_keeps
    | extract_lets
    | with_reducible refine keeps_fst ‹_ = (_, _)› ?_
    | with_reducible refine keepsR_fst ‹_ = (_, _)› ?_
    | split
    | with_reducible apply keeps_mk

theorem answer_keeps {a : State} (a0 : State) (a1 : SvcReq) (a2 : Nat) (a3 : Bytes) (h : Keeps a a0) : Keeps a (answer a0 a1 a2 a3) := by
  unfold answer
  repeat' first
    | with_reducible assumption
    | with_reducible apply emit_keeps
    | extract_lets
    | split
    | with_reducible apply keeps_mk

theorem refuseBlock_keeps {a : State} (a0 : State) (a1 : SvcReq) (a2 : Nat) (h : Keeps a a0) : Keeps a (refuseBlock a0 a1 a2) := by
  unfold refuseBlock
  repeat' first
    | with_reducible assumption
    | with_reducible apply answer_keeps
    | with_reducible apply irq_keeps

theorem setJob_keeps {a : State} (a0 : State) (a1 : Nat) (a2 : Job) (h : Keeps a a0) : Keeps a (setJob a0 a1 a2) := by
  unfold setJob
  repeat' first
    | with_reducible assumption
    | with_reducible apply keeps_mk

theorem stopJobTimer_keeps {a : State} (a0 : State) (a1 : Nat) (h : Keeps a a0) : Keeps a (stopJobTimer a0 a1) := by
  unfold stopJobTimer
  repeat' first
    | with_reducible assumption
    | with_reducible apply tstop_keeps
    | with_reducible apply setJob_keeps
    | with_reducible refine keeps_fst ‹_ = (_, _)› ?_
    | split
    | with_reducible apply keeps_mk

theorem leaveUnit_keeps {a : State} (a0 : State) (a1 : Nat) (h : Keeps a a0) : Keeps a (leaveUnit a0 a1) := by
  unfold leaveUnit
  repeat' first
    | with_reducible assumption
    | with_reducible apply stopJobTimer_keeps
    | with_reducible apply setJob_keeps
    | extract_lets
    | with_reducible refine keeps_fst ‹_ = (_, _)› ?_
    | split
    | with_reducible apply keeps_mk

theorem sramWrite_keeps {a : State} (a0 : State) (a1 : Nat) (a2 : Bytes) (h : Keeps a a0) : Keeps a (sramWrite a0 a1 a2) := by
  unfold sramWrite
  repeat' first
    | with_reducible assumption
    | with_reducible apply keeps_sram
    | split
    | with_reducible apply keeps_mk

theorem setPhase_keeps {a : State} (a0 : State) (a1 : RingId) (a2 : Bool) (h : Keeps a a0) : Keeps a (setPhase a0 a1 a2) := by
  unfold setPhase
  repeat' first
    | with_reducible assumption
    | extract_lets
    | intro _
    | with_reducible apply keeps_mk

theorem completionIrq_keeps {a : State} (a0 : State) (a1 : RingId) (h : Keeps a a0) : Keeps a (completionIrq a0 a1) := by
  unfold completionIrq
  repeat' first
    | with_reducible assumption
    | with_reducible apply irq_keeps
    | with_reducible apply keeps_foldl
    | with_reducible apply keeps_foldl1
    | extract_lets
    | with_reducible refine keeps_fst ‹_ = (_, _)› ?_
    | with_reducible refine keeps_fst3 ‹_ = (_, _, _)› ?_
    | with_reducible refine keeps_fst4 ‹_ = (_, _, _, _)› ?_
    | with_reducible refine keeps_fst5 ‹_ = (_, _, _, _, _)› ?_
    | with_reducible refine keeps_snd ‹_ = (_, _)› ?_
    | split
    | intro _
    | with_reducible apply keeps_mk

theorem dropPrgs_keeps {a : State} (a0 : State) (a1 : Prg → Bool) (h : Keeps a a0) : Keeps a (dropPrgs a0 a1) := by
  unfold dropPrgs
  repeat' first
    | with_reducible assumption
    | extract_lets
    | intro _
    | with_reducible apply keeps_mk

theorem ituDrop_keeps {a : State} (a0 : State) (a1 : Nat) (h : Keeps a a0) : Keeps a (ituDrop a0 a1) := by
  unfold ituDrop
  repeat' first
    | with_reducible assumption
    | extract_lets
    | intro _
    | with_reducible apply keeps_mk

theorem pageClear_keeps {a : State} (a0 : State) (a1 : PageKind) (a2 : Nat) (h : Keeps a a0) : Keeps a (pageClear a0 a1 a2) := by
  unfold pageClear
  repeat' first
    | with_reducible assumption
    | with_reducible apply rclear_keeps

theorem instPageClear_keeps {a : State} (a0 : State) (a1 : Nat) (a2 : Bool) (h : Keeps a a0) : Keeps a (instPageClear a0 a1 a2) := by
  unfold instPageClear
  repeat' first
    | with_reducible assumption
    | with_reducible apply rset_keeps
    | with_reducible apply pageClear_keeps
    | with_reducible apply keeps_foldl
    | with_reducible apply keeps_foldl1
    | extract_lets
    | intro _

theorem zeroiseInst_keeps {a : State} (a0 : State) (a1 : Nat) (h : Keeps a a0) : Keeps a (zeroiseInst a0 a1) := by
  unfold zeroiseInst
  repeat' first
    | with_reducible assumption
    | with_reducible apply endSlot_keeps
    | with_reducible apply keeps_foldl
    | with_reducible apply keeps_foldl1
    | extract_lets
    | intro _

theorem cstFinish_keeps {a : State} (a0 : State) (a1 : CstReq → Bool) (h : Keeps a a0) : Keeps a (cstFinish a0 a1) := by
  unfold cstFinish
  repeat' first
    | with_reducible assumption
    | with_reducible apply cstApply_keeps
    | extract_lets
    | with_reducible refine keeps_fst ‹_ = (_, _)› ?_
    | split
    | intro _
    | with_reducible apply keeps_mk

theorem setInst_keeps {a : State} (a0 : State) (a1 : Nat) (a2 : Inst) (h : Keeps a a0) : Keeps a (setInst a0 a1 a2) := by
  unfold setInst
  repeat' first
    | with_reducible assumption
    | extract_lets
    | intro _
    | with_reducible apply keeps_mk

theorem ownCtrs_keeps {a : State} (a0 : State) (a1 : Nat) (a2 : Word) (h : Keeps a a0) : Keeps a (ownCtrs a0 a1 a2) := by
  unfold ownCtrs
  repeat' first
    | with_reducible assumption
    | with_reducible apply rset_keeps
    | with_reducible apply keeps_foldl
    | with_reducible apply keeps_foldl1
    | extract_lets
    | intro _

theorem makeRoot_keeps {a : State} (a0 : State) (a1 : Nat) (h : Keeps a a0) : Keeps a (makeRoot a0 a1) := by
  unfold makeRoot
  repeat' first
    | with_reducible assumption
    | with_reducible apply draw_keeps
    | with_reducible apply setKslot_keeps
    | extract_lets
    | with_reducible refine keeps_fst ‹_ = (_, _)› ?_
    | split

theorem newChallenge_keeps {a : State} (a0 : State) (a1 : Nat) (h : Keeps a a0) : Keeps a (newChallenge a0 a1) := by
  unfold newChallenge
  repeat' first
    | with_reducible assumption
    | with_reducible apply draw_keeps
    | with_reducible apply rsetBytes_keeps
    | extract_lets
    | with_reducible refine keeps_fst ‹_ = (_, _)› ?_
    | split

theorem makeMig_keeps {a : State} (a0 : State) (a1 : Nat) (h : Keeps a a0) : Keeps a (makeMig a0 a1) := by
  unfold makeMig
  repeat' first
    | with_reducible assumption
    | with_reducible apply draw_keeps
    | with_reducible apply newChallenge_keeps
    | with_reducible apply rsetBytes_keeps
    | with_reducible apply setInst_keeps
    | extract_lets
    | with_reducible refine keeps_fst ‹_ = (_, _)› ?_
    | split
    | with_reducible apply keeps_mk

theorem instCmdEnds_keeps {a : State} (a0 : State) (a1 : Nat) (a2 : Nat) (a3 : Nat) (h : Keeps a a0) : Keeps a (instCmdEnds a0 a1 a2 a3) := by
  unfold instCmdEnds
  repeat' first
    | with_reducible assumption
    | with_reducible apply irq_keeps
    | with_reducible apply rset_keeps
    | with_reducible apply report_keeps
    | extract_lets
    | split

theorem instResetEnds_keeps {a : State} (a0 : State) (a1 : Nat) (h : Keeps a a0) : Keeps a (instResetEnds a0 a1) := by
  unfold instResetEnds
  repeat' first
    | with_reducible assumption
    | with_reducible apply tstop_keeps
    | with_reducible apply ituDrop_keeps
    | with_reducible apply instPageClear_keeps
    | with_reducible apply zeroiseInst_keeps
    | with_reducible apply cstFinish_keeps
    | with_reducible apply setInst_keeps
    | with_reducible apply ownCtrs_keeps
    | with_reducible apply makeRoot_keeps
    | with_reducible apply makeMig_keeps
    | with_reducible apply instCmdEnds_keeps
    | extract_lets
    | with_reducible refine keeps_fst ‹_ = (_, _)› ?_
    | split
    | intro _
    | with_reducible apply keeps_mk

theorem drainCheck_keeps {a : State} (a0 : State) (a1 : Nat) (h : Keeps a a0) : Keeps a (drainCheck a0 a1) := by
  unfold drainCheck
  repeat' first
    | with_reducible assumption
    | with_reducible apply instResetEnds_keeps
    | extract_lets
    | split
    | intro _

theorem freeTag_keeps {a : State} (a0 : State) (a1 : Nat) (h : Keeps a a0) : Keeps a (freeTag a0 a1) := by
  unfold freeTag
  dsimp only
  repeat' first
    | with_reducible assumption
    | with_reducible apply tstop_keeps
    | with_reducible apply dropPrgs_keeps
    | with_reducible apply drainCheck_keeps
    | extract_lets
    | with_reducible refine keeps_fst ‹_ = (_, _)› ?_
    | split
    | intro _
    | with_reducible apply keeps_mk

end Sys2Proof.Machine
end

