-- ==== Sys2Proof/Laws/Keeps2.lean ====
section
/-! SUPPORT. Laws/Keeps2.lean: each operation `f` of the machine keeps what `Keeps` speaks of (`f_keeps`), part 2 of 6. -/
namespace Sys2Proof.Machine

theorem entryWritten_keeps {a : State} (a0 : State) (a1 : RingId) (a2 : Nat) (a3 : Job) (h : Keeps a a0) : Keeps a (entryWritten a0 a1 a2 a3) := by
  unfold entryWritten
  repeat' first
    | with_reducible assumption
    | with_reducible apply rsetf_keeps
    | with_reducible apply setPhase_keeps
    | with_reducible apply irq_keeps
    | with_reducible apply completionIrq_keeps
    | with_reducible apply freeTag_keeps
    | extract_lets
    | split

theorem tableFault_keeps {a : State} (a0 : State) (a1 : Nat) (a2 : Nat) (a3 : Nat) (a4 : Nat) (a5 : Nat) (a6 : Option Nat) (a7 : Nat) (a8 : Nat) (h : Keeps a a0) : Keeps a (tableFault a0 a1 a2 a3 a4 a5 a6 a7 a8) := by
  unfold tableFault
  repeat' first
    | with_reducible assumption
    | with_reducible apply irq_keeps
    | with_reducible apply rcount_keeps
    | with_reducible apply emit_keeps
    | with_reducible apply rsetf_keeps
    | extract_lets
    | split
    | with_reducible apply keeps_mk

theorem pageRequest_keeps {a : State} (a0 : State) (a1 : Nat) (a2 : Nat) (a3 : Option Nat) (h : Keeps a a0) : Keeps a (pageRequest a0 a1 a2 a3) := by
  unfold pageRequest
  repeat' first
    | with_reducible assumption
    | with_reducible apply tset_keeps
    | with_reducible apply emit_keeps
    | extract_lets
    | with_reducible refine keeps_fst ‹_ = (_, _)› ?_
    | split
    | intro _
    | with_reducible apply keeps_mk

theorem translate_keeps {a : State} (a0 : State) (a1 : Nat) (a2 : Nat) (a3 : Nat) (a4 : Bool) (a5 : Option Nat) (a6 : Nat) (a7 : Walk) (h : Keeps a a0) : Keeps a (translate a0 a1 a2 a3 a4 a5 a6 a7).1 := by
  unfold translate
  extract_lets hit; clear_value hit
  repeat' first
    | with_reducible assumption
    | with_reducible apply rcount_keeps
    | with_reducible apply tableFault_keeps
    | with_reducible apply pageRequest_keeps
    | with_reducible apply keeps_foldl
    | with_reducible apply keeps_foldl1
    | extract_lets
    | with_reducible refine keeps_fst ‹_ = (_, _)› ?_
    | with_reducible refine keeps_fst3 ‹_ = (_, _, _)› ?_
    | with_reducible refine keeps_fst4 ‹_ = (_, _, _, _)› ?_
    | with_reducible refine keeps_fst5 ‹_ = (_, _, _, _, _)› ?_
    | with_reducible refine keeps_snd ‹_ = (_, _)› ?_
    | split
    | intro _
    | with_reducible apply keeps_mk

theorem faultWrite_keeps {a : State} (a0 : State) (a1 : Nat) (a2 : Job) (a3 : JobRes) (a4 : Nat) (h : Keeps a a0) : Keeps a (faultWrite a0 a1 a2 a3 a4) := by
  unfold faultWrite
  repeat' first
    | with_reducible assumption
    | with_reducible apply freeTag_keeps
    | with_reducible apply setJob_keeps
    | extract_lets
    | with_reducible refine keeps_fst ‹_ = (_, _)› ?_
    | split
    | with_reducible apply keeps_mk

theorem writeEntry_keeps {a : State} (a0 : State) (a1 : Nat) (a2 : Job) (a3 : JobRes) (a4 : List Walk) (h : Keeps a a0) : Keeps a (writeEntry a0 a1 a2 a3 a4) := by
  unfold writeEntry
  repeat' first
    | with_reducible assumption
    | with_reducible apply entryWritten_keeps
    | with_reducible apply sramWrite_keeps
    | with_reducible apply translate_keeps
    | with_reducible apply emit_keeps
    | with_reducible apply faultWrite_keeps
    | with_reducible apply freeTag_keeps
    | extract_lets
    | with_reducible refine keeps_fst ‹_ = (_, _)› ?_
    | split

theorem translateAll_keeps {a : State} (a0 : State) (a1 : Nat) (a2 : Nat) (a3 : Bool) (a4 : Nat) (a5 : Nat) (a6 : List (Nat × Nat)) (a7 : List Walk) (h : Keeps a a0) : Keeps a (translateAll a0 a1 a2 a3 a4 a5 a6 a7).1 := by
  induction a6 generalizing a0 a7 with
  | nil => exact h
  | cons b t ih =>
    unfold translateAll
    repeat' first
      | with_reducible apply ih
      | with_reducible assumption
      | with_reducible apply translate_keeps
      | extract_lets
      | with_reducible refine keeps_fst ‹_ = (_, _)› ?_
      | with_reducible refine keeps_fst3 ‹_ = (_, _, _)› ?_
      | with_reducible refine keeps_fst4 ‹_ = (_, _, _, _)› ?_
      | split

theorem writeOuts_keeps {a : State} (a0 : State) (a1 : Nat) (a2 : Nat) (a3 : Nat) (a4 : List (Nat × Bytes)) (a5 : List Walk) (a6 : Nat) (h : Keeps a a0) : Keeps a (writeOuts a0 a1 a2 a3 a4 a5 a6).1 := by
  induction a4 generalizing a0 a5 a6 with
  | nil => exact h
  | cons b t ih =>
    unfold writeOuts
    repeat' first
      | with_reducible apply ih
      | with_reducible assumption
      | with_reducible apply translateAll_keeps
      | with_reducible apply emit_keeps
      | with_reducible apply keeps_foldl
      | with_reducible apply keeps_foldl1
      | extract_lets
      | with_reducible refine keeps_fst ‹_ = (_, _)› ?_
      | with_reducible refine keeps_fst3 ‹_ = (_, _, _)› ?_
      | with_reducible refine keeps_fst4 ‹_ = (_, _, _, _)› ?_
      | split
      | intro _

theorem answerRemote_keeps {a : State} (a0 : State) (a1 : Nat) (a2 : Nat) (a3 : Nat) (a4 : Nat) (a5 : Job) (a6 : JobRes) (h : Keeps a a0) : Keeps a (answerRemote a0 a1 a2 a3 a4 a5 a6) := by
  unfold answerRemote
  repeat' first
    | with_reducible assumption
    | with_reducible apply sendFrame_keeps
    | with_reducible apply freeTag_keeps
    | with_reducible apply keeps_foldl
    | with_reducible apply keeps_foldl1
    | extract_lets
    | intro _

theorem deliver_keeps {a : State} (a0 : State) (a1 : Nat) (a2 : List Walk) (h : Keeps a a0) : Keeps a (deliver a0 a1 a2) := by
  unfold deliver
  repeat' first
    | with_reducible assumption
    | with_reducible apply sramWrite_keeps
    | with_reducible apply writeEntry_keeps
    | with_reducible apply setJob_keeps
    | with_reducible apply writeOuts_keeps
    | with_reducible apply faultWrite_keeps
    | with_reducible apply answerRemote_keeps
    | with_reducible apply keeps_foldl
    | with_reducible apply keeps_foldl1
    | extract_lets
    | with_reducible refine keeps_fst ‹_ = (_, _)› ?_
    | with_reducible refine keeps_fst3 ‹_ = (_, _, _)› ?_
    | with_reducible refine keeps_fst4 ‹_ = (_, _, _, _)› ?_
    | split
    | intro _
    | with_reducible apply keeps_mk

theorem finish_keeps {a : State} (a0 : State) (a1 : Nat) (a2 : JobRes) (a3 : List Walk) (h : Keeps a a0) : Keeps a (finish a0 a1 a2 a3) := by
  unfold finish
  repeat' first
    | with_reducible assumption
    | with_reducible apply leaveUnit_keeps
    | with_reducible apply deliver_keeps
    | with_reducible apply setJob_keeps
    | extract_lets
    | with_reducible refine keeps_fst ‹_ = (_, _)› ?_
    | split
    | with_reducible apply keeps_mk

theorem squash_keeps {a : State} (a0 : State) (a1 : Nat) (h : Keeps a a0) : Keeps a (squash a0 a1) := by
  unfold squash
  repeat' first
    | with_reducible assumption
    | with_reducible apply sendFrame_keeps
    | with_reducible apply tstop_keeps
    | with_reducible apply dropPrgs_keeps
    | with_reducible apply setJob_keeps
    | with_reducible apply freeTag_keeps
    | extract_lets
    | with_reducible refine keeps_fst ‹_ = (_, _)› ?_
    | split
    | intro _
    | with_reducible apply keeps_mk

theorem drainJob_keeps {a : State} (a0 : State × List Walk) (a1 : Nat) (h : Keeps a a0.1) : Keeps a (drainJob a0 a1).1 := by
  unfold drainJob
  dsimp only
  repeat' first
    | with_reducible assumption
    | with_reducible apply finish_keeps
    | with_reducible apply squash_keeps
    | extract_lets
    | with_reducible refine keeps_fst ‹_ = (_, _)› ?_
    | split

theorem resetGoes_keeps {a : State} (a0 : State) (a1 : Nat) (a2 : List Walk) (h : Keeps a a0) : Keeps a (resetGoes a0 a1 a2) := by
  unfold resetGoes
  dsimp only
  repeat' first
    | with_reducible assumption
    | with_reducible apply setInst_keeps
    | with_reducible apply squash_keeps
    | with_reducible apply drainJob_keeps
    | with_reducible apply drainCheck_keeps
    | with_reducible apply tset_keeps
    | with_reducible apply keeps_foldl
    | with_reducible apply keeps_foldl1
    | extract_lets
    | with_reducible refine keeps_fst ‹_ = (_, _)› ?_
    | split
    | intro _
    | with_reducible apply keeps_mk

theorem resetBegins_keeps {a : State} (a0 : State) (a1 : Nat) (a2 : InstReset) (a3 : InstSt) (a4 : Nat) (a5 : List Walk) (h : Keeps a a0) : Keeps a (resetBegins a0 a1 a2 a3 a4 a5) := by
  unfold resetBegins
  repeat' first
    | with_reducible assumption
    | with_reducible apply setInst_keeps
    | with_reducible apply resetGoes_keeps
    | with_reducible apply tset_keeps
    | extract_lets
    | with_reducible refine keeps_fst ‹_ = (_, _)› ?_
    | split
    | with_reducible apply keeps_mk

theorem removeInst_keeps {a : State} (a0 : State) (a1 : Nat) (a2 : Nat) (h : Keeps a a0) : Keeps a (removeInst a0 a1 a2) := by
  unfold removeInst
  repeat' first
    | with_reducible assumption
    | with_reducible apply setInst_keeps
    | with_reducible apply drainCheck_keeps
    | with_reducible apply squash_keeps
    | with_reducible apply resetBegins_keeps
    | with_reducible apply keeps_foldl
    | with_reducible apply keeps_foldl1
    | extract_lets
    | with_reducible refine keeps_fst ‹_ = (_, _)› ?_
    | split
    | with_reducible apply keeps_mk

theorem cstCut_keeps {a : State} (s : State) (t : Nat) (h : Keeps a s) : Keeps a (cstCut s t) := by
  unfold cstCut
  extract_lets s1
  refine Keeps.same (s := s1) ?_ rfl rfl rfl rfl rfl rfl rfl rfl rfl rfl rfl rfl
  unfold s1
  split
  next o rest _ =>
    extract_lets old v
    split
    · exact h
    next hg =>
      split
      · exact h
      next p hp =>
        have hb : cstBad s o = none := by
          cases hb : cstBad s o with
          | none => rfl
          | some _ => exact absurd (.inr (.inl (by rw [hb]; rfl))) hg
        have hnf := cstBad_notFailed hb
        have hnl : countersWf s → ¬ ctrLost s o.ctr := fun hw hl => hnf (by simpa [reconciled] using hw.2 _ hl)
        refine (keeps_torn h (c := o.ctr) (v := old) (x := some p) rfl rfl id rfl rfl rfl
          (fun i => by split <;> simp_all [counter, old]) ?_ (fun _ _ hi => hi) (fun _ hw => .inl ⟨Nat.le_refl _, hnl hw⟩))
        intro q hq
        cases hq
        refine ⟨fun u hu => cutCopies_le (counter_le_cstResult s o) hp hu, fun hn => ?_⟩
        obtain ⟨u, hu⟩ := cutCopies_some hp
        rw [hu] at hn
        cases hn
  · exact h

theorem mirrorRefused_keeps {a : State} (a0 : State) (h : Keeps a a0) : Keeps a (mirrorRefused a0) := by
  unfold mirrorRefused
  repeat' first
    | with_reducible assumption
    | with_reducible apply report_keeps

theorem queueMirror_keeps {a : State} (a0 : State) (a1 : Nat) (a2 : Bytes) (h : Keeps a a0) : Keeps a (queueMirror a0 a1 a2) := by
  unfold queueMirror
  repeat' first
    | with_reducible assumption
    | with_reducible apply mirrorRefused_keeps
    | with_reducible apply irq_keeps
    | with_reducible apply modPair_keeps
    | extract_lets
    | split
    | intro _
    | with_reducible apply keeps_mk

theorem mirrorCounter_keeps {a : State} (a0 : State) (a1 : Nat) (a2 : Bytes) (h : Keeps a a0) : Keeps a (mirrorCounter a0 a1 a2) := by
  unfold mirrorCounter
  repeat' first
    | with_reducible assumption
    | with_reducible apply mirrorRefused_keeps
    | with_reducible apply requeueApplies_keeps
    | with_reducible apply modPair_keeps
    | with_reducible apply queueMirror_keeps
    | extract_lets
    | with_reducible refine keeps_fst ‹_ = (_, _)› ?_
    | split
    | intro _
    | with_reducible apply keeps_mk

theorem refuseW_keeps {a : State} (a0 : State) (a1 : PageKind) (a2 : Nat) (a3 : Nat) (a4 : WCtx) (h : Keeps a a0) : Keeps a (refuseW a0 a1 a2 a3 a4) := by
  unfold refuseW
  repeat' first
    | with_reducible assumption
    | with_reducible apply report_keeps

theorem protoReport_keeps {a : State} (a0 : State) (a1 : Nat) (a2 : WCtx) (a3 : Bool) (h : Keeps a a0) : Keeps a (protoReport a0 a1 a2 a3) := by
  unfold protoReport
  repeat' first
    | with_reducible assumption
    | with_reducible apply refuseW_keeps
    | with_reducible apply keeps_foldl
    | with_reducible apply keeps_foldl1
    | extract_lets
    | with_reducible refine keeps_fst ‹_ = (_, _)› ?_
    | with_reducible refine keeps_fst3 ‹_ = (_, _, _)› ?_
    | with_reducible refine keeps_fst4 ‹_ = (_, _, _, _)› ?_
    | with_reducible refine keeps_fst5 ‹_ = (_, _, _, _, _)› ?_
    | with_reducible refine keeps_snd ‹_ = (_, _)› ?_
    | split
    | intro _
    | with_reducible apply keeps_mk

theorem publishNow_keeps {a : State} (a0 : State) (a1 : Nat) (h : Keeps a a0) : Keeps a (publishNow a0 a1) := by
  unfold publishNow
  repeat' first
    | with_reducible assumption
    | with_reducible apply irq_keeps
    | with_reducible apply modPort_keeps
    | extract_lets
    | with_reducible refine keeps_fst ‹_ = (_, _)› ?_
    | split
    | intro _
    | with_reducible apply keeps_mk

theorem csEnd_keeps {a : State} (a0 : State) (a1 : Nat) (h : Keeps a a0) : Keeps a (csEnd a0 a1) := by
  unfold csEnd
  repeat' first
    | with_reducible assumption
    | with_reducible apply setPort_keeps
    | with_reducible apply tset_keeps
    | extract_lets
    | with_reducible refine keeps_fst ‹_ = (_, _)› ?_
    | split
    | with_reducible apply keeps_mk

theorem csRise_keeps {a : State} (a0 : State) (a1 : Nat) (h : Keeps a a0) : Keeps a (csRise a0 a1) := by
  unfold csRise
  repeat' first
    | with_reducible assumption
    | with_reducible apply flipReady_keeps
    | with_reducible apply publishNow_keeps
    | with_reducible apply csEnd_keeps

theorem protoFlag_keeps {a : State} (a0 : State) (a1 : Nat) (a2 : Nat) (a3 : Byte) (a4 : Byte) (h : Keeps a a0) : Keeps a (protoFlag a0 a1 a2 a3 a4) := by
  unfold protoFlag
  repeat' first
    | with_reducible assumption
    | with_reducible apply irq_keeps
    | with_reducible apply rsetb_keeps
    | with_reducible apply rset_keeps
    | extract_lets
    | split

theorem platCmd_keeps {a : State} (a0 : State) (a1 : Nat) (a2 : Byte) (a3 : Byte) (a4 : OpClass → Bool) (a5 : Port → State → State) (h5 : ∀ p x, Keeps a x → Keeps a (a5 p x)) (h : Keeps a a0) : Keeps a (platCmd a0 a1 a2 a3 a4 a5) := by
  unfold platCmd
  dsimp only
  repeat' first
    | with_reducible assumption
    | with_reducible apply csRise_keeps
    | with_reducible apply setPort_keeps
    | with_reducible apply protoFlag_keeps
    | with_reducible apply h5
    | extract_lets
    | with_reducible refine keeps_fst ‹_ = (_, _)› ?_
    | split
    | with_reducible apply keeps_mk

theorem drive_keeps {a : State} (a0 : State) (a1 : Nat) (a2 : Bytes) (h : Keeps a a0) : Keeps a (drive a0 a1 a2) := by
  unfold drive
  repeat' first
    | with_reducible assumption
    | with_reducible apply emit_keeps
    | split

theorem regRead_keeps {a : State} (a0 : State) (a1 : Nat) (a2 : Byte) (a3 : Byte) (a4 : State → Byte) (h : Keeps a a0) : Keeps a (regRead a0 a1 a2 a3 a4) := by
  unfold regRead
  repeat' first
    | with_reducible assumption
    | with_reducible apply platCmd_keeps
    | with_reducible apply drive_keeps
    | extract_lets
    | intro _

theorem askLeaf_keeps {a : State} (a0 : State) (a1 : Nat) (a2 : LeafReq) (h : Keeps a a0) : Keeps a (askLeaf a0 a1 a2) := by
  unfold askLeaf
  repeat' first
    | with_reducible assumption
    | with_reducible apply rcount_keeps
    | with_reducible apply modPort_keeps
    | extract_lets
    | split
    | intro _
    | with_reducible apply keeps_mk

theorem closeBlock_keeps {a : State} (a0 : State) (a1 : Nat) (a2 : Nat) (h : Keeps a a0) : Keeps a (closeBlock a0 a1 a2) := by
  unfold closeBlock
  repeat' first
    | with_reducible assumption
    | with_reducible apply modPort_keeps
    | with_reducible apply tstop_keeps
    | extract_lets
    | intro _
    | with_reducible apply keeps_mk

theorem mirrorQuarantine_keeps {a : State} (a0 : State) (a1 : Nat) (a2 : Bytes) (h : Keeps a a0) : Keeps a (mirrorQuarantine a0 a1 a2) := by
  unfold mirrorQuarantine
  repeat' first
    | with_reducible assumption
    | with_reducible apply sendMirror_keeps
    | split

theorem hwExtend_keeps {a : State} (a0 : State) (a1 : Nat) (a2 : Bytes) (h : Keeps a a0) : Keeps a (hwExtend a0 a1 a2) := by
  unfold hwExtend
  repeat' first
    | with_reducible assumption
    | with_reducible apply irq_keeps
    | with_reducible apply extend_keeps

theorem failedWith_keeps {a : State} (a0 : State) (a1 : Nat) (a2 : Nat) (a3 : Nat) (a4 : Nat) (a5 : Nat) (a6 : Nat) (a7 : Bytes) (h : Keeps a a0) : Keeps a (failedWith a0 a1 a2 a3 a4 a5 a6 a7) := by
  unfold failedWith
  repeat' first
    | with_reducible assumption
    | with_reducible apply report_keeps
    | with_reducible apply quarantine_keeps
    | with_reducible apply irq_keeps
    | with_reducible apply rsetb_keeps
    | with_reducible apply rset_keeps
    | with_reducible apply mirrorQuarantine_keeps
    | with_reducible apply hwExtend_keeps
    | extract_lets
    | split

theorem failedCheck_keeps {a : State} (a0 : State) (a1 : Nat) (a2 : Nat) (a3 : Nat) (a4 : Nat) (a5 : Nat) (a6 : Nat) (a7 : Bytes) (h : Keeps a a0) : Keeps a (failedCheck a0 a1 a2 a3 a4 a5 a6 a7) := by
  unfold failedCheck
  repeat' first
    | with_reducible assumption
    | with_reducible apply failedWith_keeps

theorem checkBlock_keeps {a : State} (a0 : State) (a1 : Nat) (a2 : Nat) (h : Keeps a a0) : Keeps a (checkBlock a0 a1 a2) := by
  unfold checkBlock
  repeat' first
    | with_reducible assumption
    | with_reducible apply askLeaf_keeps
    | with_reducible apply rcount_keeps
    | with_reducible apply closeBlock_keeps
    | with_reducible apply failedCheck_keeps
    | extract_lets
    | with_reducible refine keeps_fst ‹_ = (_, _)› ?_
    | split

theorem deny_keeps {a : State} (a0 : State) (a1 : Nat) (a2 : DenyClass) (a3 : Byte) (a4 : Nat) (a5 : Nat) (a6 : Option Nat) (h : Keeps a a0) : Keeps a (deny a0 a1 a2 a3 a4 a5 a6) := by
  unfold deny
  repeat' first
    | with_reducible assumption
    | with_reducible apply rcount_keeps
    | with_reducible apply rset_keeps
    | with_reducible apply irq_keeps
    | with_reducible apply rsetb_keeps
    | with_reducible apply modPort_keeps
    | extract_lets
    | split
    | intro _
    | with_reducible apply keeps_mk

theorem ringDoorbell_keeps {a : State} (a0 : State) (a1 : Nat) (a2 : Word) (h : Keeps a a0) : Keeps a (ringDoorbell a0 a1 a2) := by
  unfold ringDoorbell
  repeat' first
    | with_reducible assumption
    | with_reducible apply irq_keeps
    | with_reducible apply modPort_keeps
    | extract_lets
    | intro _
    | with_reducible apply keeps_mk

theorem mbProgram_keeps {a : State} (a0 : State) (a1 : Nat) (a2 : Byte) (a3 : Nat) (a4 : Nat) (a5 : Nat) (a6 : Bytes) (h : Keeps a a0) : Keeps a (mbProgram a0 a1 a2 a3 a4 a5 a6) := by
  unfold mbProgram
  repeat' first
    | with_reducible assumption
    | with_reducible apply deny_keeps
    | with_reducible apply setPort_keeps
    | with_reducible apply ringDoorbell_keeps
    | extract_lets
    | split
    | with_reducible apply keeps_mk

theorem flashOut_keeps {a : State} (a0 : State) (a1 : Nat) (a2 : Nat) (a3 : Nat) (a4 : Nat) (a5 : Nat) (a6 : Bytes) (h : Keeps a a0) : Keeps a (flashOut a0 a1 a2 a3 a4 a5 a6) := by
  unfold flashOut
  repeat' first
    | with_reducible assumption
    | with_reducible apply emit_keeps
    | extract_lets
    | split

theorem forwardWrite_keeps {a : State} (a0 : State) (a1 : Nat) (a2 : Nat) (a3 : Nat) (a4 : Bytes) (h : Keeps a a0) : Keeps a (forwardWrite a0 a1 a2 a3 a4) := by
  unfold forwardWrite
  repeat' first
    | with_reducible assumption
    | with_reducible apply modPort_keeps
    | with_reducible apply flashOut_keeps
    | extract_lets
    | split
    | intro _
    | with_reducible apply keeps_mk

theorem programCmd_keeps {a : State} (a0 : State) (a1 : Nat) (a2 : Byte) (a3 : Byte) (a4 : Nat) (a5 : Bytes) (h : Keeps a a0) : Keeps a (programCmd a0 a1 a2 a3 a4 a5) := by
  unfold programCmd
  repeat' first
    | with_reducible assumption
    | with_reducible apply protoFlag_keeps
    | with_reducible apply deny_keeps
    | with_reducible apply mbProgram_keeps
    | with_reducible apply forwardWrite_keeps
    | with_reducible apply keeps_foldl
    | with_reducible apply keeps_foldl1
    | extract_lets
    | with_reducible refine keeps_fst ‹_ = (_, _)› ?_
    | with_reducible refine keeps_fst3 ‹_ = (_, _, _)› ?_
    | with_reducible refine keeps_fst4 ‹_ = (_, _, _, _)› ?_
    | with_reducible refine keeps_fst5 ‹_ = (_, _, _, _, _)› ?_
    | with_reducible refine keeps_snd ‹_ = (_, _)› ?_
    | split
    | intro _
    | with_reducible apply keeps_mk

theorem eccNote_keeps {a : State} (a0 : State) (a1 : Nat) (a2 : Nat) (a3 : Nat) (a4 : Bool) (h : Keeps a a0) : Keeps a (eccNote a0 a1 a2 a3 a4) := by
  unfold eccNote
  repeat' first
    | with_reducible assumption
    | with_reducible apply rcount_keeps
    | with_reducible apply rset_keeps
    | with_reducible apply irq_keeps
    | with_reducible apply setFrame_keeps
    | extract_lets
    | split
    | with_reducible apply keeps_mk

theorem eccAct_keeps {a : State} (a0 : State) (a1 : Nat) (h : Keeps a a0) : Keeps a (eccAct a0 a1) := by
  unfold eccAct
  repeat' first
    | with_reducible assumption
    | with_reducible apply draw_keeps
    | with_reducible apply failedCheck_keeps
    | with_reducible apply needLeaf_keeps
    | with_reducible apply modPort_keeps
    | extract_lets
    | with_reducible refine keeps_fst ‹_ = (_, _)› ?_
    | split
    | intro _
    | with_reducible apply keeps_mk

theorem eccPort_keeps {a : State} (a0 : State) (a1 : Nat) (a2 : Option Nat) (h : Keeps a a0) : Keeps a (eccPort a0 a1 a2) := by
  unfold eccPort
  repeat' first
    | with_reducible assumption
    | with_reducible apply irq_keeps
    | with_reducible apply rsetb_keeps
    | with_reducible apply rset_keeps
    | with_reducible apply modPort_keeps
    | extract_lets
    | with_reducible refine keeps_fst ‹_ = (_, _)› ?_
    | split
    | intro _
    | with_reducible apply keeps_mk

theorem eccScrub_keeps {a : State} (a0 : State) (a1 : Nat) (h : Keeps a a0) : Keeps a (eccScrub a0 a1) := by
  unfold eccScrub
  repeat' first
    | with_reducible assumption
    | with_reducible apply eccAct_keeps
    | with_reducible apply eccPort_keeps
    | with_reducible refine keeps_fst ‹_ = (_, _)› ?_
    | split

theorem vstDiag_keeps {a : State} (a0 : State) (a1 : EccRes) (h : Keeps a a0) : Keeps a (vstDiag a0 a1).1 := by
  unfold vstDiag
  repeat' first
    | with_reducible assumption
    | with_reducible apply report_keeps
    | with_reducible apply eccNote_keeps
    | with_reducible apply eccScrub_keeps
    | extract_lets
    | with_reducible refine keeps_fst ‹_ = (_, _)› ?_
    | split

theorem readOn_keeps {a : State} (a0 : State) (a1 : PageKind) (a2 : Nat) (a3 : Nat) (a4 : EccRes) (h : Keeps a a0) : Keeps a (readOn a0 a1 a2 a3 a4).1 := by
  unfold readOn
  repeat' first
    | with_reducible assumption
    | with_reducible apply rset_keeps
    | with_reducible apply vstDiag_keeps
    | split

theorem copyOnce_keeps {a : State} (a0 : RomRun) (a1 : Nat) (a2 : Bytes) (a3 : Nat) (h : Keeps a a0.s) : Keeps a (copyOnce a0 a1 a2 a3).1.s := by
  unfold copyOnce
  repeat' first
    | with_reducible assumption
    | with_reducible apply romReads_keeps
    | with_reducible apply romFlashOp_keeps
    | with_reducible apply keeps_foldl
    | with_reducible apply keeps_foldl1
    | with_reducible apply keepsR_foldl1
    | extract_lets
    | with_reducible refine keeps_fst ‹_ = (_, _)› ?_
    | with_reducible refine keeps_fst3 ‹_ = (_, _, _)› ?_
    | with_reducible refine keeps_fst4 ‹_ = (_, _, _, _)› ?_
    | with_reducible refine keepsR_fst ‹_ = (_, _)› ?_
    | with_reducible refine keeps_fst5 ‹_ = (_, _, _, _, _)› ?_
    | with_reducible refine keeps_snd ‹_ = (_, _)› ?_
    | split
    | intro _
    | with_reducible apply keeps_mk

theorem bwdLoad_keeps {a : State} (a0 : State) (a1 : Nat) (a2 : Bool) (h : Keeps a a0) : Keeps a (bwdLoad a0 a1 a2) := by
  unfold bwdLoad
  repeat' first
    | with_reducible assumption
    | with_reducible apply tset_keeps
    | with_reducible apply tstop_keeps
    | extract_lets
    | split

theorem romKick_keeps {a : State} (a0 : State) (h : Keeps a a0) : Keeps a (romKick a0) := by
  unfold romKick
  repeat' first
    | with_reducible assumption
    | with_reducible apply bwdLoad_keeps
    | split

theorem copyUnit_keeps {a : State} (a0 : RomRun) (a1 : Nat) (a2 : Bytes) (a3 : Nat) (h : Keeps a a0.s) : Keeps a (copyUnit a0 a1 a2 a3).1.s := by
  unfold copyUnit
  repeat' first
    | with_reducible assumption
    | with_reducible apply copyOnce_keeps
    | with_reducible apply romKick_keeps
    | extract_lets
    | with_reducible refine keeps_fst ‹_ = (_, _)› ?_
    | with_reducible refine keepsR_fst ‹_ = (_, _)› ?_
    | split
    | with_reducible apply keeps_mk

theorem romRaise_keeps {a : State} (a0 : State) (a1 : Nat) (h : Keeps a a0) : Keeps a (romRaise a0 a1) := by
  unfold romRaise
  repeat' first
    | with_reducible assumption
    | with_reducible apply cstApply_keeps

theorem writeRec_keeps {a : State} (a0 : RomRun) (a1 : MinRec) (h : Keeps a a0.s) : Keeps a (writeRec a0 a1).s := by
  unfold writeRec
  dsimp only
  repeat' first
    | with_reducible assumption
    | with_reducible apply writeCopy_keeps
    | with_reducible apply romRaise_keeps
    | extract_lets
    | with_reducible refine keeps_fst ‹_ = (_, _)› ?_
    | with_reducible refine keepsR_fst ‹_ = (_, _)› ?_
    | split
    | with_reducible apply keeps_mk

theorem copyStep_keeps {a : State} (x : RomRun) (p : Nat) (b : Bytes) (n u : Nat) (h : Keeps a x.s) : Keeps a (copyStep x p b n u).1.s := by
  unfold copyStep
  split
  · exact h
  · split
    · exact h
    · split
      · exact h
      · split
        next he => exact keepsR_fst he (copyUnit_keeps _ _ _ _ h)
        next y he =>
          have hy := keepsR_fst he (copyUnit_keeps _ _ _ _ h)
          dsimp only
          split
          · with_reducible exact writeRec_keeps _ _ hy
          · with_reducible exact hy

theorem wakeFor_keeps {a : State} (a0 : State) (a1 : Nat) (h : Keeps a a0) : Keeps a (wakeFor a0 a1) := by
  unfold wakeFor
  repeat' first
    | with_reducible assumption
    | with_reducible apply fire_keeps
    | with_reducible apply wakeSource_keeps
    | with_reducible apply wakeDone_keeps
    | split

theorem wakeByHost_keeps {a : State} (a0 : State) (a1 : Acc) (h : Keeps a a0) : Keeps a (wakeByHost a0 a1) := by
  unfold wakeByHost
  repeat' first
    | with_reducible assumption
    | with_reducible apply wakeFor_keeps
    | split

theorem dillStore_keeps {a : State} (a0 : State) (a1 : Nat × Nat × Bytes) (h : Keeps a a0) : Keeps a (dillStore a0 a1) := by
  unfold dillStore
  repeat' first
    | with_reducible assumption
    | with_reducible apply keeps_dill
    | split
    | with_reducible apply keeps_mk

theorem coreStore_keeps {a : State} (a0 : State) (a1 : Nat × Bytes) (h : Keeps a a0) : Keeps a (coreStore a0 a1) := by
  unfold coreStore
  repeat' first
    | with_reducible assumption
    | with_reducible apply sramWrite_keeps
    | with_reducible apply keeps_boot
    | split
    | with_reducible apply keeps_mk

theorem coreStores_keeps {a : State} (a0 : State) (a1 : BusIn) (h : Keeps a a0) : Keeps a (coreStores a0 a1) := by
  unfold coreStores
  repeat' first
    | with_reducible assumption
    | with_reducible apply dillStore_keeps
    | with_reducible apply coreStore_keeps
    | with_reducible apply keeps_foldl
    | with_reducible apply keeps_foldl1

theorem busLog_keeps {a : State} (a0 : State) (a1 : Acc) (a2 : Bool) (a3 : Nat) (a4 : Nat) (a5 : Word) (a6 : Cause) (h : Keeps a a0) : Keeps a (busLog a0 a1 a2 a3 a4 a5 a6) := by
  unfold busLog
  repeat' first
    | with_reducible assumption
    | with_reducible apply rset_keeps
    | with_reducible apply rsetf_keeps
    | with_reducible apply irq_keeps
    | with_reducible apply rcount_keeps
    | extract_lets
    | split

theorem twdForeign_keeps {a : State} (a0 : State) (a1 : Acc) (a2 : Nat) (h : Keeps a a0) : Keeps a (twdForeign a0 a1 a2) := by
  unfold twdForeign
  repeat' first
    | with_reducible assumption
    | with_reducible apply irq_keeps
    | with_reducible apply rset_keeps
    | extract_lets

theorem wdRefused_keeps {a : State} (a0 : State) (a1 : PageKind) (a2 : Acc) (a3 : Nat) (a4 : Word) (h : Keeps a a0) : Keeps a (wdRefused a0 a1 a2 a3 a4) := by
  unfold wdRefused
  repeat' first
    | with_reducible assumption
    | with_reducible apply refuseW_keeps
    | with_reducible apply twdForeign_keeps
    | extract_lets
    | split

theorem headerWrite_keeps {a : State} (a0 : State) (a1 : PageKind) (a2 : Nat) (a3 : Nat) (a4 : Word) (h : Keeps a a0) : Keeps a (headerWrite a0 a1 a2 a3 a4) := by
  unfold headerWrite
  repeat' first
    | with_reducible assumption
    | with_reducible apply rset_keeps
    | extract_lets
    | with_reducible refine keeps_fst ‹_ = (_, _)› ?_
    | split

theorem markOnce_keeps {a : State} (a0 : RegRow) (a1 : Nat) (a2 : State) (h : Keeps a a2) : Keeps a (markOnce a0 a1 a2) := by
  unfold markOnce
  repeat' first
    | with_reducible assumption
    | extract_lets
    | split
    | intro _
    | with_reducible apply keeps_mk

theorem storeW_keeps {a : State} (a0 : State) (a1 : WCtx) (h : Keeps a a0) : Keeps a (storeW a0 a1) := by
  unfold storeW
  repeat' first
    | with_reducible assumption
    | with_reducible apply rset_keeps

theorem capWrite_keeps {a : State} (a0 : State) (a1 : WCtx) (h : Keeps a a0) : Keeps a (capWrite a0 a1) := by
  unfold capWrite
  repeat' first
    | with_reducible assumption
    | with_reducible apply rset_keeps
    | with_reducible apply storeW_keeps
    | split

theorem bootErr_keeps {a : State} (a0 : State) (a1 : Nat) (a2 : Nat) (h : Keeps a a0) : Keeps a (bootErr a0 a1 a2) := by
  unfold bootErr
  repeat' first
    | with_reducible assumption
    | with_reducible apply report_keeps

theorem pulseFlashReset_keeps {a : State} (a0 : State) (a1 : Nat) (h : Keeps a a0) : Keeps a (pulseFlashReset a0 a1) := by
  unfold pulseFlashReset
  repeat' first
    | with_reducible assumption
    | with_reducible apply tset_keeps
    | with_reducible apply tstop_keeps

theorem portLeaveReset_keeps {a : State} (a0 : State) (a1 : Nat) (h : Keeps a a0) : Keeps a (portLeaveReset a0 a1) := by
  unfold portLeaveReset
  repeat' first
    | with_reducible assumption
    | with_reducible apply pulseFlashReset_keeps

theorem cmdResult_keeps {a : State} (a0 : State) (a1 : Nat) (a2 : Nat) (a3 : Nat) (h : Keeps a a0) : Keeps a (cmdResult a0 a1 a2 a3) := by
  unfold cmdResult
  repeat' first
    | with_reducible assumption
    | with_reducible apply rsetf_keeps

theorem recoveryHeld_keeps {a : State} (a0 : State) (a1 : Nat) (h : Keeps a a0) : Keeps a (recoveryHeld a0 a1) := by
  unfold recoveryHeld
  repeat' first
    | with_reducible assumption
    | with_reducible apply cmdEnd_keeps
    | with_reducible apply enterHeld_keeps
    | with_reducible apply modPort_keeps
    | with_reducible apply toState_keeps
    | with_reducible apply dropWork_keeps
    | extract_lets
    | split
    | intro _
    | with_reducible apply keeps_mk

theorem holdPort_keeps {a : State} (a0 : State) (a1 : Nat) (h : Keeps a a0) : Keeps a (holdPort a0 a1) := by
  unfold holdPort
  repeat' first
    | with_reducible assumption
    | with_reducible apply rsetf_keeps
    | with_reducible apply cmdResult_keeps
    | with_reducible apply setPort_keeps
    | with_reducible apply recoveryHeld_keeps
    | with_reducible apply cmdEnd_keeps
    | with_reducible apply enterHeld_keeps
    | extract_lets
    | with_reducible refine keeps_fst ‹_ = (_, _)› ?_
    | split
    | intro _
    | with_reducible apply keeps_mk

theorem holdAll_keeps {a : State} (a0 : State) (h : Keeps a a0) : Keeps a (holdAll a0) := by
  unfold holdAll
  repeat' first
    | with_reducible assumption
    | with_reducible apply holdPort_keeps
    | with_reducible apply keeps_foldl
    | with_reducible apply keeps_foldl1
    | extract_lets
    | split
    | intro _

theorem endSession_keeps {a : State} (a0 : State) (a1 : Nat) (h : Keeps a a0) : Keeps a (endSession a0 a1) := by
  unfold endSession
  repeat' first
    | with_reducible assumption
    | with_reducible apply tstop_keeps
    | with_reducible apply irq_keeps
    | with_reducible apply rsetb_keeps
    | with_reducible apply report_keeps
    | extract_lets
    | split
    | with_reducible apply keeps_mk

theorem lockSession_keeps {a : State} (a0 : State) (h : Keeps a a0) : Keeps a (lockSession a0) := by
  unfold lockSession
  repeat' first
    | with_reducible assumption
    | with_reducible apply endSession_keeps

theorem finishLater_keeps {a : State} (a0 : State) (a1 : Nat) (a2 : JobRes) (h : Keeps a a0) : Keeps a (finishLater a0 a1 a2) := by
  unfold finishLater
  repeat' first
    | with_reducible assumption
    | with_reducible apply leaveUnit_keeps
    | with_reducible apply setJob_keeps
    | with_reducible apply finish_keeps
    | extract_lets
    | with_reducible refine keeps_fst ‹_ = (_, _)› ?_
    | split
    | with_reducible apply keeps_mk

theorem stopKeyJobs_keeps {a : State} (a0 : State) (h : Keeps a a0) : Keeps a (stopKeyJobs a0) := by
  unfold stopKeyJobs
  repeat' first
    | with_reducible assumption
    | with_reducible apply finishLater_keeps
    | with_reducible apply keeps_foldl
    | with_reducible apply keeps_foldl1
    | extract_lets
    | intro _

theorem enterLocked_keeps {a : State} (a0 : State) (a1 : Nat) (h : Keeps a a0) : Keeps a (enterLocked a0 a1) := by
  unfold enterLocked
  repeat' first
    | with_reducible assumption
    | with_reducible apply holdAll_keeps
    | with_reducible apply irq_keeps
    | with_reducible apply hwExtend_keeps
    | with_reducible apply lockSession_keeps
    | with_reducible apply stopKeyJobs_keeps
    | extract_lets
    | with_reducible apply keeps_mk

theorem alarm_keeps {a : State} (a0 : State) (a1 : Nat) (h : Keeps a a0) : Keeps a (alarm a0 a1) := by
  unfold alarm
  repeat' first
    | with_reducible assumption
    | with_reducible apply irq_keeps
    | with_reducible apply rcount_keeps
    | with_reducible apply rset_keeps
    | with_reducible apply wakeSource_keeps
    | with_reducible apply enterLocked_keeps
    | extract_lets
    | split
    | with_reducible apply keeps_mk

theorem temSense_keeps {a : State} (a0 : State) (a1 : Bool) (h : Keeps a a0) : Keeps a (temSense a0 a1) := by
  unfold temSense
  repeat' first
    | with_reducible assumption
    | with_reducible apply alarm_keeps
    | with_reducible apply holdAll_keeps
    | extract_lets
    | split
    | with_reducible apply keeps_mk

theorem senseWord_keeps {a : State} (a0 : State) (a1 : Nat) (h : Keeps a a0) : Keeps a (senseWord a0 a1).1 := by
  unfold senseWord
  repeat' first
    | with_reducible assumption
    | with_reducible apply draw_keeps
    | extract_lets
    | with_reducible refine keeps_fst ‹_ = (_, _)› ?_
    | split

theorem senseUnsure_keeps {a : State} (a0 : State) (h : Keeps a a0) : Keeps a (senseUnsure a0) := by
  unfold senseUnsure
  repeat' first
    | with_reducible assumption
    | with_reducible apply senseWord_keeps
    | with_reducible apply keeps_foldl
    | with_reducible apply keeps_foldl1
    | extract_lets
    | with_reducible refine keeps_fst ‹_ = (_, _)› ?_
    | split
    | intro _
    | with_reducible apply keeps_mk

theorem fuseSense_keeps {a : State} (a0 : State) (h : Keeps a a0) : Keeps a (fuseSense a0) := by
  unfold fuseSense
  repeat' first
    | with_reducible assumption
    | with_reducible apply senseUnsure_keeps
    | with_reducible apply rset_keeps
    | with_reducible apply rsetb_keeps
    | with_reducible apply rsetf_keeps
    | with_reducible apply irq_keeps
    | extract_lets
    | split
    | with_reducible apply keeps_mk

theorem sampleStraps_keeps {a : State} (a0 : State) (a1 : Word) (h : Keeps a a0) : Keeps a (sampleStraps a0 a1) := by
  unfold sampleStraps
  repeat' first
    | with_reducible assumption
    | with_reducible apply rset_keeps
    | extract_lets
    | split
    | intro _

theorem loadFixed_keeps {a : State} (a0 : State) (a1 : Nat) (a2 : Nat) (a3 : Nat) (a4 : Nat) (a5 : Bytes) (h : Keeps a a0) : Keeps a (loadFixed a0 a1 a2 a3 a4 a5) := by
  unfold loadFixed
  repeat' first
    | with_reducible assumption
    | with_reducible apply setKslot_keeps

theorem runLadder_keeps {a : State} (a0 : State) (a1 : Bytes) (h : Keeps a a0) : Keeps a (runLadder a0 a1) := by
  unfold runLadder
  repeat' first
    | with_reducible assumption
    | with_reducible apply loadFixed_keeps
    | with_reducible apply rsetBytes_keeps
    | extract_lets
    | with_reducible refine keeps_fst ‹_ = (_, _)› ?_
    | split
    | with_reducible apply keeps_mk

theorem bwdReset_keeps {a : State} (a0 : State) (h : Keeps a a0) : Keeps a (bwdReset a0) := by
  unfold bwdReset
  repeat' first
    | with_reducible assumption
    | with_reducible apply bwdLoad_keeps

theorem hardwarePhase_keeps {a : State} (a0 : State) (a1 : Bool) (a2 : Bool) (a3 : Word) (h : Keeps a a0) : Keeps a (hardwarePhase a0 a1 a2 a3) := by
  unfold hardwarePhase
  repeat' first
    | with_reducible assumption
    | with_reducible apply temSense_keeps
    | with_reducible apply fuseSense_keeps
    | with_reducible apply rsetb_keeps
    | with_reducible apply sampleStraps_keeps
    | with_reducible apply draw_keeps
    | with_reducible apply rsetBytes_keeps
    | with_reducible apply runLadder_keeps
    | with_reducible apply bwdReset_keeps
    | with_reducible apply keeps_foldl
    | with_reducible apply keeps_foldl1
    | extract_lets
    | with_reducible refine keeps_fst ‹_ = (_, _)› ?_
    | with_reducible refine keeps_fst3 ‹_ = (_, _, _)› ?_
    | with_reducible refine keeps_fst4 ‹_ = (_, _, _, _)› ?_
    | with_reducible refine keeps_fst5 ‹_ = (_, _, _, _, _)› ?_
    | with_reducible refine keeps_snd ‹_ = (_, _)› ?_
    | split
    | intro _
    | with_reducible apply keeps_mk

theorem pairStart_keeps {a : State} (a0 : State) (h : Keeps a a0) : Keeps a (pairStart a0) := by
  unfold pairStart
  repeat' first
    | with_reducible assumption
    | with_reducible apply tset_keeps
    | with_reducible apply modPair_keeps
    | extract_lets
    | split
    | intro _
    | with_reducible apply keeps_mk

theorem sideTrains_keeps {a : State} (a0 : State) (a1 : Nat) (h : Keeps a a0) : Keeps a (sideTrains a0 a1) := by
  unfold sideTrains
  repeat' first
    | with_reducible assumption
    | with_reducible apply tset_keeps
    | with_reducible apply setSide_keeps
    | split
    | with_reducible apply keeps_mk

theorem lmsStart_keeps {a : State} (a0 : State) (h : Keeps a a0) : Keeps a (lmsStart a0) := by
  unfold lmsStart
  repeat' first
    | with_reducible assumption
    | with_reducible apply draw_keeps
    | with_reducible apply tset_keeps
    | with_reducible apply sideTrains_keeps
    | with_reducible apply keeps_foldl
    | with_reducible apply keeps_foldl1
    | extract_lets
    | with_reducible refine keeps_fst ‹_ = (_, _)› ?_
    | with_reducible refine keeps_fst3 ‹_ = (_, _, _)› ?_
    | with_reducible refine keeps_fst4 ‹_ = (_, _, _, _)› ?_
    | with_reducible refine keeps_fst5 ‹_ = (_, _, _, _, _)› ?_
    | with_reducible refine keeps_snd ‹_ = (_, _)› ?_
    | split
    | intro _
    | with_reducible apply keeps_mk

theorem deviceEnds_keeps {a : State} (a0 : State) (a1 : Bool) (a2 : Word) (h : Keeps a a0) : Keeps a (deviceEnds a0 a1 a2) := by
  unfold deviceEnds
  repeat' first
    | with_reducible assumption
    | with_reducible apply rset_keeps
    | with_reducible apply portLeaveReset_keeps
    | with_reducible apply protoReset_keeps
    | with_reducible apply hardwarePhase_keeps
    | with_reducible apply pairStart_keeps
    | with_reducible apply lmsStart_keeps
    | with_reducible apply tset_keeps
    | with_reducible apply keeps_foldl
    | with_reducible apply keeps_foldl1
    | extract_lets
    | split
    | intro _
    | with_reducible apply keeps_mk

theorem fusAbandon_keeps {a : State} (a0 : State) (a1 : Word) (a2 : Word) (h : Keeps a a0) : Keeps a (fusAbandon a0 a1 a2) := by
  unfold fusAbandon
  repeat' first
    | with_reducible assumption
    | with_reducible apply pulsed_keeps
    | with_reducible apply tstop_keeps
    | extract_lets
    | with_reducible refine keeps_fst ‹_ = (_, _)› ?_
    | split
    | with_reducible apply keeps_mk

theorem afterDevice_keeps {a : State} (s : State) (p : RstPhase) (h : Keeps a s) : Keeps a (afterDevice s p) :=
  h.mems rfl rfl rfl rfl rfl rfl rfl rfl (Tbl.wf_filter _ _ _) (fun _ => rfl) (fun _ => rfl) (fun _ => rfl)

theorem freshCanary_keeps {a : State} (a0 : State) (h : Keeps a a0) : Keeps a (freshCanary a0) := by
  unfold freshCanary
  repeat' first
    | with_reducible assumption
    | with_reducible apply draw_keeps
    | with_reducible apply keeps_foldl
    | with_reducible apply keeps_foldl1
    | extract_lets
    | with_reducible refine keeps_fst ‹_ = (_, _)› ?_
    | with_reducible refine keeps_fst3 ‹_ = (_, _, _)› ?_
    | with_reducible refine keeps_fst4 ‹_ = (_, _, _, _)› ?_
    | with_reducible refine keeps_fst5 ‹_ = (_, _, _, _, _)› ?_
    | with_reducible refine keeps_snd ‹_ = (_, _)› ?_
    | split
    | intro _
    | with_reducible apply keeps_mk

theorem deviceBegins_keeps {a : State} (a0 : State) (a1 : Nat) (a2 : RstIn) (h : Keeps a a0) : Keeps a (deviceBegins a0 a1 a2) := by
  unfold deviceBegins
  repeat' first
    | with_reducible assumption
    | with_reducible apply cstFinish_keeps
    | with_reducible apply fusAbandon_keeps
    | with_reducible apply afterDevice_keeps
    | with_reducible apply freshCanary_keeps
    | with_reducible apply rset_keeps
    | extract_lets
    | split
    | intro _

theorem deviceReset_keeps {a : State} (a0 : State) (a1 : Nat) (a2 : RstIn) (h : Keeps a a0) : Keeps a (deviceReset a0 a1 a2) := by
  unfold deviceReset
  repeat' first
    | with_reducible assumption
    | with_reducible apply deviceEnds_keeps
    | with_reducible apply deviceBegins_keeps
    | split

theorem instancesGone_keeps {a : State} (a0 : State) (h : Keeps a a0) : Keeps a (instancesGone a0) := by
  unfold instancesGone
  repeat' first
    | with_reducible assumption
    | with_reducible apply setInst_keeps
    | with_reducible apply keeps_foldl
    | with_reducible apply keeps_foldl1
    | extract_lets
    | intro _

end Sys2Proof.Machine
end

