-- ==== Sys2Proof/Laws/Keeps3.lean ====
section
/-! SUPPORT. Laws/Keeps3.lean: each operation `f` of the machine keeps what `Keeps` speaks of (`f_keeps`), part 3 of 6. -/
namespace Sys2Proof.Machine

theorem controlSquash_keeps {a : State} (a0 : State) (a1 : Nat × Job) (h : Keeps a a0) : Keeps a (controlSquash a0 a1) := by
  unfold controlSquash
  repeat' first
    | with_reducible assumption
    | with_reducible apply sendFrame_keeps
    | with_reducible apply freeTag_keeps
    | with_reducible apply squash_keeps
    | extract_lets
    | with_reducible refine keeps_fst ‹_ = (_, _)› ?_
    | split

theorem setBulk_keeps {a : State} (a0 : State) (a1 : Nat) (a2 : Option Bulk) (h : Keeps a a0) : Keeps a (setBulk a0 a1 a2) := by
  unfold setBulk
  repeat' first
    | with_reducible assumption
    | extract_lets
    | intro _
    | with_reducible apply keeps_mk

theorem bulkEnd_keeps {a : State} (a0 : State) (a1 : Nat) (a2 : Nat) (h : Keeps a a0) : Keeps a (bulkEnd a0 a1 a2) := by
  unfold bulkEnd
  repeat' first
    | with_reducible assumption
    | with_reducible apply setPeer_keeps
    | with_reducible apply tstop_keeps
    | with_reducible apply setBulk_keeps
    | with_reducible apply irq_keeps
    | with_reducible apply rset_keeps
    | extract_lets
    | with_reducible refine keeps_fst ‹_ = (_, _)› ?_
    | split
    | intro _
    | with_reducible apply keeps_mk

theorem bulksReset_keeps {a : State} (a0 : State) (h : Keeps a a0) : Keeps a (bulksReset a0) := by
  unfold bulksReset
  repeat' first
    | with_reducible assumption
    | with_reducible apply bulkEnd_keeps
    | with_reducible apply keeps_foldl
    | with_reducible apply keeps_foldl1
    | extract_lets
    | intro _

theorem zeroiseSlots_keeps {a : State} (a0 : State) (a1 : Bool) (h : Keeps a a0) : Keeps a (zeroiseSlots a0 a1) := by
  unfold zeroiseSlots
  repeat' first
    | with_reducible assumption
    | extract_lets
    | intro _
    | with_reducible apply keeps_mk

theorem stopTimers_keeps {a : State} (a0 : State) (a1 : Timer → Bool) (h : Keeps a a0) : Keeps a (stopTimers a0 a1) := by
  unfold stopTimers
  repeat' first
    | with_reducible assumption
    | extract_lets
    | intro _
    | with_reducible apply keeps_mk

theorem clearControlPages_keeps {a : State} (a0 : State) (h : Keeps a a0) : Keeps a (clearControlPages a0) := by
  unfold clearControlPages
  repeat' first
    | with_reducible assumption
    | with_reducible apply pageClear_keeps
    | with_reducible apply rset_keeps
    | with_reducible apply keeps_foldl
    | with_reducible apply keeps_foldl1
    | extract_lets
    | intro _

theorem controlReset_keeps {a : State} (a0 : State) (a1 : Nat) (a2 : RstIn) (h : Keeps a a0) : Keeps a (controlReset a0 a1 a2) := by
  unfold controlReset
  repeat' first
    | with_reducible assumption
    | with_reducible apply rcount_keeps
    | with_reducible apply rsetf_keeps
    | with_reducible apply setPwrState_keeps
    | with_reducible apply backToRun_keeps
    | with_reducible apply instancesGone_keeps
    | with_reducible apply controlSquash_keeps
    | with_reducible apply dropPrgs_keeps
    | with_reducible apply bulksReset_keeps
    | with_reducible apply cstFinish_keeps
    | with_reducible apply fusAbandon_keeps
    | with_reducible apply zeroiseSlots_keeps
    | with_reducible apply stopTimers_keeps
    | with_reducible apply clearControlPages_keeps
    | with_reducible apply hardwarePhase_keeps
    | with_reducible apply keeps_foldl
    | with_reducible apply keeps_foldl1
    | extract_lets
    | split
    | intro _
    | with_reducible apply keeps_mk

theorem stopAllPortTimers_keeps {a : State} (a0 : State) (a1 : Nat) (h : Keeps a a0) : Keeps a (stopAllPortTimers a0 a1) := by
  unfold stopAllPortTimers
  repeat' first
    | with_reducible assumption
    | with_reducible apply stopPortTimers_keeps
    | with_reducible apply tstop_keeps
    | extract_lets

theorem portReset_keeps {a : State} (a0 : State) (a1 : Nat) (h : Keeps a a0) : Keeps a (portReset a0 a1) := by
  unfold portReset
  repeat' first
    | with_reducible assumption
    | with_reducible apply stopAllPortTimers_keeps
    | with_reducible apply freeFrames_keeps
    | with_reducible apply endBound_keeps
    | with_reducible apply pageClear_keeps
    | with_reducible apply setPort_keeps
    | with_reducible apply mclear_keeps
    | with_reducible apply protoReset_keeps
    | with_reducible apply keeps_foldl
    | with_reducible apply keeps_foldl1
    | extract_lets
    | intro _

theorem portReset'_keeps {a : State} (a0 : State) (a1 : Nat) (h : Keeps a a0) : Keeps a (portReset' a0 a1) := by
  unfold portReset'
  repeat' first
    | with_reducible assumption
    | with_reducible apply rsetf_keeps
    | with_reducible apply portLeaveReset_keeps
    | with_reducible apply portReset_keeps
    | extract_lets
    | split

theorem rstReqWrite_keeps {a : State} (a0 : State) (a1 : WCtx) (a2 : RstIn) (h : Keeps a a0) : Keeps a (rstReqWrite a0 a1 a2) := by
  unfold rstReqWrite
  repeat' first
    | with_reducible assumption
    | with_reducible apply bootErr_keeps
    | with_reducible apply deviceReset_keeps
    | with_reducible apply controlReset_keeps
    | with_reducible apply portReset'_keeps
    | with_reducible refine keeps_fst ‹_ = (_, _)› ?_
    | split

theorem lcCmdWrite_keeps {a : State} (a0 : State) (a1 : WCtx) (a2 : RstIn) (h : Keeps a a0) : Keeps a (lcCmdWrite a0 a1 a2) := by
  unfold lcCmdWrite
  repeat' first
    | with_reducible assumption
    | with_reducible apply bootErr_keeps
    | with_reducible apply controlReset_keeps
    | with_reducible apply rsetb_keeps
    | split

theorem releaseDill_keeps {a : State} (a0 : State) (a1 : Nat) (h : Keeps a a0) : Keeps a (releaseDill a0 a1) := by
  unfold releaseDill
  repeat' first
    | with_reducible assumption
    | with_reducible apply irq_keeps
    | with_reducible apply bootErr_keeps
    | with_reducible apply rsetf_keeps
    | with_reducible apply rsetb_keeps
    | with_reducible refine keeps_fst ‹_ = (_, _)› ?_
    | split

theorem coreReleaseWrite_keeps {a : State} (a0 : State) (a1 : WCtx) (h : Keeps a a0) : Keeps a (coreReleaseWrite a0 a1) := by
  unfold coreReleaseWrite
  repeat' first
    | with_reducible assumption
    | with_reducible apply releaseDill_keeps
    | with_reducible apply keeps_foldl
    | with_reducible apply keeps_foldl1
    | extract_lets
    | intro _

theorem bwdRetire_keeps {a : State} (a0 : State) (h : Keeps a a0) : Keeps a (bwdRetire a0) := by
  unfold bwdRetire
  repeat' first
    | with_reducible assumption
    | with_reducible apply irq_keeps
    | with_reducible apply rsetf_keeps
    | with_reducible apply tstop_keeps

theorem healthWrite_keeps {a : State} (a0 : State) (a1 : WCtx) (h : Keeps a a0) : Keeps a (healthWrite a0 a1) := by
  unfold healthWrite
  repeat' first
    | with_reducible assumption
    | with_reducible apply bootErr_keeps
    | with_reducible apply bwdRetire_keeps
    | split

theorem busyW_keeps {a : State} (a0 : State) (a1 : WCtx) (h : Keeps a a0) : Keeps a (busyW a0 a1) := by
  unfold busyW
  repeat' first
    | with_reducible assumption
    | with_reducible apply busLog_keeps

theorem bfEnd_keeps {a : State} (a0 : State) (a1 : Nat) (h : Keeps a a0) : Keeps a (bfEnd a0 a1) := by
  unfold bfEnd
  repeat' first
    | with_reducible assumption
    | with_reducible apply tstop_keeps
    | with_reducible apply rset_keeps
    | with_reducible apply irq_keeps
    | with_reducible apply bootErr_keeps
    | extract_lets
    | split
    | with_reducible apply keeps_mk

theorem bfIssue_keeps {a : State} (a0 : State) (a1 : BfRun) (h : Keeps a a0) : Keeps a (bfIssue a0 a1) := by
  unfold bfIssue
  repeat' first
    | with_reducible assumption
    | with_reducible apply emit_keeps
    | with_reducible apply tset_keeps
    | extract_lets
    | with_reducible refine keeps_fst ‹_ = (_, _)› ?_
    | split
    | with_reducible apply keeps_mk

theorem bfCmdWrite_keeps {a : State} (a0 : State) (a1 : WCtx) (h : Keeps a a0) : Keeps a (bfCmdWrite a0 a1) := by
  unfold bfCmdWrite
  dsimp only
  repeat' first
    | with_reducible assumption
    | with_reducible apply busyW_keeps
    | with_reducible apply bfEnd_keeps
    | with_reducible apply rset_keeps
    | with_reducible apply bfIssue_keeps
    | extract_lets
    | split
    | with_reducible apply keeps_mk

theorem bootWrite_keeps {a : State} (a0 : BusIn) (a1 : State) (a2 : WCtx) (h : Keeps a a1) : Keeps a (bootWrite a0 a1 a2) := by
  unfold bootWrite
  repeat' first
    | with_reducible assumption
    | with_reducible apply rstReqWrite_keeps
    | with_reducible apply lcCmdWrite_keeps
    | with_reducible apply rsetb_keeps
    | with_reducible apply storeW_keeps
    | with_reducible apply coreReleaseWrite_keeps
    | with_reducible apply healthWrite_keeps
    | with_reducible apply bfCmdWrite_keeps
    | extract_lets
    | split

theorem tbWrite_keeps {a : State} (a0 : State) (a1 : WCtx) (h : Keeps a a0) : Keeps a (tbWrite a0 a1) := by
  unfold tbWrite
  repeat' first
    | with_reducible assumption
    | with_reducible apply storeW_keeps
    | with_reducible apply rsetb_keeps
    | with_reducible apply busyW_keeps
    | with_reducible apply tset_keeps
    | with_reducible apply rset_keeps
    | extract_lets
    | with_reducible refine keeps_fst ‹_ = (_, _)› ?_
    | split
    | with_reducible apply keeps_mk

theorem ownPush_keeps {a : State} (a0 : State) (a1 : Nat) (h : Keeps a a0) : Keeps a (ownPush a0 a1) := by
  unfold ownPush
  repeat' first
    | with_reducible assumption
    | with_reducible apply rsetf_keeps

theorem releasePush_keeps {a : State} (a0 : State) (h : Keeps a a0) : Keeps a (releasePush a0) := by
  unfold releasePush
  repeat' first
    | with_reducible assumption
    | with_reducible apply ownPush_keeps
    | with_reducible apply keeps_bootEmpty
    | split
    | with_reducible apply keeps_mk

theorem configReset_keeps {a : State} (a0 : State) (h : Keeps a a0) : Keeps a (configReset a0) := by
  unfold configReset
  repeat' first
    | with_reducible assumption
    | with_reducible apply keeps_mk

theorem endpointReset_keeps {a : State} (a0 : State) (h : Keeps a a0) : Keeps a (endpointReset a0) := by
  unfold endpointReset
  repeat' first
    | with_reducible assumption
    | with_reducible apply removeInst_keeps
    | with_reducible apply bulksReset_keeps
    | with_reducible apply releasePush_keeps
    | with_reducible apply configReset_keeps
    | with_reducible apply keeps_foldl
    | with_reducible apply keeps_foldl1
    | extract_lets
    | intro _

theorem linkLost_keeps {a : State} (a0 : State) (h : Keeps a a0) : Keeps a (linkLost a0) := by
  unfold linkLost
  repeat' first
    | with_reducible assumption
    | with_reducible apply rsetf_keeps
    | with_reducible apply irq_keeps
    | extract_lets
    | split

theorem linkDown_keeps {a : State} (a0 : State) (h : Keeps a a0) : Keeps a (linkDown a0) := by
  unfold linkDown
  repeat' first
    | with_reducible assumption
    | with_reducible apply endpointReset_keeps
    | with_reducible apply linkLost_keeps

theorem ringNote_keeps {a : State} (a0 : State) (a1 : State) (h : Keeps a a1) : Keeps a (ringNote a0 a1) := by
  unfold ringNote
  repeat' first
    | with_reducible assumption
    | with_reducible apply irq_keeps
    | split

theorem sideLost_keeps {a : State} (a0 : State) (a1 : Nat) (a2 : SideSt) (h : Keeps a a0) : Keeps a (sideLost a0 a1 a2) := by
  unfold sideLost
  repeat' first
    | with_reducible assumption
    | with_reducible apply tstop_keeps
    | with_reducible apply setSide_keeps
    | with_reducible apply rset_keeps
    | with_reducible apply rcount_keeps
    | with_reducible apply linkEvent_keeps
    | with_reducible apply irq_keeps
    | extract_lets
    | split
    | with_reducible apply keeps_mk

theorem sideDown_keeps {a : State} (a0 : State) (a1 : Nat) (h : Keeps a a0) : Keeps a (sideDown a0 a1) := by
  unfold sideDown
  repeat' first
    | with_reducible assumption
    | with_reducible apply tstop_keeps
    | with_reducible apply sideLost_keeps
    | split

theorem domsOff_keeps {a : State} (a0 : State) (a1 : Word) (h : Keeps a a0) : Keeps a (domsOff a0 a1) := by
  unfold domsOff
  repeat' first
    | with_reducible assumption
    | extract_lets
    | with_reducible refine keeps_fst ‹_ = (_, _)› ?_
    | split
    | intro _
    | with_reducible apply keeps_mk

theorem domainOff_keeps {a : State} (a0 : State) (a1 : Nat) (h : Keeps a a0) : Keeps a (domainOff a0 a1) := by
  unfold domainOff
  repeat' first
    | with_reducible assumption
    | with_reducible apply linkDown_keeps
    | with_reducible apply ringNote_keeps
    | with_reducible apply sideDown_keeps
    | with_reducible apply stopAllPortTimers_keeps
    | with_reducible apply tstop_keeps
    | with_reducible apply domsOff_keeps
    | with_reducible apply keeps_dillEmpty
    | extract_lets
    | split
    | with_reducible apply keeps_mk

theorem switchNext_keeps {a : State} (a0 : State) (a1 : List (Nat × Bool)) (h : Keeps a a0) : Keeps a (switchNext a0 a1) := by
  induction a1 generalizing a0 with
  | nil => exact keeps_mk h
  | cons b t ih =>
    unfold switchNext
    repeat' first
      | with_reducible apply ih
      | with_reducible assumption
      | with_reducible apply domainOff_keeps
      | with_reducible apply report_keeps
      | split
      | with_reducible apply keeps_mk

theorem domainWrite_keeps {a : State} (a0 : State) (a1 : WCtx) (h : Keeps a a0) : Keeps a (domainWrite a0 a1) := by
  unfold domainWrite
  repeat' first
    | with_reducible assumption
    | with_reducible apply busyW_keeps
    | with_reducible apply report_keeps
    | with_reducible apply rset_keeps
    | with_reducible apply switchNext_keeps
    | with_reducible apply keeps_foldl
    | with_reducible apply keeps_foldl1
    | extract_lets
    | split
    | intro _

theorem restWrite_keeps {a : State} (a0 : State) (a1 : WCtx) (h : Keeps a a0) : Keeps a (restWrite a0 a1) := by
  unfold restWrite
  repeat' first
    | with_reducible assumption
    | with_reducible apply restCode_keeps
    | with_reducible apply setPwrState_keeps
    | with_reducible apply rsetf_keeps
    | with_reducible refine keeps_fst ‹_ = (_, _)› ?_
    | split
    | with_reducible apply keeps_mk

theorem pwrWrite_keeps {a : State} (a0 : State) (a1 : WCtx) (h : Keeps a a0) : Keeps a (pwrWrite a0 a1) := by
  unfold pwrWrite
  repeat' first
    | with_reducible assumption
    | with_reducible apply domainWrite_keeps
    | with_reducible apply restWrite_keeps
    | with_reducible apply storeW_keeps
    | with_reducible refine keeps_fst ‹_ = (_, _)› ?_
    | split

theorem evhWrite_keeps {a : State} (a0 : State) (a1 : WCtx) (h : Keeps a a0) : Keeps a (evhWrite a0 a1) := by
  unfold evhWrite
  repeat' first
    | with_reducible assumption
    | with_reducible apply storeW_keeps
    | with_reducible apply tstop_keeps
    | with_reducible apply tset_keeps
    | with_reducible apply keeps_foldl
    | with_reducible apply keeps_foldl1
    | extract_lets
    | split
    | intro _

theorem routeWrite_keeps {a : State} (a0 : Nat) (a1 : State) (a2 : WCtx) (h : Keeps a a1) : Keeps a (routeWrite a0 a1 a2) := by
  unfold routeWrite
  repeat' first
    | with_reducible assumption
    | with_reducible apply refuseW_keeps
    | with_reducible apply storeW_keeps
    | extract_lets
    | split
    | with_reducible apply keeps_mk

theorem bwdWrite_keeps {a : State} (a0 : State) (a1 : WCtx) (h : Keeps a a0) : Keeps a (bwdWrite a0 a1) := by
  unfold bwdWrite
  repeat' first
    | with_reducible assumption
    | with_reducible apply refuseW_keeps
    | with_reducible apply bwdLoad_keeps
    | with_reducible apply storeW_keeps
    | with_reducible apply rsetf_keeps
    | extract_lets
    | split

theorem twdFreeze_keeps {a : State} (a0 : State) (h : Keeps a a0) : Keeps a (twdFreeze a0) := by
  unfold twdFreeze
  repeat' first
    | with_reducible assumption
    | with_reducible apply rsetb_keeps
    | with_reducible apply tstop_keeps
    | with_reducible apply tset_keeps
    | extract_lets
    | with_reducible refine keeps_fst ‹_ = (_, _)› ?_
    | split
    | with_reducible apply keeps_mk

theorem twdArm_keeps {a : State} (a0 : State) (a1 : WCtx) (h : Keeps a a0) : Keeps a (twdArm a0 a1) := by
  unfold twdArm
  repeat' first
    | with_reducible assumption
    | with_reducible apply twdFreeze_keeps
    | with_reducible apply storeW_keeps
    | with_reducible apply tset_keeps
    | with_reducible apply rsetf_keeps
    | with_reducible apply bwdRetire_keeps
    | extract_lets
    | split
    | with_reducible apply keeps_mk

theorem twdCheckin_keeps {a : State} (a0 : State) (a1 : WCtx) (h : Keeps a a0) : Keeps a (twdCheckin a0 a1) := by
  unfold twdCheckin
  repeat' first
    | with_reducible assumption
    | with_reducible apply refuseW_keeps
    | with_reducible apply twdForeign_keeps
    | with_reducible apply busLog_keeps
    | with_reducible apply irq_keeps
    | with_reducible apply rsetb_keeps
    | extract_lets
    | split

theorem twdWrite_keeps {a : State} (a0 : State) (a1 : WCtx) (h : Keeps a a0) : Keeps a (twdWrite a0 a1) := by
  unfold twdWrite
  repeat' first
    | with_reducible assumption
    | with_reducible apply twdArm_keeps
    | with_reducible apply twdCheckin_keeps
    | with_reducible apply refuseW_keeps
    | with_reducible apply storeW_keeps
    | with_reducible apply twdFreeze_keeps
    | extract_lets
    | split

theorem loadToken_keeps {a : State} (a0 : State) (a1 : Bytes) (h : Keeps a a0) : Keeps a (loadToken a0 a1) := by
  unfold loadToken
  repeat' first
    | with_reducible assumption
    | with_reducible apply rsetb_keeps
    | with_reducible apply keeps_mk

theorem temWrite_keeps {a : State} (a0 : State) (a1 : WCtx) (h : Keeps a a0) : Keeps a (temWrite a0 a1) := by
  unfold temWrite
  repeat' first
    | with_reducible assumption
    | with_reducible apply refuseW_keeps
    | with_reducible apply loadToken_keeps
    | with_reducible apply storeW_keeps
    | extract_lets
    | split

theorem fusEnd_keeps {a : State} (a0 : State) (a1 : Nat) (a2 : Nat) (a3 : Nat) (h : Keeps a a0) : Keeps a (fusEnd a0 a1 a2 a3) := by
  unfold fusEnd
  repeat' first
    | with_reducible assumption
    | with_reducible apply tstop_keeps
    | with_reducible apply rset_keeps
    | with_reducible apply irq_keeps
    | with_reducible apply report_keeps
    | extract_lets
    | split
    | with_reducible apply keeps_mk

theorem senseWeak_keeps {a : State} (a0 : State × Bool) (a1 : Nat) (h : Keeps a a0.1) : Keeps a (senseWeak a0 a1).1 := by
  unfold senseWeak
  repeat' first
    | with_reducible assumption
    | with_reducible apply senseWord_keeps
    | extract_lets
    | with_reducible refine keeps_fst ‹_ = (_, _)› ?_
    | split

theorem senseBank_keeps {a : State} (a0 : State) (a1 : Nat) (h : Keeps a a0) : Keeps a (senseBank a0 a1).1 := by
  unfold senseBank
  repeat' first
    | with_reducible assumption
    | with_reducible apply senseWeak_keeps
    | with_reducible apply keeps_foldl
    | with_reducible apply keeps_foldl1
    | extract_lets
    | intro _

theorem strictCheck_keeps {a : State} (a0 : State) (a1 : Nat) (h : Keeps a a0) : Keeps a (strictCheck a0 a1) := by
  unfold strictCheck
  repeat' first
    | with_reducible assumption
    | with_reducible apply senseBank_keeps
    | with_reducible apply rsetb_keeps
    | extract_lets
    | with_reducible refine keeps_fst ‹_ = (_, _)› ?_
    | split

theorem fusRun_keeps {a : State} (s : State) (n w : Nat) (l : List FusStep) (h : Keeps a s) : Keeps a (fusRun s n w l) := by
  induction l generalizing s w with
  | nil => exact fusEnd_keeps _ _ _ _ h
  | cons b t ih =>
    unfold fusRun
    extract_lets s1
    have h1 : Keeps a s1 := by
      unfold s1
      split
      · with_reducible exact strictCheck_keeps _ _ h
      · exact h
    split
    · with_reducible exact fusEnd_keeps _ _ _ _ h1
    · split
      · with_reducible exact ih _ _ h1
      · extract_lets s2
        have h2 : Keeps a s2 := keeps_mk h1
        split
        · with_reducible exact h2
        · with_reducible exact tset_keeps _ _ _ h2

theorem fusCmdWrite_keeps {a : State} (a0 : State) (a1 : WCtx) (h : Keeps a a0) : Keeps a (fusCmdWrite a0 a1) := by
  unfold fusCmdWrite
  repeat' first
    | with_reducible assumption
    | with_reducible apply busyW_keeps
    | with_reducible apply fusEnd_keeps
    | with_reducible apply senseWord_keeps
    | with_reducible apply rset_keeps
    | with_reducible apply fusRun_keeps
    | with_reducible apply draw_keeps
    | with_reducible apply strictCheck_keeps
    | extract_lets
    | with_reducible refine keeps_fst ‹_ = (_, _)› ?_
    | split

theorem fusWrite_keeps {a : State} (a0 : State) (a1 : WCtx) (h : Keeps a a0) : Keeps a (fusWrite a0 a1) := by
  unfold fusWrite
  repeat' first
    | with_reducible assumption
    | with_reducible apply fusCmdWrite_keeps
    | with_reducible apply storeW_keeps
    | split

theorem cstCmdWrite_keeps {a : State} (a0 : State) (a1 : Nat) (a2 : WCtx) (h : Keeps a a0) : Keeps a (cstCmdWrite a0 a1 a2) := by
  unfold cstCmdWrite
  repeat' first
    | with_reducible assumption
    | with_reducible apply busyW_keeps
    | with_reducible apply coreCstEnds_keeps
    | with_reducible apply rset_keeps
    | extract_lets
    | split
    | with_reducible apply keeps_mk

theorem cstWrite_keeps {a : State} (a0 : State) (a1 : WCtx) (h : Keeps a a0) : Keeps a (cstWrite a0 a1) := by
  unfold cstWrite
  repeat' first
    | with_reducible assumption
    | with_reducible apply storeW_keeps
    | with_reducible apply refuseW_keeps
    | with_reducible apply cstCmdWrite_keeps
    | extract_lets
    | split

theorem svcFirmware_keeps {a : State} (a0 : State) (a1 : SvcReq) (h : Keeps a a0) : Keeps a (svcFirmware a0 a1) := by
  unfold svcFirmware
  repeat' first
    | with_reducible assumption
    | with_reducible apply answer_keeps
    | with_reducible apply rset_keeps
    | with_reducible apply rsetBytes_keeps
    | with_reducible apply irq_keeps
    | extract_lets
    | split
    | with_reducible apply keeps_mk

theorem svcBaud_keeps {a : State} (a0 : State) (a1 : SvcReq) (a2 : Bool) (h : Keeps a a0) : Keeps a (svcBaud a0 a1 a2) := by
  unfold svcBaud
  repeat' first
    | with_reducible assumption
    | with_reducible apply answer_keeps
    | with_reducible apply tset_keeps
    | extract_lets
    | split
    | with_reducible apply keeps_mk

theorem svcOpen_keeps {a : State} (a0 : State) (a1 : SvcReq) (h : Keeps a a0) : Keeps a (svcOpen a0 a1) := by
  unfold svcOpen
  repeat' first
    | with_reducible assumption
    | with_reducible apply answer_keeps
    | with_reducible apply tset_keeps
    | with_reducible apply irq_keeps
    | extract_lets
    | split
    | with_reducible apply keeps_mk

theorem stageBlock_keeps {a : State} (a0 : State) (a1 : Nat) (a2 : Bytes) (h : Keeps a a0) : Keeps a (stageBlock a0 a1 a2) := by
  unfold stageBlock
  repeat' first
    | with_reducible assumption
    | with_reducible apply emit_keeps
    | with_reducible apply keeps_foldl
    | with_reducible apply keeps_foldl1
    | extract_lets
    | split
    | intro _
    | with_reducible apply keeps_mk

theorem svcData_keeps {a : State} (a0 : State) (a1 : SvcReq) (h : Keeps a a0) : Keeps a (svcData a0 a1) := by
  unfold svcData
  repeat' first
    | with_reducible assumption
    | with_reducible apply answer_keeps
    | with_reducible apply refuseBlock_keeps
    | with_reducible apply rcount_keeps
    | with_reducible apply stageBlock_keeps
    | extract_lets
    | split
    | with_reducible apply keeps_mk

theorem pushBytes_keeps {a : State} (a0 : State) (a1 : Nat) (a2 : Nat) (a3 : List (Option Byte)) (h : Keeps a a0) : Keeps a (pushBytes a0 a1 a2 a3) := by
  unfold pushBytes
  repeat' first
    | with_reducible assumption
    | with_reducible apply ownPush_keeps
    | with_reducible apply keeps_bootBytes
    | with_reducible apply keeps_mk

theorem svcPush_keeps {a : State} (a0 : State) (a1 : SvcReq) (h : Keeps a a0) : Keeps a (svcPush a0 a1) := by
  unfold svcPush
  repeat' first
    | with_reducible assumption
    | with_reducible apply answer_keeps
    | with_reducible apply pushBytes_keeps
    | extract_lets
    | split

theorem svcExecute_keeps {a : State} (a0 : State) (a1 : SvcReq) (a2 : Bool) (h : Keeps a a0) : Keeps a (svcExecute a0 a1 a2) := by
  unfold svcExecute
  repeat' first
    | with_reducible assumption
    | with_reducible apply answer_keeps
    | with_reducible apply rcount_keeps
    | with_reducible apply svcFirmware_keeps
    | with_reducible apply svcBaud_keeps
    | with_reducible apply svcOpen_keeps
    | with_reducible apply svcData_keeps
    | with_reducible apply endSession_keeps
    | with_reducible apply svcPush_keeps
    | with_reducible refine keeps_fst ‹_ = (_, _)› ?_
    | split

theorem svcDrain_keeps {a : State} (a0 : State) (a1 : Nat) (h : Keeps a a0) : Keeps a (svcDrain a0 a1) := by
  induction a1 generalizing a0 with
  | zero => exact h
  | succ k ih =>
    unfold svcDrain
    repeat' first
      | with_reducible apply ih
      | with_reducible assumption
      | with_reducible apply svcExecute_keeps
      | extract_lets
      | with_reducible refine keeps_fst ‹_ = (_, _)› ?_
      | split
      | with_reducible apply keeps_mk

theorem svcAnswerWrite_keeps {a : State} (a0 : State) (a1 : WCtx) (h : Keeps a a0) : Keeps a (svcAnswerWrite a0 a1) := by
  unfold svcAnswerWrite
  repeat' first
    | with_reducible assumption
    | with_reducible apply refuseW_keeps
    | with_reducible apply answer_keeps
    | with_reducible apply svcDrain_keeps
    | extract_lets
    | with_reducible refine keeps_fst ‹_ = (_, _)› ?_
    | split
    | with_reducible apply keeps_mk

theorem svcWrite_keeps {a : State} (a0 : State) (a1 : WCtx) (h : Keeps a a0) : Keeps a (svcWrite a0 a1) := by
  unfold svcWrite
  repeat' first
    | with_reducible assumption
    | with_reducible apply svcAnswerWrite_keeps
    | with_reducible apply storeW_keeps
    | split

theorem rxView_keeps {a : State} (a0 : State) (h : Keeps a a0) : Keeps a (rxView a0) := by
  unfold rxView
  repeat' first
    | with_reducible assumption
    | with_reducible apply rsetf_keeps
    | with_reducible apply rsetBytes_keeps
    | extract_lets

theorem withdraw_keeps {a : State} (a0 : State) (h : Keeps a a0) : Keeps a (withdraw a0) := by
  unfold withdraw
  repeat' first
    | with_reducible assumption
    | with_reducible apply tstop_keeps
    | with_reducible apply irq_keeps
    | with_reducible apply report_keeps
    | with_reducible apply rset_keeps
    | extract_lets
    | with_reducible apply keeps_mk

theorem i3cTxWrite_keeps {a : State} (a0 : State) (a1 : WCtx) (h : Keeps a a0) : Keeps a (i3cTxWrite a0 a1) := by
  unfold i3cTxWrite
  repeat' first
    | with_reducible assumption
    | with_reducible apply withdraw_keeps
    | with_reducible apply refuseW_keeps
    | with_reducible apply rsetf_keeps
    | with_reducible apply tset_keeps
    | extract_lets
    | split
    | with_reducible apply keeps_mk

theorem i3cWrite_keeps {a : State} (a0 : State) (a1 : WCtx) (h : Keeps a a0) : Keeps a (i3cWrite a0 a1) := by
  unfold i3cWrite
  repeat' first
    | with_reducible assumption
    | with_reducible apply rxView_keeps
    | with_reducible apply i3cTxWrite_keeps
    | with_reducible apply refuseW_keeps
    | with_reducible apply storeW_keeps
    | extract_lets
    | split
    | with_reducible apply keeps_mk

theorem pciWrite_keeps {a : State} (a0 : State) (a1 : WCtx) (h : Keeps a a0) : Keeps a (pciWrite a0 a1) := by
  unfold pciWrite
  repeat' first
    | with_reducible assumption
    | with_reducible apply refuseW_keeps
    | with_reducible apply storeW_keeps
    | split

theorem tlimit_keeps {a : State} (a0 : State) (a1 : Timer) (a2 : Nat) (a3 : Nat) (h : Keeps a a0) : Keeps a (tlimit a0 a1 a2 a3) := by
  unfold tlimit
  repeat' first
    | with_reducible assumption
    | with_reducible apply tset_keeps
    | with_reducible refine keeps_fst ‹_ = (_, _)› ?_
    | split

theorem pairCfgWrite_keeps {a : State} (a0 : State) (a1 : WCtx) (h : Keeps a a0) : Keeps a (pairCfgWrite a0 a1) := by
  unfold pairCfgWrite
  repeat' first
    | with_reducible assumption
    | with_reducible apply storeW_keeps
    | with_reducible apply tlimit_keeps
    | extract_lets

theorem pairRequest_keeps {a : State} (a0 : State) (a1 : Nat) (h : Keeps a a0) : Keeps a (pairRequest a0 a1) := by
  unfold pairRequest
  repeat' first
    | with_reducible assumption
    | with_reducible apply draw_keeps
    | with_reducible apply rsetBytes_keeps
    | with_reducible apply rset_keeps
    | with_reducible apply rsetf_keeps
    | with_reducible apply rsetb_keeps
    | with_reducible apply tset_keeps
    | with_reducible apply sendPair_keeps
    | with_reducible apply irq_keeps
    | with_reducible apply keeps_foldl
    | with_reducible apply keeps_foldl1
    | extract_lets
    | with_reducible refine keeps_fst ‹_ = (_, _)› ?_
    | with_reducible refine keeps_fst3 ‹_ = (_, _, _)› ?_
    | with_reducible refine keeps_fst4 ‹_ = (_, _, _, _)› ?_
    | with_reducible refine keeps_fst5 ‹_ = (_, _, _, _, _)› ?_
    | with_reducible refine keeps_snd ‹_ = (_, _)› ?_
    | split
    | intro _
    | with_reducible apply keeps_mk

theorem reqCmdWrite_keeps {a : State} (a0 : State) (a1 : WCtx) (h : Keeps a a0) : Keeps a (reqCmdWrite a0 a1) := by
  unfold reqCmdWrite
  repeat' first
    | with_reducible assumption
    | with_reducible apply refuseW_keeps
    | with_reducible apply pairRequest_keeps
    | extract_lets
    | split

theorem warmWrite_keeps {a : State} (a0 : State) (a1 : WCtx) (h : Keeps a a0) : Keeps a (warmWrite a0 a1) := by
  unfold warmWrite
  repeat' first
    | with_reducible assumption
    | with_reducible apply refuseW_keeps
    | with_reducible apply modPort_keeps
    | with_reducible apply keeps_foldl
    | with_reducible apply keeps_foldl1
    | extract_lets
    | split
    | intro _
    | with_reducible apply keeps_mk

theorem pairCount_keeps {a : State} (a0 : State) (a1 : Bool) (a2 : Nat) (a3 : Nat) (h : Keeps a a0) : Keeps a (pairCount a0 a1 a2 a3).1 := by
  unfold pairCount
  repeat' first
    | with_reducible assumption
    | with_reducible apply cstApply_keeps
    | extract_lets

theorem ownPut_keeps {a : State} (a0 : State) (a1 : Nat) (a2 : Own) (a3 : Nat × Nat) (h : Keeps a a0) : Keeps a (ownPut a0 a1 a2 a3) := by
  unfold ownPut
  repeat' first
    | with_reducible assumption
    | with_reducible apply modPort_keeps
    | extract_lets
    | intro _
    | with_reducible apply keeps_mk

theorem takeSeen_keeps {a : State} (a0 : State) (a1 : Nat) (h : Keeps a a0) : Keeps a (takeSeen a0 a1) := by
  unfold takeSeen
  repeat' first
    | with_reducible assumption
    | with_reducible apply ownPut_keeps
    | with_reducible apply modPort_keeps
    | with_reducible apply keeps_foldl
    | with_reducible apply keeps_foldl1
    | extract_lets
    | with_reducible refine keeps_fst ‹_ = (_, _)› ?_
    | split
    | intro _
    | with_reducible apply keeps_mk

theorem portBeginsDrive_keeps {a : State} (a0 : State) (a1 : Nat) (h : Keeps a a0) : Keeps a (portBeginsDrive a0 a1) := by
  unfold portBeginsDrive
  repeat' first
    | with_reducible assumption
    | with_reducible apply startRelease_keeps
    | with_reducible apply holdPins_keeps
    | with_reducible apply tstop_keeps
    | with_reducible apply tset_keeps
    | with_reducible apply takeSeen_keeps
    | with_reducible apply keeps_foldl
    | with_reducible apply keeps_foldl1
    | extract_lets
    | with_reducible refine keeps_fst ‹_ = (_, _)› ?_
    | split
    | intro _
    | with_reducible apply keeps_mk

theorem portStopsDrive_keeps {a : State} (a0 : State) (a1 : Nat) (h : Keeps a a0) : Keeps a (portStopsDrive a0 a1) := by
  unfold portStopsDrive
  repeat' first
    | with_reducible assumption
    | with_reducible apply modPort_keeps
    | extract_lets
    | with_reducible refine keeps_fst ‹_ = (_, _)› ?_
    | split
    | intro _
    | with_reducible apply keeps_mk

theorem followRule_keeps {a : State} (a0 : State) (h : Keeps a a0) : Keeps a (followRule a0) := by
  unfold followRule
  repeat' first
    | with_reducible assumption
    | with_reducible apply irq_keeps
    | with_reducible apply portBeginsDrive_keeps
    | with_reducible apply modPair_keeps
    | with_reducible apply portStopsDrive_keeps
    | with_reducible apply keeps_foldl
    | with_reducible apply keeps_foldl1
    | extract_lets
    | split
    | intro _
    | with_reducible apply keeps_mk

theorem endClaim_keeps {a : State} (a0 : State) (a1 : Nat) (h : Keeps a a0) : Keeps a (endClaim a0 a1) := by
  unfold endClaim
  repeat' first
    | with_reducible assumption
    | with_reducible apply modPair_keeps
    | with_reducible apply tstop_keeps
    | with_reducible apply followRule_keeps
    | with_reducible apply irq_keeps
    | with_reducible apply hwExtend_keeps
    | extract_lets
    | split
    | intro _
    | with_reducible apply keeps_mk

theorem pairEval_keeps {a : State} (a0 : State) (h : Keeps a a0) : Keeps a (pairEval a0) := by
  unfold pairEval
  repeat' first
    | with_reducible assumption
    | with_reducible apply endClaim_keeps
    | with_reducible apply irq_keeps
    | with_reducible apply report_keeps
    | with_reducible apply followRule_keeps
    | split

theorem applyGrant_keeps {a : State} (a0 : State) (a1 : Bytes) (h : Keeps a a0) : Keeps a (applyGrant a0 a1) := by
  unfold applyGrant
  repeat' first
    | with_reducible assumption
    | with_reducible apply pairCount_keeps
    | with_reducible apply tset_keeps
    | with_reducible apply modPair_keeps
    | with_reducible apply tstop_keeps
    | with_reducible apply pairEval_keeps
    | with_reducible apply hwExtend_keeps
    | with_reducible apply endClaim_keeps
    | with_reducible apply keeps_foldl
    | with_reducible apply keeps_foldl1
    | extract_lets
    | with_reducible refine keeps_fst ‹_ = (_, _)› ?_
    | split
    | intro _
    | with_reducible apply keeps_mk

theorem grantArrives_keeps {a : State} (a0 : State) (a1 : Bytes) (a2 : Nat) (h : Keeps a a0) : Keeps a (grantArrives a0 a1 a2) := by
  unfold grantArrives
  repeat' first
    | with_reducible assumption
    | with_reducible apply rsetf_keeps
    | with_reducible apply irq_keeps
    | with_reducible apply report_keeps
    | with_reducible apply rsetb_keeps
    | with_reducible apply applyGrant_keeps
    | with_reducible apply tstop_keeps
    | extract_lets
    | with_reducible refine keeps_fst ‹_ = (_, _)› ?_
    | split

theorem grantGo_keeps {a : State} (a0 : State) (a1 : Nat) (h : Keeps a a0) : Keeps a (grantGo a0 a1) := by
  unfold grantGo
  repeat' first
    | with_reducible assumption
    | with_reducible apply modPair_keeps
    | with_reducible apply grantArrives_keeps
    | extract_lets
    | split
    | intro _
    | with_reducible apply keeps_mk

theorem mtxWrite_keeps {a : State} (a0 : State) (a1 : WCtx) (h : Keeps a a0) : Keeps a (mtxWrite a0 a1) := by
  unfold mtxWrite
  repeat' first
    | with_reducible assumption
    | with_reducible apply busyW_keeps
    | with_reducible apply irq_keeps
    | with_reducible apply rsetf_keeps
    | with_reducible apply refuseW_keeps
    | with_reducible apply sendMirror_keeps
    | with_reducible apply modPair_keeps
    | extract_lets
    | split
    | intro _
    | with_reducible apply keeps_mk

theorem sendHealth_keeps {a : State} (a0 : State) (h : Keeps a a0) : Keeps a (sendHealth a0) := by
  unfold sendHealth
  repeat' first
    | with_reducible assumption
    | with_reducible apply rsetBytes_keeps
    | with_reducible apply sendPair_keeps
    | with_reducible apply irq_keeps
    | extract_lets
    | split

theorem woutWrite_keeps {a : State} (a0 : State) (a1 : WCtx) (h : Keeps a a0) : Keeps a (woutWrite a0 a1) := by
  unfold woutWrite
  repeat' first
    | with_reducible assumption
    | with_reducible apply busyW_keeps
    | with_reducible apply irq_keeps
    | with_reducible apply rsetf_keeps
    | with_reducible apply refuseW_keeps
    | with_reducible apply sendPair_keeps
    | with_reducible apply modPair_keeps
    | extract_lets
    | split
    | intro _
    | with_reducible apply keeps_mk

theorem pairWrite_keeps {a : State} (s : State) (c : WCtx) (h : Keeps a s) : Keeps a (pairWrite s c) := by
  unfold pairWrite
  extract_lets o
  clear_value o
  repeat' first
    | with_reducible assumption
    | with_reducible apply keeps_ite
    | with_reducible apply refuseW_keeps
    | with_reducible apply storeW_keeps
    | with_reducible apply pairCfgWrite_keeps
    | with_reducible apply reqCmdWrite_keeps
    | with_reducible apply warmWrite_keeps
    | with_reducible apply grantGo_keeps
    | with_reducible apply mtxWrite_keeps
    | with_reducible apply busyW_keeps
    | with_reducible apply modPair_keeps
    | with_reducible apply sendHealth_keeps
    | with_reducible apply woutWrite_keeps

theorem bulkWrite_keeps {a : State} (a0 : State) (a1 : Nat) (a2 : WCtx) (a3 : Option Bytes) (h : Keeps a a0) : Keeps a (bulkWrite a0 a1 a2 a3) := by
  unfold bulkWrite
  repeat' first
    | with_reducible assumption
    | with_reducible apply busyW_keeps
    | with_reducible apply refuseW_keeps
    | with_reducible apply rset_keeps
    | with_reducible apply setBulk_keeps
    | with_reducible apply tset_keeps
    | with_reducible apply bulkEnd_keeps
    | with_reducible apply sendFrame_keeps
    | with_reducible apply keeps_foldl
    | with_reducible apply keeps_foldl1
    | extract_lets
    | with_reducible refine keeps_fst ‹_ = (_, _)› ?_
    | split
    | intro _
    | with_reducible apply keeps_mk

theorem lmsWrite_keeps {a : State} (a0 : Nat) (a1 : Option Bytes) (a2 : State) (a3 : WCtx) (h : Keeps a a2) : Keeps a (lmsWrite a0 a1 a2 a3) := by
  unfold lmsWrite
  repeat' first
    | with_reducible assumption
    | with_reducible apply refuseW_keeps
    | with_reducible apply storeW_keeps
    | with_reducible apply ringNote_keeps
    | with_reducible apply sideTrains_keeps
    | with_reducible apply sideDown_keeps
    | with_reducible apply bulkWrite_keeps
    | extract_lets
    | with_reducible refine keeps_fst ‹_ = (_, _)› ?_
    | split
    | with_reducible apply keeps_mk

theorem ringCfgWrite_keeps {a : State} (a0 : State) (a1 : RingId) (a2 : WCtx) (a3 : Nat) (a4 : Nat → State) (h4 : ∀ c, Keeps a (a4 c)) (h : Keeps a a0) : Keeps a (ringCfgWrite a0 a1 a2 a3 a4) := by
  unfold ringCfgWrite
  dsimp only
  repeat' first
    | with_reducible assumption
    | with_reducible apply storeW_keeps
    | with_reducible apply rset_keeps
    | with_reducible apply setPhase_keeps
    | with_reducible apply h4
    | extract_lets
    | with_reducible refine keeps_fst ‹_ = (_, _)› ?_
    | split

theorem doorbellStore_keeps {a : State} (a0 : State) (a1 : RingId) (a2 : Bool) (a3 : WCtx) (a4 : Nat → State) (h4 : ∀ c, Keeps a (a4 c)) (h : Keeps a a0) : Keeps a (doorbellStore a0 a1 a2 a3 a4) := by
  unfold doorbellStore
  repeat' first
    | with_reducible assumption
    | with_reducible apply storeW_keeps
    | with_reducible apply h4
    | split

theorem retimeJobs_keeps {a : State} (a0 : State) (h : Keeps a a0) : Keeps a (retimeJobs a0) := by
  unfold retimeJobs
  repeat' first
    | with_reducible assumption
    | with_reducible apply tstop_keeps
    | with_reducible apply tset_keeps
    | with_reducible apply keeps_foldl
    | with_reducible apply keeps_foldl1
    | extract_lets
    | split
    | intro _

theorem cjeWrite_keeps {a : State} (a0 : WCtx) (a1 : State) (h : Keeps a a1) : Keeps a (cjeWrite a0 a1) := by
  unfold cjeWrite
  repeat' first
    | with_reducible assumption
    | with_reducible apply refuseW_keeps
    | with_reducible apply ringCfgWrite_keeps
    | with_reducible apply doorbellStore_keeps
    | with_reducible apply storeW_keeps
    | with_reducible apply retimeJobs_keeps
    | with_reducible apply keeps_foldl
    | with_reducible apply keeps_foldl1
    | extract_lets
    | with_reducible refine keeps_fst ‹_ = (_, _)› ?_
    | with_reducible refine keeps_fst3 ‹_ = (_, _, _)› ?_
    | with_reducible refine keeps_fst4 ‹_ = (_, _, _, _)› ?_
    | with_reducible refine keeps_fst5 ‹_ = (_, _, _, _, _)› ?_
    | with_reducible refine keeps_snd ‹_ = (_, _)› ?_
    | split
    | intro _
    | with_reducible apply keeps_mk

theorem vstWrite_keeps {a : State} (a0 : WCtx) (a1 : State) (h : Keeps a a1) : Keeps a (vstWrite a0 a1) := by
  unfold vstWrite
  repeat' first
    | with_reducible assumption
    | with_reducible apply storeW_keeps
    | with_reducible apply tstop_keeps
    | with_reducible apply tset_keeps
    | with_reducible apply keeps_foldl
    | with_reducible apply keeps_foldl1
    | extract_lets
    | split
    | intro _

theorem duWrite_keeps {a : State} (a0 : WCtx) (a1 : State) (h : Keeps a a1) : Keeps a (duWrite a0 a1) := by
  unfold duWrite
  repeat' first
    | with_reducible assumption
    | with_reducible apply refuseW_keeps
    | with_reducible apply storeW_keeps
    | extract_lets
    | split

theorem laneWrite_keeps {a : State} (a0 : Nat) (a1 : WCtx) (a2 : State) (h : Keeps a a2) : Keeps a (laneWrite a0 a1 a2) := by
  unfold laneWrite
  repeat' first
    | with_reducible assumption
    | with_reducible apply storeW_keeps
    | with_reducible apply refuseW_keeps
    | split

theorem recheck_keeps {a : State} (a0 : State) (a1 : Nat) (h : Keeps a a0) : Keeps a (recheck a0 a1) := by
  unfold recheck
  repeat' first
    | with_reducible assumption
    | with_reducible apply rset_keeps

theorem protocolWrite_keeps {a : State} (a0 : Nat) (a1 : WCtx) (a2 : State) (h : Keeps a a2) : Keeps a (protocolWrite a0 a1 a2) := by
  unfold protocolWrite
  repeat' first
    | with_reducible assumption
    | with_reducible apply refuseW_keeps
    | with_reducible apply protoReport_keeps
    | with_reducible apply recheck_keeps
    | with_reducible apply storeW_keeps
    | extract_lets
    | with_reducible refine keeps_fst ‹_ = (_, _)› ?_
    | split

theorem refuseCmd_keeps {a : State} (a0 : State) (a1 : Nat) (a2 : Nat) (a3 : Nat) (h : Keeps a a0) : Keeps a (refuseCmd a0 a1 a2 a3) := by
  unfold refuseCmd
  repeat' first
    | with_reducible assumption
    | with_reducible apply report_keeps
    | with_reducible apply cmdResult_keeps
    | extract_lets
    | split

end Sys2Proof.Machine
end

