-- ==== Sys2Proof/Laws/Keeps4.lean ====
section
/-! SUPPORT. Laws/Keeps4.lean: each operation `f` of the machine keeps what `Keeps` speaks of (`f_keeps`), part 4 of 6. -/
namespace Sys2Proof.Machine

theorem claimRun_keeps {a : State} (a0 : State) (a1 : Nat) (a2 : Bool) (a3 : Nat) (a4 : Nat) (h : Keeps a a0) : Keeps a (claimRun a0 a1 a2 a3 a4) := by
  induction a4 generalizing a0 a3 with
  | zero => exact h
  | succ k ih =>
    unfold claimRun
    repeat' first
      | with_reducible apply ih
      | with_reducible assumption
      | with_reducible apply setFrame_keeps

theorem claimFrames_keeps {a : State} (a0 : State) (a1 : Nat) (h : Keeps a a0) : Keeps a (claimFrames a0 a1) := by
  unfold claimFrames
  repeat' first
    | with_reducible assumption
    | with_reducible apply claimRun_keeps
    | with_reducible apply rset_keeps
    | extract_lets
    | with_reducible refine keeps_fst ‹_ = (_, _)› ?_
    | split

theorem cmdStart_keeps {a : State} (a0 : State) (a1 : Nat) (a2 : Nat) (h : Keeps a a0) : Keeps a (cmdStart a0 a1 a2) := by
  unfold cmdStart
  repeat' first
    | with_reducible assumption
    | with_reducible apply rset_keeps

theorem trimArms_keeps {a : State} (a0 : State) (a1 : Nat) (h : Keeps a a0) : Keeps a (trimArms a0 a1) := by
  unfold trimArms
  repeat' first
    | with_reducible assumption
    | with_reducible apply rset_keeps

theorem releasePort_keeps {a : State} (a0 : State) (a1 : Nat) (h : Keeps a a0) : Keeps a (releasePort a0 a1) := by
  unfold releasePort
  repeat' first
    | with_reducible assumption
    | with_reducible apply refuseCmd_keeps
    | with_reducible apply modPort_keeps
    | with_reducible apply startRelease_keeps
    | with_reducible apply cmdStart_keeps
    | with_reducible apply toState_keeps
    | with_reducible apply trimArms_keeps
    | with_reducible apply rset_keeps
    | with_reducible apply keeps_foldl
    | with_reducible apply keeps_foldl1
    | extract_lets
    | with_reducible refine keeps_fst ‹_ = (_, _)› ?_
    | split
    | intro _
    | with_reducible apply keeps_mk

theorem portCommand_keeps {a : State} (a0 : State) (a1 : Nat) (a2 : Nat) (h : Keeps a a0) : Keeps a (portCommand a0 a1 a2) := by
  unfold portCommand
  repeat' first
    | with_reducible assumption
    | with_reducible apply refuseCmd_keeps
    | with_reducible apply clearMan_keeps
    | with_reducible apply claimFrames_keeps
    | with_reducible apply modPort_keeps
    | with_reducible apply cmdStart_keeps
    | with_reducible apply toState_keeps
    | with_reducible apply releasePort_keeps
    | with_reducible apply cmdResult_keeps
    | with_reducible apply holdPort_keeps
    | with_reducible apply holdPins_keeps
    | with_reducible apply enterHeld_keeps
    | extract_lets
    | with_reducible refine keeps_fst ‹_ = (_, _)› ?_
    | split
    | intro _
    | with_reducible apply keeps_mk

theorem latchedWrite_keeps {a : State} (a0 : Nat) (a1 : WCtx) (a2 : State) (h : Keeps a a2) : Keeps a (latchedWrite a0 a1 a2) := by
  unfold latchedWrite
  repeat' first
    | with_reducible assumption
    | with_reducible apply refuseW_keeps
    | with_reducible apply recheck_keeps
    | with_reducible apply storeW_keeps
    | split

theorem fgpCtlWrite_keeps {a : State} (a0 : Nat) (a1 : WCtx) (a2 : State) (h : Keeps a a2) : Keeps a (fgpCtlWrite a0 a1 a2) := by
  unfold fgpCtlWrite
  repeat' first
    | with_reducible assumption
    | with_reducible apply protocolWrite_keeps
    | with_reducible apply portCommand_keeps
    | with_reducible apply latchedWrite_keeps
    | with_reducible apply storeW_keeps
    | with_reducible refine keeps_fst ‹_ = (_, _)› ?_
    | split

theorem endStage_keeps {a : State} (a0 : State) (a1 : Nat) (h : Keeps a a0) : Keeps a (endStage a0 a1) := by
  unfold endStage
  repeat' first
    | with_reducible assumption
    | extract_lets
    | split
    | intro _
    | with_reducible apply keeps_mk

theorem armWrite_keeps {a : State} (a0 : Nat) (a1 : WCtx) (a2 : State) (h : Keeps a a2) : Keeps a (armWrite a0 a1 a2) := by
  unfold armWrite
  repeat' first
    | with_reducible assumption
    | with_reducible apply rset_keeps
    | with_reducible apply endStage_keeps
    | with_reducible apply modPort_keeps
    | with_reducible apply refuseW_keeps
    | extract_lets
    | split
    | intro _
    | with_reducible apply keeps_mk

theorem fgpWinWrite_keeps {a : State} (a0 : Nat) (a1 : WCtx) (a2 : State) (h : Keeps a a2) : Keeps a (fgpWinWrite a0 a1 a2) := by
  unfold fgpWinWrite
  repeat' first
    | with_reducible assumption
    | with_reducible apply armWrite_keeps
    | with_reducible apply trimArms_keeps
    | with_reducible apply storeW_keeps
    | with_reducible apply latchedWrite_keeps
    | split

theorem publishWrite_keeps {a : State} (a0 : Nat) (a1 : WCtx) (a2 : State) (h : Keeps a a2) : Keeps a (publishWrite a0 a1 a2) := by
  unfold publishWrite
  repeat' first
    | with_reducible assumption
    | with_reducible apply refuseW_keeps
    | with_reducible apply modPort_keeps
    | with_reducible apply publishNow_keeps
    | extract_lets
    | split
    | intro _
    | with_reducible apply keeps_mk

theorem fgpMbWrite_keeps {a : State} (a0 : Nat) (a1 : WCtx) (a2 : State) (h : Keeps a a2) : Keeps a (fgpMbWrite a0 a1 a2) := by
  unfold fgpMbWrite
  repeat' first
    | with_reducible assumption
    | with_reducible apply publishWrite_keeps
    | with_reducible apply storeW_keeps
    | split

theorem instRingWrite_keeps {a : State} (a0 : Nat) (a1 : WCtx) (a2 : State) (h : Keeps a a2) : Keeps a (instRingWrite a0 a1 a2) := by
  unfold instRingWrite
  repeat' first
    | with_reducible assumption
    | with_reducible apply refuseW_keeps
    | with_reducible apply ringCfgWrite_keeps
    | with_reducible apply storeW_keeps
    | with_reducible apply keeps_foldl
    | with_reducible apply keeps_foldl1
    | extract_lets
    | with_reducible refine keeps_fst ‹_ = (_, _)› ?_
    | with_reducible refine keeps_fst3 ‹_ = (_, _, _)› ?_
    | with_reducible refine keeps_fst4 ‹_ = (_, _, _, _)› ?_
    | with_reducible refine keeps_fst5 ‹_ = (_, _, _, _, _)› ?_
    | with_reducible refine keeps_snd ‹_ = (_, _)› ?_
    | split
    | intro _
    | with_reducible apply keeps_mk

theorem createInst_keeps {a : State} (a0 : State) (a1 : Nat) (a2 : Bool) (h : Keeps a a0) : Keeps a (createInst a0 a1 a2) := by
  unfold createInst
  repeat' first
    | with_reducible assumption
    | with_reducible apply instCmdEnds_keeps
    | with_reducible apply setInst_keeps
    | with_reducible apply makeMig_keeps
    | with_reducible apply makeRoot_keeps
    | with_reducible apply ownCtrs_keeps
    | extract_lets
    | split
    | with_reducible apply keeps_mk

theorem saveInst_keeps {a : State} (a0 : State) (a1 : Nat) (a2 : Nat) (a3 : BusIn) (h : Keeps a a0) : Keeps a (saveInst a0 a1 a2 a3) := by
  unfold saveInst
  repeat' first
    | with_reducible assumption
    | with_reducible apply instCmdEnds_keeps
    | with_reducible apply draw_keeps
    | with_reducible apply emit_keeps
    | with_reducible apply rset_keeps
    | with_reducible apply setInst_keeps
    | with_reducible apply keeps_foldl
    | with_reducible apply keeps_foldl1
    | extract_lets
    | with_reducible refine keeps_fst ‹_ = (_, _)› ?_
    | with_reducible refine keeps_fst3 ‹_ = (_, _, _)› ?_
    | with_reducible refine keeps_fst4 ‹_ = (_, _, _, _)› ?_
    | with_reducible refine keeps_fst5 ‹_ = (_, _, _, _, _)› ?_
    | with_reducible refine keeps_snd ‹_ = (_, _)› ?_
    | split
    | intro _
    | with_reducible apply keeps_mk

theorem restoreKey_keeps {a : State} (a0 : Nat) (a1 : State × Nat) (a2 : Bytes) (h : Keeps a a1.1) : Keeps a (restoreKey a0 a1 a2).1 := by
  unfold restoreKey
  dsimp only
  repeat' first
    | with_reducible assumption
    | with_reducible apply setKslot_keeps
    | extract_lets
    | with_reducible refine keeps_fst ‹_ = (_, _)› ?_
    | split

theorem restoreCtr_keeps {a : State} (a0 : Nat) (a1 : State × Nat) (a2 : Bytes) (h : Keeps a a1.1) : Keeps a (restoreCtr a0 a1 a2).1 := by
  unfold restoreCtr
  dsimp only
  repeat' first
    | with_reducible assumption
    | with_reducible apply cstApply_keeps
    | extract_lets
    | with_reducible refine keeps_fst ‹_ = (_, _)› ?_
    | with_reducible refine keeps_fst3 ‹_ = (_, _, _)› ?_
    | with_reducible refine keeps_fst4 ‹_ = (_, _, _, _)› ?_
    | split

theorem loadRings_keeps {a : State} (a0 : State) (a1 : Nat) (a2 : Bytes) (h : Keeps a a0) : Keeps a (loadRings a0 a1 a2) := by
  unfold loadRings
  repeat' first
    | with_reducible assumption
    | with_reducible apply rsetBytes_keeps
    | with_reducible apply rset_keeps
    | with_reducible apply rsetf_keeps
    | with_reducible apply setPhase_keeps
    | extract_lets

theorem restoreInst_keeps {a : State} (a0 : State) (a1 : Nat) (a2 : Nat) (a3 : BusIn) (h : Keeps a a0) : Keeps a (restoreInst a0 a1 a2 a3) := by
  unfold restoreInst
  repeat' first
    | with_reducible assumption
    | with_reducible apply instCmdEnds_keeps
    | with_reducible apply endSlot_keeps
    | with_reducible apply restoreKey_keeps
    | with_reducible apply restoreCtr_keeps
    | with_reducible apply loadRings_keeps
    | with_reducible apply setInst_keeps
    | with_reducible apply keeps_foldl
    | with_reducible apply keeps_foldl1
    | extract_lets
    | with_reducible refine keeps_fst ‹_ = (_, _)› ?_
    | split
    | intro _
    | with_reducible apply keeps_mk

theorem instCmdWrite_keeps {a : State} (a0 : State) (a1 : Nat) (a2 : WCtx) (a3 : BusIn) (h : Keeps a a0) : Keeps a (instCmdWrite a0 a1 a2 a3) := by
  unfold instCmdWrite
  dsimp only
  repeat' first
    | with_reducible assumption
    | with_reducible apply instCmdEnds_keeps
    | with_reducible apply refuseW_keeps
    | with_reducible apply createInst_keeps
    | with_reducible apply removeInst_keeps
    | with_reducible apply resetBegins_keeps
    | with_reducible apply newChallenge_keeps
    | with_reducible apply setInst_keeps
    | with_reducible apply saveInst_keeps
    | with_reducible apply restoreInst_keeps
    | extract_lets
    | with_reducible refine keeps_fst ‹_ = (_, _)› ?_
    | split
    | with_reducible apply keeps_mk

theorem invalidateForwarded_keeps {a : State} (a0 : State) (a1 : Nat) (a2 : List Walk) (h : Keeps a a0) : Keeps a (invalidateForwarded a0 a1 a2).1 := by
  unfold invalidateForwarded
  repeat' first
    | with_reducible assumption
    | with_reducible apply finish_keeps
    | with_reducible apply setJob_keeps
    | with_reducible apply keeps_foldl
    | with_reducible apply keeps_foldl1
    | extract_lets
    | with_reducible refine keeps_fst ‹_ = (_, _)› ?_
    | split
    | intro _
    | with_reducible apply keeps_mk

theorem abortJob_keeps {a : State} (a0 : State × List Walk) (a1 : Nat) (h : Keeps a a0.1) : Keeps a (abortJob a0 a1).1 := by
  unfold abortJob
  dsimp only
  repeat' first
    | with_reducible assumption
    | with_reducible apply finish_keeps
    | with_reducible apply squash_keeps
    | extract_lets
    | with_reducible refine keeps_fst ‹_ = (_, _)› ?_
    | split

theorem unparkQueue_keeps {a : State} (a0 : State) (a1 : Nat) (h : Keeps a a0) : Keeps a (unparkQueue a0 a1) := by
  unfold unparkQueue
  repeat' first
    | with_reducible assumption
    | with_reducible apply rsetb_keeps

theorem saveRecord_keeps {a : State} (a0 : State) (a1 : Nat) (a2 : List Walk) (h : Keeps a a0) : Keeps a (saveRecord a0 a1 a2) := by
  unfold saveRecord
  repeat' first
    | with_reducible assumption
    | with_reducible apply sramWrite_keeps
    | with_reducible apply setJob_keeps
    | with_reducible apply translate_keeps
    | with_reducible apply emit_keeps
    | with_reducible apply finish_keeps
    | extract_lets
    | with_reducible refine keeps_fst ‹_ = (_, _)› ?_
    | split
    | with_reducible apply keeps_mk

theorem retryJob_keeps {a : State} (a0 : State × List Walk) (a1 : Nat) (h : Keeps a a0.1) : Keeps a (retryJob a0 a1).1 := by
  unfold retryJob
  dsimp only
  repeat' first
    | with_reducible assumption
    | with_reducible apply setJob_keeps
    | with_reducible apply saveRecord_keeps
    | with_reducible apply deliver_keeps
    | extract_lets
    | with_reducible refine keeps_fst ‹_ = (_, _)› ?_
    | split
    | intro _
    | with_reducible apply keeps_mk

theorem resumeWrite_keeps {a : State} (a0 : State) (a1 : Nat) (a2 : WCtx) (a3 : BusIn) (h : Keeps a a0) : Keeps a (resumeWrite a0 a1 a2 a3) := by
  unfold resumeWrite
  dsimp only
  repeat' first
    | with_reducible assumption
    | with_reducible apply invalidateForwarded_keeps
    | with_reducible apply ituDrop_keeps
    | with_reducible apply abortJob_keeps
    | with_reducible apply unparkQueue_keeps
    | with_reducible apply retryJob_keeps
    | with_reducible apply keeps_foldl
    | with_reducible apply keeps_foldl1
    | extract_lets
    | with_reducible refine keeps_fst ‹_ = (_, _)› ?_
    | split

theorem instCtrWrite_keeps {a : State} (a0 : State) (a1 : Nat) (a2 : WCtx) (h : Keeps a a0) : Keeps a (instCtrWrite a0 a1 a2) := by
  unfold instCtrWrite
  repeat' first
    | with_reducible assumption
    | with_reducible apply busyW_keeps
    | with_reducible apply instCtrEnds_keeps
    | with_reducible apply rset_keeps
    | extract_lets
    | split
    | with_reducible apply keeps_mk

theorem fqCfgWrite_keeps {a : State} (a0 : State) (a1 : WCtx) (h : Keeps a a0) : Keeps a (fqCfgWrite a0 a1) := by
  unfold fqCfgWrite
  repeat' first
    | with_reducible assumption
    | with_reducible apply storeW_keeps
    | with_reducible apply refuseW_keeps
    | with_reducible apply rset_keeps
    | split
    | with_reducible apply keeps_mk

theorem mgrDoorbellWrite_keeps {a : State} (a0 : State) (a1 : WCtx) (h : Keeps a a0) : Keeps a (mgrDoorbellWrite a0 a1) := by
  unfold mgrDoorbellWrite
  repeat' first
    | with_reducible assumption
    | with_reducible apply refuseW_keeps
    | with_reducible apply irq_keeps
    | with_reducible apply rsetf_keeps
    | extract_lets
    | split

theorem mgrPublishWrite_keeps {a : State} (a0 : State) (a1 : WCtx) (h : Keeps a a0) : Keeps a (mgrPublishWrite a0 a1) := by
  unfold mgrPublishWrite
  repeat' first
    | with_reducible assumption
    | with_reducible apply refuseW_keeps
    | with_reducible apply rsetf_keeps
    | extract_lets
    | split

theorem instWrite_keeps {a : State} (a0 : Nat) (a1 : BusIn) (a2 : State) (a3 : WCtx) (h : Keeps a a2) : Keeps a (instWrite a0 a1 a2 a3) := by
  unfold instWrite
  repeat' first
    | with_reducible assumption
    | with_reducible apply instRingWrite_keeps
    | with_reducible apply instCmdWrite_keeps
    | with_reducible apply storeW_keeps
    | with_reducible apply refuseW_keeps
    | with_reducible apply resumeWrite_keeps
    | with_reducible apply instCtrWrite_keeps
    | with_reducible apply fqCfgWrite_keeps
    | with_reducible apply mgrDoorbellWrite_keeps
    | with_reducible apply mgrPublishWrite_keeps
    | extract_lets
    | split

theorem doorbellWrite_keeps {a : State} (a0 : Nat) (a1 : WCtx) (a2 : State) (h : Keeps a a2) : Keeps a (doorbellWrite a0 a1 a2) := by
  unfold doorbellWrite
  repeat' first
    | with_reducible assumption
    | with_reducible apply refuseW_keeps
    | with_reducible apply doorbellStore_keeps
    | with_reducible apply keeps_foldl
    | with_reducible apply keeps_foldl1
    | extract_lets
    | with_reducible refine keeps_fst ‹_ = (_, _)› ?_
    | with_reducible refine keeps_fst3 ‹_ = (_, _, _)› ?_
    | with_reducible refine keeps_fst4 ‹_ = (_, _, _, _)› ?_
    | with_reducible refine keeps_fst5 ‹_ = (_, _, _, _, _)› ?_
    | with_reducible refine keeps_snd ‹_ = (_, _)› ?_
    | split
    | intro _
    | with_reducible apply keeps_mk

theorem pageWrite_keeps {a : State} (a0 : BusIn) (a1 : PageKind) (a2 : Nat) (a3 : State) (a4 : WCtx) (h : Keeps a a3) : Keeps a (pageWrite a0 a1 a2 a3 a4) := by
  unfold pageWrite
  repeat' first
    | with_reducible assumption
    | with_reducible apply capWrite_keeps
    | with_reducible apply bootWrite_keeps
    | with_reducible apply tbWrite_keeps
    | with_reducible apply pwrWrite_keeps
    | with_reducible apply evhWrite_keeps
    | with_reducible apply routeWrite_keeps
    | with_reducible apply bwdWrite_keeps
    | with_reducible apply twdWrite_keeps
    | with_reducible apply temWrite_keeps
    | with_reducible apply fusWrite_keeps
    | with_reducible apply cstWrite_keeps
    | with_reducible apply svcWrite_keeps
    | with_reducible apply i3cWrite_keeps
    | with_reducible apply pciWrite_keeps
    | with_reducible apply pairWrite_keeps
    | with_reducible apply lmsWrite_keeps
    | with_reducible apply cjeWrite_keeps
    | with_reducible apply vstWrite_keeps
    | with_reducible apply duWrite_keeps
    | with_reducible apply laneWrite_keeps
    | with_reducible apply fgpCtlWrite_keeps
    | with_reducible apply fgpWinWrite_keeps
    | with_reducible apply fgpMbWrite_keeps
    | with_reducible apply instWrite_keeps
    | with_reducible apply doorbellWrite_keeps
    | with_reducible apply storeW_keeps
    | with_reducible refine keeps_fst ‹_ = (_, _)› ?_
    | split

theorem writeOn_keeps {a : State} (s : State) (x : Acc) (inp : BusIn) (k : PageKind) (i o : Nat) (w : Word) (h : Keeps a s) :
    Keeps a (writeOn s x inp k i o w) := by
  unfold writeOn
  extract_lets off t
  have ht : Keeps a t := by
    unfold t
    split
    · with_reducible exact h
    · with_reducible exact busLog_keeps _ _ _ _ _ _ _ h
  clear_value t
  repeat' first
    | with_reducible assumption
    | with_reducible apply headerWrite_keeps
    | with_reducible apply markOnce_keeps
    | with_reducible apply pageWrite_keeps
    | split

theorem raFail_keeps {a : State} (a0 : State) (a1 : RaReq) (a2 : Nat) (h : Keeps a a0) : Keeps a (raFail a0 a1 a2) := by
  unfold raFail
  repeat' first
    | with_reducible assumption
    | with_reducible apply bulkEnd_keeps
    | with_reducible apply irq_keeps
    | with_reducible apply rset_keeps
    | with_reducible apply emit_keeps
    | extract_lets
    | with_reducible refine keeps_fst ‹_ = (_, _)› ?_
    | split
    | intro _

theorem apertureAccess_keeps {a : State} (a0 : State) (a1 : Acc) (a2 : Bool) (a3 : Nat) (a4 : Word) (h : Keeps a a0) : Keeps a (apertureAccess a0 a1 a2 a3 a4) := by
  unfold apertureAccess
  repeat' first
    | with_reducible assumption
    | with_reducible apply raFail_keeps
    | with_reducible apply sendFrame_keeps
    | extract_lets
    | split
    | with_reducible apply keeps_mk

theorem busWrite_keeps {a : State} (a0 : Acc) (a1 : Nat) (a2 : Nat) (a3 : Word) (a4 : BusIn) (a5 : State) (h : Keeps a a5) : Keeps a (busWrite a0 a1 a2 a3 a4 a5) := by
  unfold busWrite
  repeat' first
    | with_reducible assumption
    | with_reducible apply wakeByHost_keeps
    | with_reducible apply coreStores_keeps
    | with_reducible apply busLog_keeps
    | with_reducible apply wdRefused_keeps
    | with_reducible apply writeOn_keeps
    | with_reducible apply apertureAccess_keeps
    | extract_lets
    | with_reducible refine keeps_fst ‹_ = (_, _)› ?_
    | split
    | with_reducible apply keeps_mk

theorem platCmd1_keeps {a : State} (a0 : State) (a1 : Nat) (a2 : Byte) (a3 : OpClass → Bool) (a4 : Port → State → State) (h4 : ∀ p x, Keeps a x → Keeps a (a4 p x)) (h : Keeps a a0) : Keeps a (platCmd1 a0 a1 a2 a3 a4) := by
  unfold platCmd1
  repeat' first
    | with_reducible assumption
    | with_reducible apply platCmd_keeps
    | with_reducible apply h4
    | split

theorem noteCopy_keeps {a : State} (a0 : State) (a1 : Nat) (a2 : Bool) (a3 : List (Nat × Nat)) (h : Keeps a a0) : Keeps a (noteCopy a0 a1 a2 a3) := by
  unfold noteCopy
  repeat' first
    | with_reducible assumption
    | extract_lets
    | split
    | intro _
    | with_reducible apply keeps_mk

theorem mirrorQuarantineIn_keeps {a : State} (a0 : State) (a1 : Nat) (a2 : Bytes) (h : Keeps a a0) : Keeps a (mirrorQuarantineIn a0 a1 a2) := by
  unfold mirrorQuarantineIn
  repeat' first
    | with_reducible assumption
    | with_reducible apply mirrorRefused_keeps
    | with_reducible apply failedWith_keeps
    | extract_lets
    | with_reducible refine keeps_fst ‹_ = (_, _)› ?_
    | split

theorem dupHead_keeps {a : State} (a0 : State) (h : Keeps a a0) : Keeps a (dupHead a0) := by
  unfold dupHead
  repeat' first
    | with_reducible assumption
    | with_reducible apply irq_keeps
    | with_reducible apply tstop_keeps
    | with_reducible apply rsetb_keeps
    | extract_lets
    | split

theorem pairFrameDone_keeps {a : State} (a0 : State) (a1 : Nat) (a2 : Bytes) (a3 : Nat) (h : Keeps a a0) : Keeps a (pairFrameDone a0 a1 a2 a3) := by
  unfold pairFrameDone
  repeat' first
    | with_reducible assumption
    | with_reducible apply irq_keeps
    | with_reducible apply rsetf_keeps
    | with_reducible apply modPair_keeps
    | extract_lets
    | split
    | intro _
    | with_reducible apply keeps_mk

theorem giveUp_keeps {a : State} (a0 : State) (a1 : Nat) (a2 : Nat) (h : Keeps a a0) : Keeps a (giveUp a0 a1 a2) := by
  unfold giveUp
  repeat' first
    | with_reducible assumption
    | with_reducible apply tstop_keeps
    | with_reducible apply setPeer_keeps
    | with_reducible apply raFail_keeps
    | with_reducible apply finishLater_keeps
    | with_reducible apply setJob_keeps
    | with_reducible apply squash_keeps
    | with_reducible apply bulkEnd_keeps
    | with_reducible apply pairFrameDone_keeps
    | with_reducible apply keeps_foldl
    | with_reducible apply keeps_foldl1
    | extract_lets
    | with_reducible refine keeps_fst ‹_ = (_, _)› ?_
    | split
    | intro _
    | with_reducible apply keeps_mk

theorem acceptTopo_keeps {a : State} (a0 : State) (a1 : Topo) (h : Keeps a a0) : Keeps a (acceptTopo a0 a1) := by
  unfold acceptTopo
  repeat' first
    | with_reducible assumption
    | with_reducible apply learnInc_keeps
    | with_reducible apply giveUp_keeps
    | with_reducible apply setSide_keeps
    | with_reducible apply keeps_foldl
    | with_reducible apply keeps_foldl1
    | extract_lets
    | with_reducible refine keeps_fst ‹_ = (_, _)› ?_
    | split
    | intro _
    | with_reducible apply keeps_mk

theorem topologyIn_keeps {a : State} (a0 : State) (a1 : Frame17) (h : Keeps a a0) : Keeps a (topologyIn a0 a1) := by
  unfold topologyIn
  repeat' first
    | with_reducible assumption
    | with_reducible apply dupHead_keeps
    | with_reducible apply tset_keeps
    | with_reducible apply acceptTopo_keeps
    | extract_lets
    | split
    | with_reducible apply keeps_mk

theorem clearsWel_keeps {a : State} (a0 : State) (a1 : Nat) (h : Keeps a a0) : Keeps a (clearsWel a0 a1) := by
  unfold clearsWel
  repeat' first
    | with_reducible assumption
    | with_reducible apply modPort_keeps
    | extract_lets
    | intro _
    | with_reducible apply keeps_mk

theorem ifWel_keeps {a : State} (a0 : State) (a1 : Nat) (a2 : State → State) (h2 : ∀ x, Keeps a x → Keeps a (a2 x)) (h : Keeps a a0) : Keeps a (ifWel a0 a1 a2) := by
  unfold ifWel
  dsimp only
  repeat' first
    | with_reducible assumption
    | with_reducible apply clearsWel_keeps
    | with_reducible apply h2
    | extract_lets
    | split

theorem eraseCmd_keeps {a : State} (a0 : State) (a1 : Nat) (a2 : Byte) (a3 : Nat) (a4 : Nat) (h : Keeps a a0) : Keeps a (eraseCmd a0 a1 a2 a3 a4) := by
  unfold eraseCmd
  repeat' first
    | with_reducible assumption
    | with_reducible apply deny_keeps
    | with_reducible apply forwardWrite_keeps
    | extract_lets
    | with_reducible refine keeps_fst ‹_ = (_, _)› ?_
    | split

theorem erasePlat_keeps {a : State} (a0 : State) (a1 : Nat) (a2 : Byte) (a3 : Byte) (a4 : Nat) (a5 : Nat) (h : Keeps a a0) : Keeps a (erasePlat a0 a1 a2 a3 a4 a5) := by
  unfold erasePlat
  repeat' first
    | with_reducible assumption
    | with_reducible apply platCmd_keeps
    | with_reducible apply ifWel_keeps
    | with_reducible apply eraseCmd_keeps
    | extract_lets
    | intro _

theorem setKat_keeps {a : State} (a0 : State) (a1 : Nat) (a2 : Bool) (h : Keeps a a0) : Keeps a (setKat a0 a1 a2) := by
  unfold setKat
  repeat' first
    | with_reducible assumption
    | with_reducible apply rsetb_keeps
    | with_reducible apply irq_keeps
    | extract_lets
    | with_reducible refine keeps_fst ‹_ = (_, _)› ?_
    | split
    | with_reducible apply keeps_mk

theorem testAll_keeps {a : State} (a0 : State) (a1 : Word) (a2 : Job) (a3 : List Nat) (h : Keeps a a0) : Keeps a (testAll a0 a1 a2 a3).1 := by
  induction a3 generalizing a0 a2 with
  | nil => exact h
  | cons b t ih =>
    unfold testAll
    repeat' first
      | with_reducible apply ih
      | with_reducible assumption
      | with_reducible apply setKat_keeps
      | with_reducible apply keeps_foldl
      | with_reducible apply keeps_foldl1
      | extract_lets
      | with_reducible refine keeps_fst ‹_ = (_, _)› ?_
      | with_reducible refine keeps_fst3 ‹_ = (_, _, _)› ?_
      | with_reducible refine keeps_fst4 ‹_ = (_, _, _, _)› ?_
      | with_reducible refine keeps_fst5 ‹_ = (_, _, _, _, _)› ?_
      | with_reducible refine keeps_snd ‹_ = (_, _)› ?_
      | split
      | intro _
      | with_reducible apply keeps_mk

theorem heard_keeps {a : State} (a0 : State) (a1 : Nat) (h : Keeps a a0) : Keeps a (heard a0 a1) := by
  unfold heard
  repeat' first
    | with_reducible assumption
    | with_reducible apply tset_keeps
    | split

theorem discardFrame_keeps {a : State} (a0 : State) (a1 : Nat) (h : Keeps a a0) : Keeps a (discardFrame a0 a1) := by
  unfold discardFrame
  repeat' first
    | with_reducible assumption
    | with_reducible apply report_keeps
    | with_reducible apply rcount_keeps

theorem broadcast_keeps {a : State} (a0 : State) (a1 : Nat) (a2 : Bytes) (h : Keeps a a0) : Keeps a (broadcast a0 a1 a2) := by
  unfold broadcast
  repeat' first
    | with_reducible assumption
    | with_reducible apply emit_keeps
    | with_reducible apply keeps_foldl
    | with_reducible apply keeps_foldl1
    | extract_lets
    | split
    | intro _

theorem newTopo_keeps {a : State} (a0 : State) (a1 : List (Nat × Nat)) (a2 : Option Nat) (h : Keeps a a0) : Keeps a (newTopo a0 a1 a2) := by
  unfold newTopo
  repeat' first
    | with_reducible assumption
    | with_reducible apply irq_keeps
    | with_reducible apply rsetb_keeps
    | with_reducible apply acceptTopo_keeps
    | with_reducible apply tset_keeps
    | with_reducible apply broadcast_keeps
    | extract_lets
    | split
    | intro _
    | with_reducible apply keeps_mk

theorem discoverIn'_keeps {a : State} (a0 : State) (a1 : Nat) (a2 : Frame17) (h : Keeps a a0) : Keeps a (discoverIn' a0 a1 a2) := by
  unfold discoverIn'
  repeat' first
    | with_reducible assumption
    | with_reducible apply dupHead_keeps
    | with_reducible apply newTopo_keeps
    | with_reducible apply noteCopy_keeps
    | with_reducible apply emit_keeps
    | extract_lets
    | with_reducible refine keeps_fst ‹_ = (_, _)› ?_
    | split
    | with_reducible apply keeps_mk

theorem forwardFrame_keeps {a : State} (a0 : State) (a1 : Nat) (a2 : Frame17) (h : Keeps a a0) : Keeps a (forwardFrame a0 a1 a2) := by
  unfold forwardFrame
  repeat' first
    | with_reducible assumption
    | with_reducible apply discardFrame_keeps
    | with_reducible apply transmit_keeps
    | split
    | with_reducible apply keeps_mk

theorem bulkMoved_keeps {a : State} (a0 : State) (a1 : Nat) (a2 : Nat) (h : Keeps a a0) : Keeps a (bulkMoved a0 a1 a2) := by
  unfold bulkMoved
  repeat' first
    | with_reducible assumption
    | with_reducible apply tset_keeps
    | with_reducible apply rcount_keeps
    | with_reducible apply bulkEnd_keeps
    | extract_lets
    | with_reducible refine keeps_fst ‹_ = (_, _)› ?_
    | split

theorem frameAcked_keeps {a : State} (a0 : State) (a1 : Nat) (a2 : Frame17) (h : Keeps a a0) : Keeps a (frameAcked a0 a1 a2) := by
  unfold frameAcked
  repeat' first
    | with_reducible assumption
    | with_reducible apply pairFrameDone_keeps
    | with_reducible apply bulkMoved_keeps
    | with_reducible refine keeps_fst ‹_ = (_, _)› ?_
    | split
    | with_reducible apply keeps_mk

theorem ackIn_keeps {a : State} (a0 : State) (a1 : Frame17) (h : Keeps a a0) : Keeps a (ackIn a0 a1) := by
  unfold ackIn
  repeat' first
    | with_reducible assumption
    | with_reducible apply setPeer_keeps
    | with_reducible apply frameAcked_keeps
    | with_reducible apply tstop_keeps
    | with_reducible apply pump_keeps
    | with_reducible apply keeps_foldl
    | with_reducible apply keeps_foldl1
    | extract_lets
    | split
    | intro _
    | with_reducible apply keeps_mk

theorem sendAck_keeps {a : State} (a0 : State) (a1 : Nat) (a2 : Bool) (h : Keeps a a0) : Keeps a (sendAck a0 a1 a2) := by
  unfold sendAck
  repeat' first
    | with_reducible assumption
    | with_reducible apply tstop_keeps
    | with_reducible apply transmit_keeps
    | extract_lets
    | split
    | with_reducible apply keeps_mk

theorem statusIn_keeps {a : State} (a0 : State) (a1 : Nat) (a2 : Bytes) (h : Keeps a a0) : Keeps a (statusIn a0 a1 a2) := by
  unfold statusIn
  repeat' first
    | with_reducible assumption
    | with_reducible apply tset_keeps
    | with_reducible apply rset_keeps
    | with_reducible apply irq_keeps
    | extract_lets
    | split

theorem answerFrame_keeps {a : State} (a0 : State) (a1 : Frame17) (a2 : Nat) (a3 : Bytes) (h : Keeps a a0) : Keeps a (answerFrame a0 a1 a2 a3) := by
  unfold answerFrame
  repeat' first
    | with_reducible assumption
    | with_reducible apply sendFrame_keeps
    | with_reducible apply setPeer_keeps
    | extract_lets
    | with_reducible apply keeps_mk

theorem busReadWord_keeps {a : State} (a0 : Acc) (a1 : Nat) (a2 : Nat) (a3 : EccRes) (a4 : State) (h : Keeps a a4) : Keeps a (busReadWord a0 a1 a2 a3 a4).1 := by
  unfold busReadWord
  repeat' first
    | with_reducible assumption
    | with_reducible apply wakeByHost_keeps
    | with_reducible apply busLog_keeps
    | with_reducible apply readOn_keeps
    | with_reducible apply apertureAccess_keeps
    | extract_lets
    | with_reducible refine keeps_fst ‹_ = (_, _)› ?_
    | split

theorem readWords_keeps {a : State} (a0 : Nat) (a1 : Nat) (a2 : Nat) (a3 : State) (h : Keeps a a3) : Keeps a (readWords a0 a1 a2 a3).1 := by
  induction a2 generalizing a1 a3 with
  | zero => exact h
  | succ k ih =>
    unfold readWords
    repeat' first
      | with_reducible apply ih
      | with_reducible assumption
      | with_reducible apply busReadWord_keeps
      | extract_lets
      | with_reducible refine keeps_fst ‹_ = (_, _)› ?_
      | split

theorem regRdIn_keeps {a : State} (a0 : State) (a1 : Frame17) (h : Keeps a a0) : Keeps a (regRdIn a0 a1) := by
  unfold regRdIn
  repeat' first
    | with_reducible assumption
    | with_reducible apply answerFrame_keeps
    | with_reducible apply readWords_keeps
    | extract_lets
    | with_reducible refine keeps_fst ‹_ = (_, _)› ?_
    | split

theorem regWrIn_keeps {a : State} (a0 : State) (a1 : Frame17) (a2 : BusIn) (h : Keeps a a0) : Keeps a (regWrIn a0 a1 a2) := by
  unfold regWrIn
  repeat' first
    | with_reducible assumption
    | with_reducible apply answerFrame_keeps
    | with_reducible apply busWrite_keeps
    | with_reducible apply keeps_foldl
    | with_reducible apply keeps_foldl1
    | extract_lets
    | split
    | intro _

theorem staleItem_keeps {a : State} (a0 : State) (a1 : Nat) (h : Keeps a a0) : Keeps a (staleItem a0 a1) := by
  unfold staleItem
  repeat' first
    | with_reducible assumption
    | with_reducible apply rcount_keeps

theorem regRspIn_keeps {a : State} (a0 : State) (a1 : Frame17) (h : Keeps a a0) : Keeps a (regRspIn a0 a1) := by
  unfold regRspIn
  repeat' first
    | with_reducible assumption
    | with_reducible apply staleItem_keeps
    | with_reducible apply bulkEnd_keeps
    | with_reducible apply bulkMoved_keeps
    | with_reducible apply emit_keeps
    | with_reducible apply raFail_keeps
    | extract_lets
    | with_reducible refine keeps_fst ‹_ = (_, _)› ?_
    | split
    | intro _
    | with_reducible apply keeps_mk

theorem nextBufRd_keeps {a : State} (a0 : State) (a1 : Nat) (h : Keeps a a0) : Keeps a (nextBufRd a0 a1) := by
  unfold nextBufRd
  repeat' first
    | with_reducible assumption
    | with_reducible apply sendFrame_keeps
    | extract_lets
    | with_reducible refine keeps_fst ‹_ = (_, _)› ?_
    | split

theorem newJob_keeps {a : State} (a0 : State) (a1 : Nat) (a2 : Sub) (a3 : Nat) (a4 : Bytes) (h : Keeps a a0) : Keeps a (newJob a0 a1 a2 a3 a4) := by
  unfold newJob
  repeat' first
    | with_reducible assumption
    | with_reducible apply setJob_keeps
    | extract_lets
    | with_reducible apply keeps_mk

theorem jobReqIn_keeps {a : State} (a0 : State) (a1 : Frame17) (a2 : Nat) (h : Keeps a a0) : Keeps a (jobReqIn a0 a1 a2) := by
  unfold jobReqIn
  dsimp only
  repeat' first
    | with_reducible assumption
    | with_reducible apply sendFrame_keeps
    | with_reducible apply nextBufRd_keeps
    | with_reducible apply newJob_keeps
    | extract_lets
    | with_reducible refine keeps_fst ‹_ = (_, _)› ?_
    | split

theorem staleFor_keeps {a : State} (a0 : State) (a1 : Frame17) (h : Keeps a a0) : Keeps a (staleFor a0 a1) := by
  unfold staleFor
  repeat' first
    | with_reducible assumption
    | with_reducible apply staleItem_keeps
    | extract_lets
    | with_reducible refine keeps_fst ‹_ = (_, _)› ?_
    | split
    | intro _

theorem homeEnds_keeps {a : State} (a0 : State) (a1 : Nat) (a2 : Job) (a3 : JobRes) (a4 : List Walk) (h : Keeps a a0) : Keeps a (homeEnds a0 a1 a2 a3 a4) := by
  unfold homeEnds
  repeat' first
    | with_reducible assumption
    | with_reducible apply finish_keeps
    | with_reducible apply tstop_keeps
    | with_reducible apply setJob_keeps
    | with_reducible apply keeps_mk

theorem bufRdIn_keeps {a : State} (a0 : State) (a1 : Frame17) (a2 : List Walk) (a3 : Bytes) (h : Keeps a a0) : Keeps a (bufRdIn a0 a1 a2 a3) := by
  unfold bufRdIn
  repeat' first
    | with_reducible assumption
    | with_reducible apply staleFor_keeps
    | with_reducible apply answerFrame_keeps
    | with_reducible apply translateAll_keeps
    | with_reducible apply homeEnds_keeps
    | extract_lets
    | with_reducible refine keeps_fst ‹_ = (_, _)› ?_
    | with_reducible refine keeps_fst3 ‹_ = (_, _, _)› ?_
    | with_reducible refine keeps_fst4 ‹_ = (_, _, _, _)› ?_
    | split

theorem bufDataIn_keeps {a : State} (a0 : State) (a1 : Frame17) (h : Keeps a a0) : Keeps a (bufDataIn a0 a1) := by
  unfold bufDataIn
  repeat' first
    | with_reducible assumption
    | with_reducible apply squash_keeps
    | with_reducible apply nextBufRd_keeps
    | with_reducible apply setJob_keeps
    | extract_lets
    | with_reducible refine keeps_fst ‹_ = (_, _)› ?_
    | split
    | with_reducible apply keeps_mk

theorem bufWrIn_keeps {a : State} (a0 : State) (a1 : Frame17) (a2 : List Walk) (h : Keeps a a0) : Keeps a (bufWrIn a0 a1 a2) := by
  unfold bufWrIn
  repeat' first
    | with_reducible assumption
    | with_reducible apply staleFor_keeps
    | with_reducible apply staleItem_keeps
    | with_reducible apply translateAll_keeps
    | with_reducible apply emit_keeps
    | with_reducible apply homeEnds_keeps
    | with_reducible apply keeps_foldl
    | with_reducible apply keeps_foldl1
    | extract_lets
    | with_reducible refine keeps_fst ‹_ = (_, _)› ?_
    | with_reducible refine keeps_fst3 ‹_ = (_, _, _)› ?_
    | with_reducible refine keeps_fst4 ‹_ = (_, _, _, _)› ?_
    | split
    | intro _

theorem jobDoneIn_keeps {a : State} (a0 : State) (a1 : Frame17) (a2 : List Walk) (h : Keeps a a0) : Keeps a (jobDoneIn a0 a1 a2) := by
  unfold jobDoneIn
  repeat' first
    | with_reducible assumption
    | with_reducible apply staleFor_keeps
    | with_reducible apply homeEnds_keeps
    | extract_lets
    | with_reducible refine keeps_fst ‹_ = (_, _)› ?_
    | split
    | with_reducible apply keeps_mk

theorem jobAbortIn_keeps {a : State} (a0 : State) (a1 : Frame17) (a2 : List Walk) (h : Keeps a a0) : Keeps a (jobAbortIn a0 a1 a2) := by
  unfold jobAbortIn
  repeat' first
    | with_reducible assumption
    | with_reducible apply staleFor_keeps
    | with_reducible apply homeEnds_keeps
    | with_reducible refine keeps_fst ‹_ = (_, _)› ?_
    | split

theorem jobCancelIn_keeps {a : State} (a0 : State) (a1 : Frame17) (h : Keeps a a0) : Keeps a (jobCancelIn a0 a1) := by
  unfold jobCancelIn
  repeat' first
    | with_reducible assumption
    | with_reducible apply squash_keeps
    | with_reducible refine keeps_fst ‹_ = (_, _)› ?_
    | split

theorem pushDataIn_keeps {a : State} (a0 : State) (a1 : Frame17) (h : Keeps a a0) : Keeps a (pushDataIn a0 a1) := by
  unfold pushDataIn
  repeat' first
    | with_reducible assumption
    | with_reducible apply answerFrame_keeps
    | with_reducible apply pushBytes_keeps
    | extract_lets
    | split

theorem readRec_keeps {a : State} (a0 : RomRun) (a1 : RomEnv) (h : Keeps a a0.s) : Keeps a (readRec a0 a1).1.s := by
  unfold readRec
  repeat' first
    | with_reducible assumption
    | with_reducible apply romReads_keeps
    | with_reducible apply romRaise_keeps
    | extract_lets
    | with_reducible refine keeps_fst ‹_ = (_, _)› ?_
    | with_reducible refine keepsR_fst ‹_ = (_, _)› ?_
    | split
    | with_reducible apply keeps_mk

theorem peekRec_keeps {a : State} (a0 : RomRun) (a1 : RomEnv) (h : Keeps a a0.s) : Keeps a (peekRec a0 a1).s := by
  unfold peekRec
  repeat' first
    | with_reducible assumption
    | with_reducible apply readRec_keeps
    | with_reducible refine keeps_fst ‹_ = (_, _)› ?_
    | with_reducible refine keepsR_fst ‹_ = (_, _)› ?_
    | split
    | with_reducible apply keeps_mk

theorem romRun_keeps {a : State} (a0 : State) (a1 : RomEnv) (a2 : Nat) (h : Keeps a a0) : Keeps a (romRun a0 a1 a2).s := by
  unfold romRun
  repeat' first
    | with_reducible assumption
    | with_reducible refine keepsR_fst ‹_ = (_, _)› ?_

theorem openPush_keeps {a : State} (a0 : State) (a1 : Bool) (h : Keeps a a0) : Keeps a (openPush a0 a1) := by
  unfold openPush
  repeat' first
    | with_reducible assumption
    | with_reducible apply romKick_keeps
    | with_reducible apply rsetf_keeps
    | with_reducible apply rsetb_keeps
    | extract_lets
    | split
    | with_reducible apply keeps_mk

theorem shownAs_keeps {a : State} (a0 : State) (a1 : Nat) (a2 : Nat) (h : Keeps a a0) : Keeps a (shownAs a0 a1 a2) := by
  unfold shownAs
  repeat' first
    | with_reducible assumption
    | with_reducible apply report_keeps
    | with_reducible apply rset_keeps
    | split

theorem rejectAs_keeps {a : State} (a0 : State) (a1 : Nat) (a2 : Nat) (h : Keeps a a0) : Keeps a (rejectAs a0 a1 a2) := by
  unfold rejectAs
  repeat' first
    | with_reducible assumption
    | with_reducible apply rcount_keeps
    | with_reducible apply shownAs_keeps

theorem loadBundle_keeps {a : State} (a0 : State) (a1 : Bytes) (h : Keeps a a0) : Keeps a (loadBundle a0 a1) := by
  unfold loadBundle
  repeat' first
    | with_reducible assumption
    | with_reducible apply loadBoot_keeps
    | with_reducible apply rsetBytes_keeps
    | with_reducible apply rset_keeps
    | with_reducible apply keeps_foldl
    | with_reducible apply keeps_foldl1
    | extract_lets
    | with_reducible refine keeps_fst ‹_ = (_, _)› ?_
    | split
    | intro _
    | with_reducible apply keeps_mk

theorem romStep_keeps {a : State} (a0 : State) (a1 : Nat) (h : Keeps a a0) : Keeps a (romStep a0 a1) := by
  unfold romStep
  repeat' first
    | with_reducible assumption
    | with_reducible apply romKick_keeps
    | with_reducible apply rsetf_keeps

theorem fwFlag_keeps {a : State} (a0 : State) (a1 : Nat) (h : Keeps a a0) : Keeps a (fwFlag a0 a1) := by
  unfold fwFlag
  repeat' first
    | with_reducible assumption
    | with_reducible apply rsetb_keeps

theorem settingsStore_keeps {a : State} (a0 : RomRun) (a1 : RomEnv) (a2 : Bytes) (a3 : Bool) (h : Keeps a a0.s) : Keeps a (settingsStore a0 a1 a2 a3) := by
  unfold settingsStore
  dsimp only
  repeat' first
    | with_reducible assumption
    | with_reducible apply romReads_keeps
    | with_reducible apply romRaise_keeps
    | with_reducible apply writeCopy_keeps
    | with_reducible apply fwFlag_keeps
    | extract_lets
    | with_reducible refine keeps_fst ‹_ = (_, _)› ?_
    | split
    | with_reducible apply keeps_mk

theorem fill_keeps {a : State} (a0 : State) (a1 : Sub) (a2 : Nat) (a3 : Fill) (a4 : Bool) (h : Keeps a a0) : Keeps a (fill a0 a1 a2 a3 a4).1 := by
  unfold fill
  repeat' first
    | with_reducible assumption
    | with_reducible apply setKslot_keeps
    | extract_lets
    | with_reducible refine keeps_fst ‹_ = (_, _)› ?_
    | split
    | with_reducible apply keeps_mk

theorem romOwner_keeps {a : State} (a0 : State) (a1 : Bytes) (h : Keeps a a0) : Keeps a (romOwner a0 a1).1 := by
  unfold romOwner
  dsimp only
  repeat' first
    | with_reducible assumption
    | with_reducible apply fill_keeps
    | extract_lets
    | with_reducible refine keeps_fst ‹_ = (_, _)› ?_
    | split
    | intro _

theorem writeDbgLock_keeps {a : State} (a0 : State) (a1 : Word) (h : Keeps a a0) : Keeps a (writeDbgLock a0 a1) := by
  unfold writeDbgLock
  repeat' first
    | with_reducible assumption
    | with_reducible apply rset_keeps
    | extract_lets
    | intro _
    | with_reducible apply keeps_mk

theorem romStop_keeps {a : State} (a0 : State) (a1 : Nat) (h : Keeps a a0) : Keeps a (romStop a0 a1) := by
  unfold romStop
  repeat' first
    | with_reducible assumption
    | with_reducible apply rsetf_keeps
    | with_reducible apply writeDbgLock_keeps
    | with_reducible apply report_keeps
    | extract_lets
    | split
    | with_reducible apply keeps_mk

theorem runFwRecord_keeps {a : State} (a0 : State) (a1 : Job) (a2 : Bytes) (a3 : Bytes) (h : Keeps a a0) : Keeps a (runFwRecord a0 a1 a2 a3).1 := by
  unfold runFwRecord
  repeat' first
    | with_reducible assumption
    | with_reducible apply extend_keeps
    | with_reducible apply rsetBytes_keeps
    | split
    | with_reducible apply keeps_mk

end Sys2Proof.Machine
end

