-- ==== Sys2Proof/Laws/Keeps5.lean ====
section
/-! SUPPORT. Laws/Keeps5.lean: each operation `f` of the machine keeps what `Keeps` speaks of (`f_keeps`), part 5 of 6. -/
namespace Sys2Proof.Machine

theorem createAlias_keeps {a : State} (a0 : State) (a1 : Bytes) (h : Keeps a a0) : Keeps a (createAlias a0 a1) := by
  unfold createAlias
  repeat' first
    | with_reducible assumption
    | with_reducible apply loadFixed_keeps
    | with_reducible apply rsetBytes_keeps
    | with_reducible apply rsetf_keeps
    | with_reducible apply rsetb_keeps
    | extract_lets
    | with_reducible refine keeps_fst ‹_ = (_, _)› ?_
    | split

theorem runAlias_keeps {a : State} (a0 : State) (a1 : Job) (a2 : Bytes) (a3 : Bytes) (h : Keeps a a0) : Keeps a (runAlias a0 a1 a2 a3).1 := by
  unfold runAlias
  repeat' first
    | with_reducible assumption
    | with_reducible apply createAlias_keeps
    | with_reducible refine keeps_fst ‹_ = (_, _)› ?_
    | split

theorem romMeasure_keeps {a : State} (a0 : State) (a1 : Bytes) (a2 : Nat) (h : Keeps a a0) : Keeps a (romMeasure a0 a1 a2).1 := by
  unfold romMeasure
  repeat' first
    | with_reducible assumption
    | with_reducible apply runFwRecord_keeps
    | with_reducible apply extend_keeps
    | with_reducible apply runAlias_keeps
    | extract_lets
    | with_reducible refine keeps_fst ‹_ = (_, _)› ?_
    | split

theorem romHandover_keeps {a : State} (a0 : State) (a1 : Bytes) (h : Keeps a a0) : Keeps a (romHandover a0 a1) := by
  unfold romHandover
  repeat' first
    | with_reducible assumption
    | with_reducible apply rset_keeps
    | with_reducible apply rsetf_keeps
    | with_reducible apply bwdLoad_keeps
    | with_reducible apply rsetb_keeps
    | extract_lets
    | split
    | with_reducible apply keeps_mk

theorem bootFrom_keeps {a : State} (a0 : RomRun) (a1 : RomEnv) (a2 : Bytes) (a3 : Nat) (a4 : Bool) (a5 : Bool) (h : Keeps a a0.s) : Keeps a (bootFrom a0 a1 a2 a3 a4 a5) := by
  unfold bootFrom
  dsimp only
  repeat' first
    | with_reducible assumption
    | with_reducible apply loadBundle_keeps
    | with_reducible apply rsetf_keeps
    | with_reducible apply romStep_keeps
    | with_reducible apply fwFlag_keeps
    | with_reducible apply settingsStore_keeps
    | with_reducible apply romOwner_keeps
    | with_reducible apply romStop_keeps
    | with_reducible apply romMeasure_keeps
    | with_reducible apply romHandover_keeps
    | with_reducible apply writeDbgLock_keeps
    | extract_lets
    | with_reducible refine keeps_fst ‹_ = (_, _)› ?_
    | split
    | with_reducible apply keeps_mk

theorem pushGo_keeps {a : State} (a0 : State) (a1 : Nat) (a2 : RomEnv) (h : Keeps a a0) : Keeps a (pushGo a0 a1 a2).1 := by
  unfold pushGo
  repeat' first
    | with_reducible assumption
    | with_reducible apply rset_keeps
    | with_reducible apply ownPush_keeps
    | with_reducible apply rsetf_keeps
    | with_reducible apply report_keeps
    | with_reducible apply peekRec_keeps
    | with_reducible apply romRun_keeps
    | with_reducible apply openPush_keeps
    | with_reducible apply rejectAs_keeps
    | with_reducible apply rsetb_keeps
    | with_reducible apply bootFrom_keeps
    | with_reducible apply keeps_bootClear
    | extract_lets
    | with_reducible refine keeps_fst ‹_ = (_, _)› ?_
    | split
    | with_reducible apply keeps_mk

theorem pushCtrlIn_keeps {a : State} (a0 : State) (a1 : Frame17) (a2 : RomEnv) (h : Keeps a a0) : Keeps a (pushCtrlIn a0 a1 a2) := by
  unfold pushCtrlIn
  repeat' first
    | with_reducible assumption
    | with_reducible apply answerFrame_keeps
    | with_reducible apply ownPush_keeps
    | with_reducible apply pushGo_keeps
    | extract_lets
    | with_reducible refine keeps_fst ‹_ = (_, _)› ?_
    | split
    | with_reducible apply keeps_mk

theorem pushRspIn_keeps {a : State} (a0 : State) (a1 : Frame17) (h : Keeps a a0) : Keeps a (pushRspIn a0 a1) := by
  unfold pushRspIn
  repeat' first
    | with_reducible assumption
    | with_reducible apply staleItem_keeps
    | with_reducible apply bulkEnd_keeps
    | extract_lets
    | with_reducible refine keeps_fst ‹_ = (_, _)› ?_
    | split
    | intro _

theorem witnessIn_keeps {a : State} (a0 : State) (a1 : Nat) (a2 : Bytes) (h : Keeps a a0) : Keeps a (witnessIn a0 a1 a2) := by
  unfold witnessIn
  repeat' first
    | with_reducible assumption
    | with_reducible apply report_keeps
    | with_reducible apply irq_keeps
    | with_reducible apply modPair_keeps
    | extract_lets
    | split
    | intro _
    | with_reducible apply keeps_mk

theorem grantIn_keeps {a : State} (a0 : State) (a1 : Bytes) (h : Keeps a a0) : Keeps a (grantIn a0 a1) := by
  unfold grantIn
  repeat' first
    | with_reducible assumption
    | with_reducible apply grantGo_keeps
    | with_reducible apply rsetBytes_keeps
    | split

theorem mirrorFirmware_keeps {a : State} (a0 : State) (a1 : Nat) (a2 : Bytes) (h : Keeps a a0) : Keeps a (mirrorFirmware a0 a1 a2) := by
  unfold mirrorFirmware
  repeat' first
    | with_reducible assumption
    | with_reducible apply queueMirror_keeps
    | with_reducible apply mirrorRefused_keeps
    | with_reducible refine keeps_fst ‹_ = (_, _)› ?_
    | split

theorem pairIn_keeps {a : State} (a0 : State) (a1 : Frame17) (h : Keeps a a0) : Keeps a (pairIn a0 a1) := by
  unfold pairIn
  repeat' first
    | with_reducible assumption
    | with_reducible apply witnessIn_keeps
    | with_reducible apply grantIn_keeps
    | with_reducible apply mirrorCounter_keeps
    | with_reducible apply mirrorQuarantineIn_keeps
    | with_reducible apply mirrorFirmware_keeps
    | with_reducible apply report_keeps
    | extract_lets
    | with_reducible refine keeps_fst ‹_ = (_, _)› ?_
    | split

theorem beatIn_keeps {a : State} (a0 : State) (a1 : Nat) (h : Keeps a a0) : Keeps a (beatIn a0 a1) := by
  unfold beatIn
  repeat' first
    | with_reducible assumption
    | with_reducible apply tset_keeps
    | with_reducible apply tstop_keeps
    | with_reducible apply modPair_keeps
    | extract_lets
    | split
    | intro _
    | with_reducible apply keeps_mk

theorem deliverFrame_keeps {a : State} (a0 : State) (a1 : Frame17) (a2 : LmsIn) (h : Keeps a a0) : Keeps a (deliverFrame a0 a1 a2) := by
  unfold deliverFrame
  repeat' first
    | with_reducible assumption
    | with_reducible apply statusIn_keeps
    | with_reducible apply discoverIn_keeps
    | with_reducible apply learnInc_keeps
    | with_reducible apply giveUp_keeps
    | with_reducible apply regRdIn_keeps
    | with_reducible apply regWrIn_keeps
    | with_reducible apply regRspIn_keeps
    | with_reducible apply queueEvent_keeps
    | with_reducible apply jobReqIn_keeps
    | with_reducible apply bufRdIn_keeps
    | with_reducible apply bufDataIn_keeps
    | with_reducible apply bufWrIn_keeps
    | with_reducible apply jobDoneIn_keeps
    | with_reducible apply jobAbortIn_keeps
    | with_reducible apply jobCancelIn_keeps
    | with_reducible apply pushDataIn_keeps
    | with_reducible apply pushCtrlIn_keeps
    | with_reducible apply pushRspIn_keeps
    | with_reducible apply pairIn_keeps
    | with_reducible apply beatIn_keeps
    | with_reducible refine keeps_fst ‹_ = (_, _)› ?_
    | split

theorem takeFrame_keeps {a : State} (a0 : State) (a1 : Frame17) (a2 : LmsIn) (h : Keeps a a0) : Keeps a (takeFrame a0 a1 a2) := by
  unfold takeFrame
  repeat' first
    | with_reducible assumption
    | with_reducible apply setPeer_keeps
    | with_reducible apply deliverFrame_keeps
    | with_reducible apply tset_keeps
    | extract_lets
    | split
    | intro _
    | with_reducible apply keeps_mk

theorem takeHeld_keeps {a : State} (a0 : Nat) (a1 : Nat) (a2 : State) (h : Keeps a a2) : Keeps a (takeHeld a0 a1 a2) := by
  induction a1 generalizing a2 with
  | zero => exact h
  | succ k ih =>
    unfold takeHeld
    repeat' first
      | with_reducible apply ih
      | with_reducible assumption
      | with_reducible apply takeFrame_keeps
      | extract_lets
      | with_reducible refine keeps_fst ‹_ = (_, _)› ?_
      | split
      | intro _

theorem answerAgain_keeps {a : State} (a0 : State) (a1 : Frame17) (h : Keeps a a0) : Keeps a (answerAgain a0 a1) := by
  unfold answerAgain
  repeat' first
    | with_reducible assumption
    | with_reducible apply transmit_keeps
    | extract_lets
    | with_reducible refine keeps_fst ‹_ = (_, _)› ?_
    | split
    | intro _
    | with_reducible apply keeps_mk

theorem reliableIn_keeps {a : State} (a0 : State) (a1 : Frame17) (a2 : LmsIn) (h : Keeps a a0) : Keeps a (reliableIn a0 a1 a2) := by
  unfold reliableIn
  repeat' first
    | with_reducible assumption
    | with_reducible apply sendAck_keeps
    | with_reducible apply takeHeld_keeps
    | with_reducible apply takeFrame_keeps
    | with_reducible apply answerAgain_keeps
    | with_reducible apply setPeer_keeps
    | extract_lets
    | split
    | intro _
    | with_reducible apply keeps_mk

theorem addressedIn_keeps {a : State} (a0 : State) (a1 : Frame17) (a2 : LmsIn) (h : Keeps a a0) : Keeps a (addressedIn a0 a1 a2) := by
  unfold addressedIn
  dsimp only
  repeat' first
    | with_reducible assumption
    | with_reducible apply wakeFor_keeps
    | with_reducible apply ackIn_keeps
    | with_reducible apply reliableIn_keeps
    | with_reducible apply deliverFrame_keeps
    | extract_lets
    | split

theorem receive_keeps {a : State} (a0 : State) (a1 : Nat) (a2 : Frame17) (a3 : LmsIn) (h : Keeps a a0) : Keeps a (receive a0 a1 a2 a3) := by
  unfold receive
  repeat' first
    | with_reducible assumption
    | with_reducible apply rcount_keeps
    | with_reducible apply heard_keeps
    | with_reducible apply discardFrame_keeps
    | with_reducible apply helloIn_keeps
    | with_reducible apply discoverIn'_keeps
    | with_reducible apply forwardFrame_keeps
    | with_reducible apply topologyIn_keeps
    | with_reducible apply addressedIn_keeps
    | with_reducible apply deliverFrame_keeps
    | with_reducible apply keeps_foldl
    | with_reducible apply keeps_foldl1
    | extract_lets
    | with_reducible refine keeps_fst ‹_ = (_, _)› ?_
    | with_reducible refine keeps_fst3 ‹_ = (_, _, _)› ?_
    | with_reducible refine keeps_fst4 ‹_ = (_, _, _, _)› ?_
    | with_reducible refine keeps_fst5 ‹_ = (_, _, _, _, _)› ?_
    | with_reducible refine keeps_snd ‹_ = (_, _)› ?_
    | split
    | intro _
    | with_reducible apply keeps_mk

theorem meetsCondition_keeps {a : State} (a0 : State) (a1 : Nat) (h : Keeps a a0) : Keeps a (meetsCondition a0 a1) := by
  unfold meetsCondition
  repeat' first
    | with_reducible assumption
    | with_reducible apply alarm_keeps
    | with_reducible apply keeps_mk

theorem sample_keeps {a : State} (a0 : State) (a1 : Nat) (a2 : Bool) (h : Keeps a a0) : Keeps a (sample a0 a1 a2) := by
  unfold sample
  repeat' first
    | with_reducible assumption
    | with_reducible apply meetsCondition_keeps
    | extract_lets
    | with_reducible refine keeps_fst ‹_ = (_, _)› ?_
    | split
    | intro _
    | with_reducible apply keeps_mk

theorem busRead_keeps {a : State} (a0 : Acc) (a1 : Nat) (a2 : Nat) (a3 : EccRes) (a4 : State) (h : Keeps a a4) : Keeps a (busRead a0 a1 a2 a3 a4) := by
  unfold busRead
  repeat' first
    | with_reducible assumption
    | with_reducible apply busReadWord_keeps
    | with_reducible apply emit_keeps
    | with_reducible refine keeps_fst ‹_ = (_, _)› ?_
    | split

theorem releaseOut_keeps {a : State} (a0 : State) (a1 : Nat) (a2 : Bool) (h : Keeps a a0) : Keeps a (releaseOut a0 a1 a2) := by
  unfold releaseOut
  repeat' first
    | with_reducible assumption
    | with_reducible apply modPort_keeps
    | extract_lets
    | with_reducible refine keeps_fst ‹_ = (_, _)› ?_
    | split
    | intro _
    | with_reducible apply keeps_mk

theorem setDynAddr_keeps {a : State} (a0 : State) (a1 : Option Nat) (h : Keeps a a0) : Keeps a (setDynAddr a0 a1) := by
  unfold setDynAddr
  repeat' first
    | with_reducible assumption
    | with_reducible apply irq_keeps
    | with_reducible apply rsetf_keeps
    | with_reducible apply rsetb_keeps

theorem setPciFn_keeps {a : State} (a0 : State) (a1 : Nat) (a2 : PciFn) (h : Keeps a a0) : Keeps a (setPciFn a0 a1 a2) := by
  unfold setPciFn
  repeat' first
    | with_reducible assumption
    | extract_lets
    | intro _
    | with_reducible apply keeps_mk

theorem vfConfigReset_keeps {a : State} (a0 : State) (a1 : Nat) (h : Keeps a a0) : Keeps a (vfConfigReset a0 a1) := by
  unfold vfConfigReset
  repeat' first
    | with_reducible assumption
    | with_reducible apply setPciFn_keeps
    | with_reducible apply keeps_mk

theorem park_keeps {a : State} (a0 : State) (a1 : Nat) (a2 : JobSt) (a3 : List Walk) (h : Keeps a a0) : Keeps a (park a0 a1 a2 a3) := by
  unfold park
  repeat' first
    | with_reducible assumption
    | with_reducible apply leaveUnit_keeps
    | with_reducible apply setJob_keeps
    | with_reducible apply saveRecord_keeps
    | extract_lets
    | with_reducible refine keeps_fst ‹_ = (_, _)› ?_
    | split
    | with_reducible apply keeps_mk

theorem countLane_keeps {a : State} (s : State) (j : Job) (k : Nat) (h : Keeps a s) : Keeps a (countLane s j k) := by
  unfold countLane
  extract_lets lane
  clear_value lane
  split
  · with_reducible exact rcount_keeps _ _ _ _ _ h
  · exact h

theorem fetchInputs_keeps {a : State} (a0 : State) (a1 : Nat) (a2 : Job) (a3 : JobIO) (h : Keeps a a0) : Keeps a (fetchInputs a0 a1 a2 a3).1 := by
  unfold fetchInputs
  repeat' first
    | with_reducible assumption
    | with_reducible apply translateAll_keeps
    | with_reducible apply finish_keeps
    | with_reducible apply park_keeps
    | with_reducible apply countLane_keeps
    | with_reducible apply setJob_keeps
    | with_reducible apply keeps_foldl
    | with_reducible apply keeps_foldl1
    | extract_lets
    | with_reducible refine keeps_fst ‹_ = (_, _)› ?_
    | with_reducible refine keeps_fst3 ‹_ = (_, _, _)› ?_
    | with_reducible refine keeps_fst4 ‹_ = (_, _, _, _)› ?_
    | split
    | with_reducible apply keeps_mk

theorem countUnit_keeps {a : State} (a0 : State) (a1 : Job) (a2 : Nat) (a3 : Nat) (h : Keeps a a0) : Keeps a (countUnit a0 a1 a2 a3) := by
  unfold countUnit
  repeat' first
    | with_reducible assumption
    | with_reducible apply countLane_keeps
    | with_reducible apply rcount_keeps
    | with_reducible apply rset_keeps
    | extract_lets
    | with_reducible refine keeps_fst ‹_ = (_, _)› ?_
    | split
    | intro _
    | with_reducible apply keeps_mk

theorem runJob_keeps {a : State} (a0 : State) (a1 : Nat) (a2 : Bytes → Bool) (a3 : JobIO) (a4 : State →  Job → Bytes → Bytes → State × JobRes) (h4 : ∀ x j u v, Keeps a x → Keeps a (a4 x j u v).1) (h : Keeps a a0) : Keeps a (runJob a0 a1 a2 a3 a4) := by
  unfold runJob
  dsimp only
  repeat' first
    | with_reducible assumption
    | with_reducible apply fetchInputs_keeps
    | with_reducible apply finish_keeps
    | with_reducible apply countUnit_keeps
    | with_reducible apply h4
    | extract_lets
    | with_reducible refine keeps_fst ‹_ = (_, _)› ?_
    | split

theorem runHmacGen_keeps {a : State} (a0 : State) (a1 : Job) (a2 : Bytes) (a3 : Bytes) (h : Keeps a a0) : Keeps a (runHmacGen a0 a1 a2 a3).1 := by
  unfold runHmacGen
  repeat' first
    | with_reducible assumption
    | with_reducible apply keeps_mk

theorem openRec_keeps {a : State} (a0 : RomRun) (a1 : RomEnv) (h : Keeps a a0.s) : Keeps a (openRec a0 a1).s := by
  unfold openRec
  repeat' first
    | with_reducible assumption
    | with_reducible apply readRec_keeps
    | with_reducible apply writeRec_keeps
    | with_reducible apply fwFlag_keeps
    | with_reducible apply keeps_foldl
    | with_reducible apply keeps_foldl1
    | extract_lets
    | with_reducible refine keeps_fst ‹_ = (_, _)› ?_
    | with_reducible refine keeps_fst3 ‹_ = (_, _, _)› ?_
    | with_reducible refine keeps_fst4 ‹_ = (_, _, _, _)› ?_
    | with_reducible refine keepsR_fst ‹_ = (_, _)› ?_
    | with_reducible refine keeps_fst5 ‹_ = (_, _, _, _, _)› ?_
    | with_reducible refine keeps_snd ‹_ = (_, _)› ?_
    | split
    | intro _
    | with_reducible apply keeps_mk

theorem readCandidate_keeps {a : State} (a0 : RomRun) (a1 : Nat) (h : Keeps a a0.s) : Keeps a (readCandidate a0 a1).s := by
  unfold readCandidate
  repeat' first
    | with_reducible assumption
    | with_reducible apply loadBoot_keeps
    | with_reducible apply romReads_keeps
    | extract_lets
    | with_reducible refine keepsR_fst ‹_ = (_, _)› ?_
    | with_reducible apply keeps_mk

theorem dropTrial_keeps {a : State} (a0 : RomRun) (a1 : Nat) (h : Keeps a a0.s) : Keeps a (dropTrial a0 a1).s := by
  unfold dropTrial
  repeat' first
    | with_reducible assumption
    | with_reducible apply writeRec_keeps
    | with_reducible apply fwFlag_keeps
    | with_reducible refine keeps_fst ‹_ = (_, _)› ?_
    | with_reducible refine keepsR_fst ‹_ = (_, _)› ?_
    | split
    | with_reducible apply keeps_mk

theorem tryCandidate_keeps {a : State} (a0 : RomEnv) (a1 : RomRun × Option Nat) (a2 : Nat) (h : Keeps a a1.1.s) : Keeps a (tryCandidate a0 a1 a2).1.s := by
  unfold tryCandidate
  repeat' first
    | with_reducible assumption
    | with_reducible apply readCandidate_keeps
    | with_reducible apply dropTrial_keeps
    | with_reducible apply rejectAs_keeps
    | extract_lets
    | with_reducible refine keeps_fst ‹_ = (_, _)› ?_
    | with_reducible refine keepsR_fst ‹_ = (_, _)› ?_
    | split
    | with_reducible apply keeps_mk

theorem tryCandidates_keeps {a : State} (a0 : RomEnv) (a1 : List Nat) (a2 : RomRun) (h : Keeps a a2.s) : Keeps a (tryCandidates a0 a1 a2).1.s := by
  unfold tryCandidates
  repeat' first
    | with_reducible assumption
    | with_reducible apply tryCandidate_keeps
    | with_reducible apply keeps_foldl
    | with_reducible apply keeps_foldl1
    | with_reducible apply keepsR_foldl1
    | extract_lets
    | with_reducible refine keeps_fst ‹_ = (_, _)› ?_
    | with_reducible refine keeps_fst3 ‹_ = (_, _, _)› ?_
    | with_reducible refine keeps_fst4 ‹_ = (_, _, _, _)› ?_
    | with_reducible refine keepsR_fst ‹_ = (_, _)› ?_
    | with_reducible refine keeps_fst5 ‹_ = (_, _, _, _, _)› ?_
    | with_reducible refine keeps_snd ‹_ = (_, _)› ?_
    | split
    | intro _
    | with_reducible apply keeps_mk

theorem selectSlot_keeps {a : State} (a0 : RomRun) (a1 : RomEnv) (a2 : Bool) (h : Keeps a a0.s) : Keeps a (selectSlot a0 a1 a2).1.s := by
  unfold selectSlot
  dsimp only
  repeat' first
    | with_reducible assumption
    | with_reducible apply tryCandidates_keeps
    | with_reducible apply peekRec_keeps
    | with_reducible apply romReads_keeps
    | extract_lets
    | with_reducible refine keeps_fst ‹_ = (_, _)› ?_
    | with_reducible refine keepsR_fst ‹_ = (_, _)› ?_
    | split
    | intro _
    | with_reducible apply keeps_mk

theorem romChoose_keeps {a : State} (a0 : RomRun) (a1 : RomEnv) (a2 : Bool) (h : Keeps a a0.s) : Keeps a (romChoose a0 a1 a2) := by
  unfold romChoose
  repeat' first
    | with_reducible assumption
    | with_reducible apply selectSlot_keeps
    | with_reducible apply openPush_keeps
    | with_reducible apply bootFrom_keeps
    | extract_lets
    | with_reducible refine keeps_fst ‹_ = (_, _)› ?_
    | with_reducible refine keepsR_fst ‹_ = (_, _)› ?_
    | split
    | with_reducible apply keeps_mk

theorem discardStaged_keeps {a : State} (a0 : RomRun) (a1 : MinRec) (a2 : Nat) (a3 : Bool) (h : Keeps a a0.s) : Keeps a (discardStaged a0 a1 a2 a3).s := by
  unfold discardStaged
  dsimp only
  repeat' first
    | with_reducible assumption
    | with_reducible apply fwFlag_keeps
    | with_reducible apply rejectAs_keeps
    | with_reducible apply shownAs_keeps
    | with_reducible apply writeRec_keeps
    | extract_lets
    | with_reducible refine keepsR_fst ‹_ = (_, _)› ?_
    | split
    | with_reducible apply keeps_mk

theorem copyUnits_keeps {a : State} (a0 : Nat) (a1 : Bytes) (a2 : Nat) (a3 : Nat) (a4 : RomRun) (h : Keeps a a4.s) : Keeps a (copyUnits a0 a1 a2 a3 a4).1.s := by
  induction a3 generalizing a4 with
  | zero => exact h
  | succ k ih =>
    unfold copyUnits
    repeat' first
      | with_reducible apply ih
      | with_reducible assumption
      | with_reducible apply copyStep_keeps
      | with_reducible apply keeps_foldl
      | with_reducible apply keeps_foldl1
      | extract_lets
      | with_reducible refine keeps_fst ‹_ = (_, _)› ?_
      | with_reducible refine keeps_fst3 ‹_ = (_, _, _)› ?_
      | with_reducible refine keeps_fst4 ‹_ = (_, _, _, _)› ?_
      | with_reducible refine keepsR_fst ‹_ = (_, _)› ?_
      | with_reducible refine keeps_fst5 ‹_ = (_, _, _, _, _)› ?_
      | with_reducible refine keeps_snd ‹_ = (_, _)› ?_
      | split
      | intro _
      | with_reducible apply keeps_mk

theorem copyFails_keeps {a : State} (a0 : RomRun) (a1 : RomEnv) (a2 : Nat) (a3 : Nat) (a4 : Nat) (h : Keeps a a0.s) : Keeps a (copyFails a0 a1 a2 a3 a4).s := by
  unfold copyFails
  repeat' first
    | with_reducible assumption
    | with_reducible apply discardStaged_keeps
    | extract_lets
    | with_reducible refine keeps_fst ‹_ = (_, _)› ?_
    | with_reducible refine keepsR_fst ‹_ = (_, _)› ?_
    | split
    | with_reducible apply keeps_mk

theorem copyPrimary_keeps {a : State} (a0 : RomRun) (a1 : RomEnv) (h : Keeps a a0.s) : Keeps a (copyPrimary a0 a1).s := by
  unfold copyPrimary
  repeat' first
    | with_reducible assumption
    | with_reducible apply copyUnits_keeps
    | with_reducible apply copyFails_keeps
    | with_reducible apply fwFlag_keeps
    | with_reducible apply writeRec_keeps
    | with_reducible apply keeps_foldl
    | with_reducible apply keeps_foldl1
    | extract_lets
    | with_reducible refine keeps_fst ‹_ = (_, _)› ?_
    | with_reducible refine keeps_fst3 ‹_ = (_, _, _)› ?_
    | with_reducible refine keeps_fst4 ‹_ = (_, _, _, _)› ?_
    | with_reducible refine keepsR_fst ‹_ = (_, _)› ?_
    | with_reducible refine keeps_fst5 ‹_ = (_, _, _, _, _)› ?_
    | with_reducible refine keeps_snd ‹_ = (_, _)› ?_
    | split
    | intro _
    | with_reducible apply keeps_mk

theorem copyPrev_keeps {a : State} (a0 : RomRun) (a1 : RomEnv) (h : Keeps a a0.s) : Keeps a (copyPrev a0 a1).s := by
  unfold copyPrev
  repeat' first
    | with_reducible assumption
    | with_reducible apply copyUnits_keeps
    | with_reducible apply copyFails_keeps
    | with_reducible apply copyPrimary_keeps
    | with_reducible apply writeRec_keeps
    | with_reducible apply keeps_foldl
    | with_reducible apply keeps_foldl1
    | extract_lets
    | with_reducible refine keeps_fst ‹_ = (_, _)› ?_
    | with_reducible refine keeps_fst3 ‹_ = (_, _, _)› ?_
    | with_reducible refine keeps_fst4 ‹_ = (_, _, _, _)› ?_
    | with_reducible refine keepsR_fst ‹_ = (_, _)› ?_
    | with_reducible refine keeps_fst5 ‹_ = (_, _, _, _, _)› ?_
    | with_reducible refine keeps_snd ‹_ = (_, _)› ?_
    | split
    | intro _
    | with_reducible apply keeps_mk

theorem runCopy_keeps {a : State} (x : RomRun) (e : RomEnv) (h : Keeps a x.s) : Keeps a (runCopy x e).s := by
  unfold runCopy
  split
  · exact h
  · split
    · extract_lets bad y
      have hy : Keeps a y.s := readCandidate_keeps x 3 h
      clear_value y bad
      split
      · with_reducible exact discardStaged_keeps _ _ _ _ hy
      · split
        · with_reducible exact discardStaged_keeps _ _ _ _ hy
        · rename_i z _ _
          have hz : Keeps a z.s := by
            unfold z
            split
            · exact hy
            · exact romReads_keeps _ _ _ hy
          clear_value z
          split
          · with_reducible exact copyPrev_keeps _ _ (writeRec_keeps _ _ hz)
          · with_reducible exact copyPrimary_keeps _ _ (writeRec_keeps _ _ hz)
    · with_reducible exact copyPrev_keeps _ _ h
    · with_reducible exact copyPrimary_keeps _ _ h
    · exact h

theorem trialState_keeps {a : State} (a0 : RomRun) (h : Keeps a a0.s) : Keeps a (trialState a0).s := by
  unfold trialState
  repeat' first
    | with_reducible assumption
    | with_reducible apply writeRec_keeps
    | with_reducible apply fwFlag_keeps
    | with_reducible apply romReads_keeps
    | with_reducible refine keeps_fst ‹_ = (_, _)› ?_
    | with_reducible refine keepsR_fst ‹_ = (_, _)› ?_
    | split
    | with_reducible apply keeps_mk

theorem beforeSlots_keeps {a : State} (a0 : RomRun) (a1 : RomEnv) (h : Keeps a a0.s) : Keeps a (beforeSlots a0 a1).s := by
  unfold beforeSlots
  repeat' first
    | with_reducible assumption
    | with_reducible apply runCopy_keeps
    | with_reducible apply trialState_keeps
    | with_reducible apply openRec_keeps
    | with_reducible refine keepsR_fst ‹_ = (_, _)› ?_

theorem romSelect_keeps {a : State} (a0 : State) (a1 : RomEnv) (h : Keeps a a0) : Keeps a (romSelect a0 a1) := by
  unfold romSelect
  repeat' first
    | with_reducible assumption
    | with_reducible apply romRun_keeps
    | with_reducible apply rsetb_keeps
    | with_reducible apply openPush_keeps
    | with_reducible apply openRec_keeps
    | with_reducible apply romChoose_keeps
    | with_reducible apply beforeSlots_keeps
    | with_reducible apply keeps_foldl
    | with_reducible apply keeps_foldl1
    | extract_lets
    | with_reducible refine keeps_fst ‹_ = (_, _)› ?_
    | with_reducible refine keeps_fst3 ‹_ = (_, _, _)› ?_
    | with_reducible refine keeps_fst4 ‹_ = (_, _, _, _)› ?_
    | with_reducible refine keeps_fst5 ‹_ = (_, _, _, _, _)› ?_
    | with_reducible refine keeps_snd ‹_ = (_, _)› ?_
    | split
    | intro _
    | with_reducible apply keeps_mk

theorem tapOut_keeps {a : State} (a0 : State) (a1 : Option Word) (h : Keeps a a0) : Keeps a (tapOut a0 a1) := by
  unfold tapOut
  repeat' first
    | with_reducible assumption
    | with_reducible apply emit_keeps
    | with_reducible refine keeps_fst ‹_ = (_, _)› ?_
    | split
    | with_reducible apply keeps_mk

theorem flrInst_keeps {a : State} (a0 : State) (a1 : Nat) (h : Keeps a a0) : Keeps a (flrInst a0 a1) := by
  unfold flrInst
  repeat' first
    | with_reducible assumption
    | with_reducible apply removeInst_keeps
    | with_reducible apply setInst_keeps
    | with_reducible apply drainCheck_keeps
    | with_reducible apply squash_keeps
    | with_reducible apply resetBegins_keeps
    | with_reducible apply keeps_foldl
    | with_reducible apply keeps_foldl1
    | extract_lets
    | with_reducible refine keeps_fst ‹_ = (_, _)› ?_
    | split
    | with_reducible apply keeps_mk

theorem runHmacVerify_keeps {a : State} (a0 : State) (a1 : Job) (a2 : Bytes) (a3 : Bytes) (h : Keeps a a0) : Keeps a (runHmacVerify a0 a1 a2 a3).1 := by
  unfold runHmacVerify
  repeat' first
    | with_reducible assumption
    | split

/-- One counter's copies are reconciled: the counter does not fall, or its copies are lost. -/
theorem reconcileOne_keeps {a : State} (bad : List Nat) (s : State) (t : Nat × Option Nat × Option Nat)
    (ht : countersWf a → t ∈ s.torn) (h : Keeps a s) : Keeps a (reconcileOne bad s t) := by
  unfold reconcileOne
  split
  next hr =>
    refine irq_keeps _ _ _ _ (setCopies_keeps h ?_ fun _ _ => .inr rfl)
    intro p hp u hu; cases hp; cases hu
  next v hv =>
    have hw2 : ∀ u : State, u.torn = s.torn → countersWf a → countersWf u → counter u t.1 ≤ v ∧ ¬ ctrLost u t.1 := by
      intro u h1 ha hw
      have ht := ht ha
      rw [← h1] at ht
      refine ⟨by simpa [hv] using hw.2 _ ht, fun hl => ?_⟩
      have : t.2 = (none, none) := nodup_key hw.1 ht hl
      rw [this] at hv
      cases hv
    split
    · exact setCopies_keeps h (by intro p hp; cases hp) fun ha hw => .inl (hw2 s rfl ha hw)
    · extract_lets s1 s2
      have h2 : Keeps a s2 := rsetb_keeps _ _ _ _ (irq_keeps _ _ _ _ (rcount_keeps _ _ _ _ _ h))
      split
      · refine irq_keeps _ _ _ _ (setCopies_keeps h2 ?_ fun ha hw => .inl (hw2 s2 rfl ha hw))
        intro p hp u hu
        cases hp
        revert hu
        split <;> split <;> intro hu <;> cases hu <;> simp
      · exact setCopies_keeps h2 (by intro p hp; cases hp) fun ha hw => .inl (hw2 s2 rfl ha hw)
/-- The copies of the other counters stay as they are. -/
theorem reconcileOne_torn (bad : List Nat) (s : State) (t : Nat × Option Nat × Option Nat) {e : Nat × Option Nat × Option Nat}
    (he : e ∈ s.torn) (hne : e.1 ≠ t.1) : e ∈ (reconcileOne bad s t).torn := by
  unfold reconcileOne
  split
  · exact setCopies_torn (v := 0) (x := some (none, none)) he hne
  · split
    · exact setCopies_torn he hne
    · extract_lets s1 s2
      rename_i v _ _
      have h2 : e ∈ s2.torn := he
      split
      · exact setCopies_torn (v := v) (x := some (if t.2.1 = some v then some v else none, if t.2.2 = some v then some v else none)) h2 hne
      · exact setCopies_torn h2 hne
theorem reconcileAll_keeps {a : State} (bad : List Nat) : ∀ (l : List (Nat × Option Nat × Option Nat)) (s : State),
    (countersWf a → (l.map (·.1)).Nodup) → (countersWf a → ∀ e ∈ l, e ∈ s.torn) → Keeps a s →
    Keeps a (l.foldl (reconcileOne bad) s) := by
  intro l
  induction l with
  | nil => intro s _ _ h; exact h
  | cons t l ih =>
    intro s hn hs h
    refine ih _ (fun ha => ?_) (fun ha e he => ?_) (reconcileOne_keeps bad s t (fun ha => hs ha t List.mem_cons_self) h)
    · exact (List.nodup_cons.mp (hn ha)).2
    · refine reconcileOne_torn bad s t (hs ha e (List.mem_cons_of_mem _ he)) fun heq => ?_
      exact (List.nodup_cons.mp (hn ha)).1 (List.mem_map.mpr ⟨e, he, heq⟩)

theorem reconcileEnds_keeps {a : State} (s : State) (bad : List Nat) (h : Keeps a s) : Keeps a (reconcileEnds s bad) := by
  unfold reconcileEnds
  exact reconcileAll_keeps bad s.torn _ (fun ha => (h.ctr ha).1.1) (fun _ e he => he) (keeps_mk h)

theorem grantResume_keeps {a : State} (a0 : State) (h : Keeps a a0) : Keeps a (grantResume a0) := by
  unfold grantResume
  repeat' first
    | with_reducible assumption
    | with_reducible apply grantArrives_keeps
    | with_reducible apply modPair_keeps
    | extract_lets
    | with_reducible refine keeps_fst ‹_ = (_, _)› ?_
    | split
    | intro _
    | with_reducible apply keeps_mk

theorem ownClear_keeps {a : State} (a0 : State) (a1 : Nat) (a2 : Own) (h : Keeps a a0) : Keeps a (ownClear a0 a1 a2) := by
  unfold ownClear
  repeat' first
    | with_reducible assumption
    | with_reducible apply modPort_keeps
    | extract_lets
    | intro _
    | with_reducible apply keeps_mk

theorem leafFetched_keeps {a : State} (a0 : State) (a1 : Nat) (a2 : Bytes) (a3 : EccRes) (h : Keeps a a0) : Keeps a (leafFetched a0 a1 a2 a3) := by
  unfold leafFetched
  repeat' first
    | with_reducible assumption
    | with_reducible apply ownClear_keeps
    | with_reducible apply setPort_keeps
    | with_reducible apply eccNote_keeps
    | with_reducible apply failedCheck_keeps
    | extract_lets
    | with_reducible refine keeps_fst ‹_ = (_, _)› ?_
    | split
    | with_reducible apply keeps_mk

theorem flashOn_keeps {a : State} (a0 : State) (a1 : Nat) (a2 : Nat) (h : Keeps a a0) : Keeps a (flashOn a0 a1 a2) := by
  unfold flashOn
  repeat' first
    | with_reducible assumption
    | with_reducible apply rcount_keeps
    | with_reducible apply keeps_mk

theorem flashHash_keeps {a : State} (a0 : State) (a1 : Nat) (h : Keeps a a0) : Keeps a (flashHash a0 a1) := by
  unfold flashHash
  repeat' first
    | with_reducible assumption
    | with_reducible apply flashOn_keeps
    | with_reducible refine keeps_fst ‹_ = (_, _)› ?_
    | split

theorem ownRead_keeps {a : State} (a0 : State) (a1 : Nat) (a2 : Nat) (a3 : Nat) (a4 : Nat) (h : Keeps a a0) : Keeps a (ownRead a0 a1 a2 a3 a4) := by
  unfold ownRead
  repeat' first
    | with_reducible assumption
    | with_reducible apply flashOut_keeps

theorem ownNext_keeps {a : State} (a0 : State) (a1 : Nat) (a2 : Own) (a3 : Nat) (a4 : Nat) (a5 : Nat) (h : Keeps a a0) : Keeps a (ownNext a0 a1 a2 a3 a4 a5) := by
  unfold ownNext
  repeat' first
    | with_reducible assumption
    | with_reducible apply ownPut_keeps
    | with_reducible apply ownRead_keeps
    | extract_lets
    | with_reducible refine keeps_fst ‹_ = (_, _)› ?_
    | split

theorem goldLeaf_keeps {a : State} (a0 : State) (a1 : Nat) (a2 : Own) (a3 : Golden) (a4 : GoldBlk) (a5 : BlkRead) (h : Keeps a a0) : Keeps a (goldLeaf a0 a1 a2 a3 a4 a5).1 := by
  unfold goldLeaf
  repeat' first
    | with_reducible assumption
    | with_reducible apply needLeaf_keeps
    | with_reducible apply leafFetched_keeps
    | with_reducible apply flashHash_keeps
    | with_reducible apply ownNext_keeps
    | with_reducible apply keeps_foldl
    | with_reducible apply keeps_foldl1
    | extract_lets
    | with_reducible refine keeps_fst ‹_ = (_, _)› ?_
    | with_reducible refine keeps_fst3 ‹_ = (_, _, _)› ?_
    | with_reducible refine keeps_fst4 ‹_ = (_, _, _, _)› ?_
    | with_reducible refine keeps_fst5 ‹_ = (_, _, _, _, _)› ?_
    | with_reducible refine keeps_snd ‹_ = (_, _)› ?_
    | split
    | intro _
    | with_reducible apply keeps_mk

theorem stageResult_keeps {a : State} (a0 : State) (a1 : Nat) (a2 : Nat) (a3 : Manifest) (h : Keeps a a0) : Keeps a (stageResult a0 a1 a2 a3) := by
  unfold stageResult
  repeat' first
    | with_reducible assumption
    | with_reducible apply modPort_keeps
    | extract_lets
    | split
    | intro _
    | with_reducible apply keeps_mk

theorem startCopy_keeps {a : State} (a0 : State) (a1 : Nat) (h : Keeps a a0) : Keeps a (startCopy a0 a1) := by
  unfold startCopy
  repeat' first
    | with_reducible assumption
    | with_reducible apply pulseFlashReset_keeps
    | with_reducible apply modPort_keeps
    | extract_lets
    | intro _
    | with_reducible apply keeps_mk

theorem manifestStart_keeps {a : State} (a0 : State) (a1 : ManParams) (h : Keeps a a0) : Keeps a (manifestStart a0 a1).1 := by
  unfold manifestStart
  repeat' first
    | with_reducible assumption
    | with_reducible apply modPort_keeps
    | extract_lets
    | split
    | intro _
    | with_reducible apply keeps_mk

theorem startRefusal_keeps {a : State} (a0 : State) (a1 : Job) (h : Keeps a a0) : Keeps a (startRefusal a0 a1).1 := by
  unfold startRefusal
  repeat' first
    | with_reducible assumption
    | with_reducible apply manifestStart_keeps
    | with_reducible refine keeps_fst ‹_ = (_, _)› ?_
    | split

theorem indexFree_keeps {a : State} (a0 : State) (a1 : List Walk) (h : Keeps a a0) : Keeps a (indexFree a0 a1) := by
  unfold indexFree
  dsimp only
  repeat' first
    | with_reducible assumption
    | with_reducible apply retryJob_keeps
    | with_reducible apply unparkQueue_keeps
    | extract_lets
    | with_reducible refine keeps_fst ‹_ = (_, _)› ?_
    | split
    | with_reducible apply keeps_mk

theorem invalidateEnds_keeps {a : State} (a0 : State) (a1 : Nat) (a2 : List Walk) (h : Keeps a a0) : Keeps a (invalidateEnds a0 a1 a2) := by
  unfold invalidateEnds
  repeat' first
    | with_reducible assumption
    | with_reducible apply finish_keeps
    | extract_lets
    | with_reducible refine keeps_fst ‹_ = (_, _)› ?_
    | split
    | intro _

theorem driveFrom_keeps {a : State} (a0 : State) (a1 : Nat) (a2 : Nat) (a3 : List (Nat × Nat × Nat)) (h : Keeps a a0) : Keeps a (driveFrom a0 a1 a2 a3) := by
  induction a3 generalizing a0 a2 with
  | nil => exact h
  | cons b t ih =>
    unfold driveFrom
    repeat' first
      | with_reducible apply ih
      | with_reducible assumption
      | with_reducible apply ownRead_keeps
      | with_reducible apply keeps_foldl
      | with_reducible apply keeps_foldl1
      | extract_lets
      | with_reducible refine keeps_fst ‹_ = (_, _)› ?_
      | with_reducible refine keeps_fst3 ‹_ = (_, _, _)› ?_
      | with_reducible refine keeps_fst4 ‹_ = (_, _, _, _)› ?_
      | with_reducible refine keeps_fst5 ‹_ = (_, _, _, _, _)› ?_
      | with_reducible refine keeps_snd ‹_ = (_, _)› ?_
      | split
      | intro _
      | with_reducible apply keeps_mk

theorem ownTo_keeps {a : State} (a0 : State) (a1 : Nat) (a2 : Own) (a3 : Nat) (h : Keeps a a0) : Keeps a (ownTo a0 a1 a2 a3) := by
  unfold ownTo
  repeat' first
    | with_reducible assumption
    | with_reducible apply ownPut_keeps
    | with_reducible apply driveFrom_keeps
    | extract_lets
    | with_reducible refine keeps_fst ‹_ = (_, _)› ?_
    | split

theorem ownWhole_keeps {a : State} (a0 : State) (a1 : Nat) (a2 : Own) (h : Keeps a a0) : Keeps a (ownWhole a0 a1 a2) := by
  unfold ownWhole
  repeat' first
    | with_reducible assumption
    | with_reducible apply ownTo_keeps

theorem tapScan_keeps {a : State} (a0 : State) (a1 : Nat) (h : Keeps a a0) : Keeps a (tapScan a0 a1) := by
  unfold tapScan
  repeat' first
    | with_reducible assumption
    | with_reducible apply emit_keeps
    | with_reducible apply keeps_mk

theorem runDrbg_keeps {a : State} (a0 : State) (a1 : Job) (a2 : Bytes) (a3 : Bytes) (h : Keeps a a0) : Keeps a (runDrbg a0 a1 a2 a3).1 := by
  unfold runDrbg
  repeat' first
    | with_reducible assumption
    | with_reducible apply draw_keeps
    | extract_lets
    | with_reducible refine keeps_fst ‹_ = (_, _)› ?_
    | split

theorem residentEcc_keeps {a : State} (a0 : State) (a1 : Nat) (a2 : List Nat) (a3 : Nat) (a4 : List (Nat × Bool)) (h : Keeps a a0) : Keeps a (residentEcc a0 a1 a2 a3 a4).1 := by
  induction a4 generalizing a0 with
  | nil => exact h
  | cons b t ih =>
    unfold residentEcc
    repeat' first
      | with_reducible apply ih
      | with_reducible assumption
      | with_reducible apply eccNote_keeps
      | extract_lets
      | split
      | intro _

theorem openBlock_keeps {a : State} (a0 : State) (a1 : Nat) (a2 : OpenBlk) (h : Keeps a a0) : Keeps a (openBlock a0 a1 a2) := by
  unfold openBlock
  repeat' first
    | with_reducible assumption
    | with_reducible apply modPort_keeps
    | with_reducible apply needLeaf_keeps
    | with_reducible apply tset_keeps
    | extract_lets
    | split
    | intro _
    | with_reducible apply keeps_mk

theorem tapPiece_keeps {a : State} (a0 : State) (a1 : Nat) (a2 : OpenBlk) (a3 : List (Nat × Byte)) (h : Keeps a a0) : Keeps a (tapPiece a0 a1 a2 a3).1 := by
  unfold tapPiece
  repeat' first
    | with_reducible assumption
    | with_reducible apply irq_keeps
    | with_reducible apply rcount_keeps
    | with_reducible apply openBlock_keeps
    | with_reducible apply modPort_keeps
    | with_reducible apply failedCheck_keeps
    | extract_lets
    | with_reducible refine keeps_fst ‹_ = (_, _)› ?_
    | with_reducible refine keeps_fst3 ‹_ = (_, _, _)› ?_
    | with_reducible refine keeps_fst4 ‹_ = (_, _, _, _)› ?_
    | split
    | intro _

theorem readPiece_keeps {a : State} (a0 : State) (a1 : Nat) (a2 : Nat) (a3 : Src) (a4 : Nat) (a5 : List Nat) (a6 : Nat) (a7 : ReadIn) (h : Keeps a a0) : Keeps a (readPiece a0 a1 a2 a3 a4 a5 a6 a7).1 := by
  unfold readPiece
  dsimp only
  repeat' first
    | with_reducible assumption
    | with_reducible apply rcount_keeps
    | with_reducible apply residentEcc_keeps
    | with_reducible apply eccAct_keeps
    | with_reducible apply eccPort_keeps
    | with_reducible apply tapPiece_keeps
    | extract_lets
    | with_reducible refine keeps_fst ‹_ = (_, _)› ?_
    | split
    | intro _
    | with_reducible apply keeps_mk

theorem tapBypassed_keeps {a : State} (a0 : State) (h : Keeps a a0) : Keeps a (tapBypassed a0) := by
  unfold tapBypassed
  repeat' first
    | with_reducible assumption
    | with_reducible apply emit_keeps
    | with_reducible apply tapScan_keeps

theorem svcArrive_keeps {a : State} (a0 : State) (a1 : SvcReq) (a2 : State → State) (h2 : ∀ x, Keeps a x → Keeps a (a2 x)) (h : Keeps a a0) : Keeps a (svcArrive a0 a1 a2) := by
  unfold svcArrive
  dsimp only
  repeat' first
    | with_reducible assumption
    | with_reducible apply wakeSource_keeps
    | with_reducible apply tstop_keeps
    | with_reducible apply tset_keeps
    | with_reducible apply emit_keeps
    | with_reducible apply rcount_keeps
    | with_reducible apply h2
    | extract_lets
    | with_reducible refine keeps_fst ‹_ = (_, _)› ?_
    | split
    | intro _
    | with_reducible apply keeps_mk

theorem crossEnds_keeps {a : State} (a0 : State) (a1 : Nat) (h : Keeps a a0) : Keeps a (crossEnds a0 a1) := by
  unfold crossEnds
  repeat' first
    | with_reducible assumption
    | with_reducible apply irq_keeps
    | with_reducible apply rsetb_keeps
    | with_reducible apply rcount_keeps
    | extract_lets
    | split

theorem readMore_keeps {a : State} (a0 : Nat) (a1 : Nat) (a2 : ReadIn) (a3 : Nat) (a4 : State) (a5 : Src) (a6 : Nat) (a7 : Nat) (a8 : Nat) (h : Keeps a a4) : Keeps a (readMore a0 a1 a2 a3 a4 a5 a6 a7 a8).1 := by
  induction a3 generalizing a4 a5 a6 a7 a8 with
  | zero => exact h
  | succ k ih =>
    unfold readMore
    repeat' first
      | with_reducible apply ih
      | with_reducible assumption
      | with_reducible apply crossEnds_keeps
      | with_reducible apply readPiece_keeps
      | extract_lets
      | with_reducible refine keeps_fst ‹_ = (_, _)› ?_
      | with_reducible refine keeps_fst3 ‹_ = (_, _, _)› ?_
      | with_reducible refine keeps_fst4 ‹_ = (_, _, _, _)› ?_
      | split

theorem runKeyImport_keeps {a : State} (a0 : State) (a1 : Job) (a2 : Bytes) (a3 : Bytes) (h : Keeps a a0) : Keeps a (runKeyImport a0 a1 a2 a3).1 := by
  unfold runKeyImport
  repeat' first
    | with_reducible assumption
    | with_reducible apply fill_keeps
    | extract_lets
    | with_reducible refine keeps_fst ‹_ = (_, _)› ?_
    | split

theorem stageReads_keeps {a : State} (a0 : State) (a1 : Nat) (a2 : List TreeCtx) (a3 : List Bytes) (h : Keeps a a0) : Keeps a (stageReads a0 a1 a2 a3) := by
  induction a2 generalizing a0 a3 with
  | nil => exact h
  | cons b t ih =>
    unfold stageReads
    repeat' first
      | with_reducible apply ih
      | with_reducible assumption
      | with_reducible apply flashHash_keeps
      | with_reducible apply ownRead_keeps
      | with_reducible apply keeps_foldl
      | with_reducible apply keeps_foldl1
      | extract_lets
      | with_reducible refine keeps_fst ‹_ = (_, _)› ?_
      | with_reducible refine keeps_fst3 ‹_ = (_, _, _)› ?_
      | with_reducible refine keeps_fst4 ‹_ = (_, _, _, _)› ?_
      | with_reducible refine keeps_fst5 ‹_ = (_, _, _, _, _)› ?_
      | with_reducible refine keeps_snd ‹_ = (_, _)› ?_
      | split
      | intro _
      | with_reducible apply keeps_mk

end Sys2Proof.Machine
end

