-- ==== Sys2Proof/Laws/Keeps6.lean ====
section
/-! SUPPORT. Laws/Keeps6.lean: each operation `f` of the machine keeps what `Keeps` speaks of (`f_keeps`), part 6 of 6. -/
namespace Sys2Proof.Machine

theorem giveUpLane_keeps {a : State} (a0 : State) (a1 : Nat) (a2 : Nat) (a3 : Job) (a4 : Nat) (a5 : JobIO) (h : Keeps a a0) : Keeps a (giveUpLane a0 a1 a2 a3 a4 a5) := by
  unfold giveUpLane
  repeat' first
    | with_reducible assumption
    | with_reducible apply rcount_keeps
    | with_reducible apply translateAll_keeps
    | with_reducible apply finish_keeps
    | with_reducible apply park_keeps
    | with_reducible apply setJob_keeps
    | with_reducible apply keeps_foldl
    | with_reducible apply keeps_foldl1
    | extract_lets
    | with_reducible refine keeps_fst ‹_ = (_, _)› ?_
    | with_reducible refine keeps_fst3 ‹_ = (_, _, _)› ?_
    | with_reducible refine keeps_fst4 ‹_ = (_, _, _, _)› ?_
    | split

theorem startRaises_keeps {a : State} (a0 : State) (a1 : Nat) (a2 : List ManEntry) (h : Keeps a a0) : Keeps a (startRaises a0 a1 a2) := by
  unfold startRaises
  repeat' first
    | with_reducible assumption
    | with_reducible apply raiseNext_keeps
    | with_reducible apply modPort_keeps
    | extract_lets
    | intro _
    | with_reducible apply keeps_mk

theorem ringClear_keeps {a : State} (a0 : State) (h : Keeps a a0) : Keeps a (ringClear a0) := by
  unfold ringClear
  repeat' first
    | with_reducible assumption
    | with_reducible apply pageClear_keeps
    | with_reducible apply tset_keeps
    | extract_lets
    | split
    | intro _
    | with_reducible apply keeps_mk

theorem domainPages_keeps {a : State} (a0 : State) (a1 : Nat) (h : Keeps a a0) : Keeps a (domainPages a0 a1) := by
  unfold domainPages
  repeat' first
    | with_reducible assumption
    | with_reducible apply portReset_keeps
    | with_reducible apply pageClear_keeps
    | with_reducible apply ringClear_keeps
    | extract_lets
    | with_reducible refine keeps_fst ‹_ = (_, _)› ?_
    | split
    | with_reducible apply keeps_mk

theorem startReconcile_keeps {a : State} (a0 : State) (h : Keeps a a0) : Keeps a (startReconcile a0) := by
  unfold startReconcile
  repeat' first
    | with_reducible assumption
    | with_reducible apply rsetf_keeps
    | with_reducible apply keeps_mk

theorem domainOn_keeps {a : State} (a0 : State) (a1 : Nat) (h : Keeps a a0) : Keeps a (domainOn a0 a1) := by
  unfold domainOn
  repeat' first
    | with_reducible assumption
    | with_reducible apply domainPages_keeps
    | with_reducible apply portLeaveReset_keeps
    | with_reducible apply tset_keeps
    | with_reducible apply ringNote_keeps
    | with_reducible apply sideTrains_keeps
    | with_reducible apply startReconcile_keeps
    | extract_lets
    | with_reducible refine keeps_fst ‹_ = (_, _)› ?_
    | split
    | with_reducible apply keeps_mk

theorem chainCheck_keeps {a : State} (a0 : State) (a1 : Nat) (h : Keeps a a0) : Keeps a (chainCheck a0 a1).1 := by
  unfold chainCheck
  repeat' first
    | with_reducible assumption
    | with_reducible apply orphan_keeps
    | with_reducible apply keeps_foldl
    | with_reducible apply keeps_foldl1
    | with_reducible refine keeps_fst ‹_ = (_, _)› ?_
    | split

theorem manifestRead_keeps {a : State} (a0 : State) (a1 : ManParams) (a2 : Bytes) (h : Keeps a a0) : Keeps a (manifestRead a0 a1 a2) := by
  unfold manifestRead
  repeat' first
    | with_reducible assumption
    | with_reducible apply ownRead_keeps
    | with_reducible apply keeps_foldl
    | with_reducible apply keeps_foldl1
    | extract_lets
    | intro _

theorem measureResult_keeps {a : State} (a0 : State) (a1 : Nat) (a2 : Nat) (a3 : Manifest) (a4 : Bool) (h : Keeps a a0) : Keeps a (measureResult a0 a1 a2 a3 a4) := by
  unfold measureResult
  repeat' first
    | with_reducible assumption
    | with_reducible apply seqFail_keeps
    | with_reducible apply measureMan_keeps
    | with_reducible apply modPort_keeps
    | with_reducible apply startRaises_keeps
    | with_reducible apply startTreeLoad_keeps
    | extract_lets
    | split
    | intro _
    | with_reducible apply keeps_mk

theorem goldenResult_keeps {a : State} (a0 : State) (a1 : Nat) (a2 : Nat) (a3 : Nat) (a4 : Manifest) (a5 : Golden) (h : Keeps a a0) : Keeps a (goldenResult a0 a1 a2 a3 a4 a5) := by
  unfold goldenResult
  repeat' first
    | with_reducible assumption
    | with_reducible apply seqFail_keeps
    | with_reducible apply modPort_keeps
    | with_reducible apply rset_keeps
    | with_reducible apply startTreeLoad_keeps
    | extract_lets
    | split
    | intro _
    | with_reducible apply keeps_mk

theorem manifestRun_keeps {a : State} (a0 : State) (a1 : ManParams) (a2 : Bytes) (a3 : List Bytes) (h : Keeps a a0) : Keeps a (manifestRun a0 a1 a2 a3).1 := by
  unfold manifestRun
  dsimp only
  repeat' first
    | with_reducible assumption
    | with_reducible apply modPort_keeps
    | with_reducible apply manifestRead_keeps
    | with_reducible apply measureResult_keeps
    | with_reducible apply goldenResult_keeps
    | with_reducible apply stageReads_keeps
    | with_reducible apply irq_keeps
    | with_reducible apply duReport_keeps
    | with_reducible apply stageResult_keeps
    | extract_lets
    | with_reducible refine keeps_fst ‹_ = (_, _)› ?_
    | split
    | intro _
    | with_reducible apply keeps_mk

theorem manifestJob_keeps {a : State} (a0 : State) (a1 : Nat) (a2 : Nat) (a3 : Bytes) (a4 : List Bytes) (h : Keeps a a0) : Keeps a (manifestJob a0 a1 a2 a3 a4) := by
  unfold manifestJob
  repeat' first
    | with_reducible assumption
    | with_reducible apply finish_keeps
    | with_reducible apply chainCheck_keeps
    | with_reducible apply manifestRun_keeps
    | with_reducible apply countUnit_keeps
    | with_reducible apply keeps_foldl
    | with_reducible apply keeps_foldl1
    | extract_lets
    | with_reducible refine keeps_fst ‹_ = (_, _)› ?_
    | with_reducible refine keeps_fst3 ‹_ = (_, _, _)› ?_
    | with_reducible refine keeps_fst4 ‹_ = (_, _, _, _)› ?_
    | with_reducible refine keeps_fst5 ‹_ = (_, _, _, _, _)› ?_
    | with_reducible refine keeps_snd ‹_ = (_, _)› ?_
    | split
    | intro _
    | with_reducible apply keeps_mk

theorem keyBad_keeps {a : State} (a0 : State) (a1 : Sub) (a2 : Nat) (a3 : Nat) (a4 : List Nat) (a5 : Bool) (h : Keeps a a0) : Keeps a (keyBad a0 a1 a2 a3 a4 a5).1 := by
  unfold keyBad
  repeat' first
    | with_reducible assumption
    | with_reducible apply chainCheck_keeps
    | extract_lets
    | with_reducible refine keeps_fst ‹_ = (_, _)› ?_
    | split

theorem relD2Ends_keeps {a : State} (a0 : State) (a1 : Nat) (h : Keeps a a0) : Keeps a (relD2Ends a0 a1) := by
  unfold relD2Ends
  repeat' first
    | with_reducible assumption
    | with_reducible apply fire_keeps
    | with_reducible apply modPort_keeps
    | with_reducible apply releaseOut_keeps
    | with_reducible apply toState_keeps
    | with_reducible apply cmdEnd_keeps
    | extract_lets
    | split
    | intro _
    | with_reducible apply keeps_mk

theorem goldBlock_keeps {a : State} (a0 : State) (a1 : Nat) (a2 : Own) (a3 : Golden) (a4 : Nat) (a5 : Option GoldBlk) (a6 : BlkRead) (h : Keeps a a0) : Keeps a (goldBlock a0 a1 a2 a3 a4 a5 a6).1 := by
  unfold goldBlock
  repeat' first
    | with_reducible assumption
    | with_reducible apply ownNext_keeps
    | with_reducible apply goldLeaf_keeps
    | with_reducible apply flashHash_keeps
    | with_reducible apply ownRead_keeps
    | with_reducible apply seqFail_keeps
    | extract_lets
    | with_reducible refine keeps_fst ‹_ = (_, _)› ?_
    | split

theorem convert_keeps {a : State} (a0 : State) (a1 : Nat) (a2 : Nat) (h : Keeps a a0) : Keeps a (convert a0 a1 a2).1 := by
  unfold convert
  repeat' first
    | with_reducible assumption
    | with_reducible apply rset_keeps
    | extract_lets

theorem busyEnds_keeps {a : State} (a0 : State) (a1 : Nat) (h : Keeps a a0) : Keeps a (busyEnds a0 a1) := by
  unfold busyEnds
  repeat' first
    | with_reducible assumption
    | with_reducible apply modPort_keeps
    | with_reducible apply tstop_keeps
    | extract_lets
    | intro _
    | with_reducible apply keeps_mk

theorem copyBusyFail_keeps {a : State} (a0 : State) (a1 : Nat) (h : Keeps a a0) : Keeps a (copyBusyFail a0 a1) := by
  unfold copyBusyFail
  repeat' first
    | with_reducible assumption
    | with_reducible apply modPort_keeps
    | with_reducible apply irq_keeps
    | with_reducible apply rsetb_keeps
    | with_reducible apply quarantine_keeps
    | with_reducible apply report_keeps
    | extract_lets
    | split
    | intro _
    | with_reducible apply keeps_mk

theorem ownIssue_keeps {a : State} (a0 : State) (a1 : Nat) (a2 : Own) (a3 : Bytes) (h : Keeps a a0) : Keeps a (ownIssue a0 a1 a2 a3) := by
  unfold ownIssue
  repeat' first
    | with_reducible assumption
    | with_reducible apply ownRead_keeps
    | with_reducible apply ownPut_keeps
    | with_reducible apply setFrame_keeps
    | with_reducible apply ownClear_keeps
    | with_reducible apply modPort_keeps
    | extract_lets
    | with_reducible refine keeps_fst ‹_ = (_, _)› ?_
    | split
    | intro _
    | with_reducible apply keeps_mk

theorem forwardRead_keeps {a : State} (a0 : State) (a1 : Nat) (a2 : Nat) (a3 : Nat) (a4 : Bool) (h : Keeps a a0) : Keeps a (forwardRead a0 a1 a2 a3 a4) := by
  unfold forwardRead
  repeat' first
    | with_reducible assumption
    | with_reducible apply modPort_keeps
    | with_reducible apply flashOut_keeps
    | extract_lets
    | split
    | intro _
    | with_reducible apply keeps_mk

theorem svcRequest_keeps {a : State} (a0 : State) (a1 : SvcReq) (h : Keeps a a0) : Keeps a (svcRequest a0 a1) := by
  unfold svcRequest
  repeat' first
    | with_reducible assumption
    | with_reducible apply svcArrive_keeps
    | with_reducible apply svcExecute_keeps
    | extract_lets
    | intro _

theorem freshBackup_keeps {a : State} (a0 : State) (h : Keeps a a0) : Keeps a (freshBackup a0) := by
  unfold freshBackup
  repeat' first
    | with_reducible assumption
    | with_reducible apply freshCanary_keeps
    | extract_lets
    | with_reducible apply keeps_mk

theorem nowRooted_keeps {a : State} (a0 : State) (h : Keeps a a0) : Keeps a (nowRooted a0) := by
  unfold nowRooted
  repeat' first
    | with_reducible assumption
    | with_reducible apply freshBackup_keeps
    | with_reducible apply rsetf_keeps
    | extract_lets
    | split
    | intro _
    | with_reducible apply keeps_mk

theorem nowLadder_keeps {a : State} (a0 : State) (h : Keeps a a0) : Keeps a (nowLadder a0) := by
  unfold nowLadder
  repeat' first
    | with_reducible assumption
    | with_reducible apply nowRooted_keeps
    | with_reducible apply runLadder_keeps
    | extract_lets

theorem svcResume_keeps {a : State} (a0 : State) (h : Keeps a a0) : Keeps a (svcResume a0) := by
  unfold svcResume
  repeat' first
    | with_reducible assumption
    | with_reducible apply emit_keeps
    | with_reducible apply svcDrain_keeps
    | with_reducible apply keeps_foldl
    | with_reducible apply keeps_foldl1
    | extract_lets
    | split
    | intro _
    | with_reducible apply keeps_mk

theorem runKdf_keeps {a : State} (a0 : State) (a1 : Job) (a2 : Bytes) (a3 : Bytes) (h : Keeps a a0) : Keeps a (runKdf a0 a1 a2 a3).1 := by
  unfold runKdf
  repeat' first
    | with_reducible assumption
    | with_reducible apply fill_keeps
    | extract_lets
    | with_reducible refine keeps_fst ‹_ = (_, _)› ?_
    | split

theorem tick_keeps {a : State} (a0 : State) (h : Keeps a a0) : Keeps a (tick a0) := by
  unfold tick
  repeat' first
    | with_reducible assumption
    | with_reducible apply elapse_keeps
    | split

theorem svcPortFree_keeps {a : State} (a0 : State) (h : Keeps a a0) : Keeps a (svcPortFree a0) := by
  unfold svcPortFree
  repeat' first
    | with_reducible assumption
    | with_reducible apply svcDrain_keeps
    | with_reducible refine keeps_fst ‹_ = (_, _)› ?_
    | split

theorem forget_keeps {a : State} (a0 : State) (a1 : Nat) (a2 : Nat × Nat × Nat) (h : Keeps a a0) : Keeps a (forget a0 a1 a2) := by
  unfold forget
  repeat' first
    | with_reducible assumption
    | with_reducible apply modPort_keeps
    | extract_lets
    | intro _
    | with_reducible apply keeps_mk

theorem countFill_keeps {a : State} (a0 : State) (a1 : Nat) (a2 : Bytes) (a3 : Nat) (h : Keeps a a0) : Keeps a (countFill a0 a1 a2 a3) := by
  unfold countFill
  repeat' first
    | with_reducible assumption
    | with_reducible apply modPort_keeps
    | extract_lets
    | split
    | intro _
    | with_reducible apply keeps_mk

theorem romProgram_keeps {a : State} (a0 : RomEnv) (a1 : State × Bool) (a2 : Nat) (a3 : Word) (h : Keeps a a1.1) : Keeps a (romProgram a0 a1 a2 a3).1 := by
  unfold romProgram
  dsimp only
  repeat' first
    | with_reducible assumption
    | with_reducible apply fusEnd_keeps
    | with_reducible apply romPulses_keeps
    | extract_lets
    | with_reducible refine keeps_fst ‹_ = (_, _)› ?_
    | with_reducible refine keeps_fst3 ‹_ = (_, _, _)› ?_
    | with_reducible refine keeps_fst4 ‹_ = (_, _, _, _)› ?_
    | split

theorem romRepairs_keeps {a : State} (a0 : State) (a1 : RomEnv) (h : Keeps a a0) : Keeps a (romRepairs a0 a1) := by
  unfold romRepairs
  dsimp only
  repeat' first
    | with_reducible assumption
    | with_reducible apply romProgram_keeps
    | with_reducible apply rsetb_keeps
    | with_reducible apply keeps_foldl
    | with_reducible apply keeps_foldl1
    | extract_lets
    | with_reducible refine keeps_fst ‹_ = (_, _)› ?_
    | split
    | intro _

theorem zeroiseChanged_keeps {a : State} (a0 : State) (h : Keeps a a0) : Keeps a (zeroiseChanged a0) := by
  unfold zeroiseChanged
  repeat' first
    | with_reducible assumption
    | extract_lets
    | split
    | intro _
    | with_reducible apply keeps_mk

theorem romRequest_keeps {a : State} (a0 : State) (a1 : RomEnv) (a2 : Bytes) (h : Keeps a a0) : Keeps a (romRequest a0 a1 a2).1 := by
  unfold romRequest
  dsimp only
  repeat' first
    | with_reducible assumption
    | with_reducible apply rset_keeps
    | with_reducible apply irq_keeps
    | with_reducible apply report_keeps
    | with_reducible apply romProgram_keeps
    | with_reducible apply keeps_foldl
    | with_reducible apply keeps_foldl1
    | extract_lets
    | with_reducible refine keeps_fst ‹_ = (_, _)› ?_
    | split
    | intro _

theorem portUnlocked_keeps {a : State} (a0 : State) (a1 : Nat) (h : Keeps a a0) : Keeps a (portUnlocked a0 a1) := by
  unfold portUnlocked
  repeat' first
    | with_reducible assumption
    | with_reducible apply raiseNext_keeps
    | with_reducible apply startRelease_keeps
    | with_reducible apply modPort_keeps
    | extract_lets
    | split
    | intro _
    | with_reducible apply keeps_mk

theorem unlock_keeps {a : State} (a0 : State) (a1 : Bytes) (h : Keeps a a0) : Keeps a (unlock a0 a1) := by
  unfold unlock
  repeat' first
    | with_reducible assumption
    | with_reducible apply freshBackup_keeps
    | with_reducible apply hwExtend_keeps
    | with_reducible apply portUnlocked_keeps
    | with_reducible apply keeps_foldl
    | with_reducible apply keeps_foldl1
    | extract_lets
    | with_reducible apply keeps_mk

theorem openWindow_keeps {a : State} (a0 : State) (h : Keeps a a0) : Keeps a (openWindow a0) := by
  unfold openWindow
  repeat' first
    | with_reducible assumption
    | with_reducible apply irq_keeps
    | with_reducible apply tset_keeps
    | extract_lets
    | with_reducible apply keeps_mk

theorem romToken_keeps {a : State} (a0 : State) (a1 : Bytes) (h : Keeps a a0) : Keeps a (romToken a0 a1) := by
  unfold romToken
  repeat' first
    | with_reducible assumption
    | with_reducible apply irq_keeps
    | with_reducible apply rsetb_keeps
    | with_reducible apply rsetf_keeps
    | with_reducible apply report_keeps
    | with_reducible apply requeueApplies_keeps
    | with_reducible apply unlock_keeps
    | with_reducible apply openWindow_keeps
    | extract_lets
    | with_reducible refine keeps_fst ‹_ = (_, _)› ?_
    | split

theorem romLifecycle_keeps {a : State} (s : State) (e : RomEnv) (h : Keeps a s) : Keeps a (romLifecycle s e).1 := by
  generalize hx : romLifecycle s e = x
  unfold romLifecycle at hx
  extract_lets s1 nonce req tok r s2 at hx
  have h1 : Keeps a s1 := romRepairs_keeps _ _ (zeroiseChanged_keeps _ h)
  have h2 : Keeps a r.1 := by
    unfold r
    split
    · with_reducible exact romRequest_keeps _ _ _ h1
    · with_reducible exact h1
  have h3 : Keeps a s2 := by
    unfold s2
    split
    · with_reducible exact romToken_keeps _ _ h2
    · with_reducible exact h2
  clear_value s2 r
  rw [← hx]
  split
  · with_reducible exact h2
  · dsimp only
    split
    · with_reducible exact newNonce_keeps _ h3
    · with_reducible exact h3

theorem runPolicy_keeps {a : State} (a0 : State) (a1 : Job) (a2 : Bytes) (a3 : Bytes) (h : Keeps a a0) : Keeps a (runPolicy a0 a1 a2 a3).1 := by
  unfold runPolicy
  repeat' first
    | with_reducible assumption
    | with_reducible apply extend_keeps
    | with_reducible apply rsetb_keeps
    | with_reducible apply rsetBytes_keeps
    | extract_lets
    | split

theorem writeNodes_keeps {a : State} (a0 : State) (a1 : Nat) (a2 : TreeCtx) (a3 : List Bytes) (h : Keeps a a0) : Keeps a (writeNodes a0 a1 a2 a3) := by
  unfold writeNodes
  repeat' first
    | with_reducible assumption
    | with_reducible apply setFrame_keeps
    | with_reducible apply keeps_foldl
    | with_reducible apply keeps_foldl1
    | extract_lets
    | intro _

theorem dropFilling_keeps {a : State} (a0 : State) (a1 : Nat) (h : Keeps a a0) : Keeps a (dropFilling a0 a1) := by
  unfold dropFilling
  repeat' first
    | with_reducible assumption
    | with_reducible apply mapFrames_keeps
    | extract_lets
    | intro _
    | with_reducible apply keeps_mk

theorem treeLoadEnds_keeps {a : State} (a0 : State) (a1 : Nat) (a2 : List Bytes) (h : Keeps a a0) : Keeps a (treeLoadEnds a0 a1 a2) := by
  unfold treeLoadEnds
  repeat' first
    | with_reducible assumption
    | with_reducible apply irq_keeps
    | with_reducible apply writeNodes_keeps
    | with_reducible apply modPort_keeps
    | with_reducible apply seqFail_keeps
    | with_reducible apply dropFilling_keeps
    | with_reducible apply treesLoaded_keeps
    | with_reducible apply keeps_foldl
    | with_reducible apply keeps_foldl1
    | extract_lets
    | with_reducible refine keeps_fst ‹_ = (_, _)› ?_
    | split
    | intro _
    | with_reducible apply keeps_mk

theorem completeWith_keeps {a : State} (a0 : State) (a1 : Nat) (a2 : OpenBlk) (a3 : Bytes) (h : Keeps a a0) : Keeps a (completeWith a0 a1 a2 a3) := by
  unfold completeWith
  repeat' first
    | with_reducible assumption
    | with_reducible apply modPort_keeps
    | with_reducible apply failedCheck_keeps
    | extract_lets
    | with_reducible refine keeps_fst ‹_ = (_, _)› ?_
    | split
    | intro _
    | with_reducible apply keeps_mk

theorem fillBlock_keeps {a : State} (a0 : State) (a1 : Nat) (a2 : Bytes) (h : Keeps a a0) : Keeps a (fillBlock a0 a1 a2) := by
  unfold fillBlock
  repeat' first
    | with_reducible assumption
    | with_reducible apply askLeaf_keeps
    | with_reducible apply ownClear_keeps
    | with_reducible apply setFrame_keeps
    | with_reducible apply fillFrom_keeps
    | with_reducible apply countFill_keeps
    | with_reducible apply failedCheck_keeps
    | with_reducible apply modPort_keeps
    | with_reducible apply rcount_keeps
    | extract_lets
    | with_reducible refine keeps_fst ‹_ = (_, _)› ?_
    | split
    | intro _
    | with_reducible apply keeps_mk

theorem refillRead_keeps {a : State} (a0 : State) (a1 : Nat) (a2 : Bytes) (h : Keeps a a0) : Keeps a (refillRead a0 a1 a2) := by
  unfold refillRead
  repeat' first
    | with_reducible assumption
    | with_reducible apply askLeaf_keeps
    | with_reducible apply setFrame_keeps
    | with_reducible apply ownClear_keeps
    | with_reducible apply modPort_keeps
    | with_reducible apply failedCheck_keeps
    | with_reducible apply rcount_keeps
    | extract_lets
    | with_reducible refine keeps_fst ‹_ = (_, _)› ?_
    | split
    | intro _
    | with_reducible apply keeps_mk

theorem snoopServe_keeps {a : State} (s t : State) (n : Nat) (h : Keeps a s) (ht : snoopServe s n = some t) : Keeps a t := by
  unfold snoopServe at ht
  extract_lets p trees at ht
  clear_value trees p
  split at ht
  · cases ht
  split at ht
  · cases ht
    exact leafFetched_keeps _ _ _ _ (flashHash_keeps _ _ (forget_keeps _ _ _ h))
  split at ht
  · cases ht
    exact treeLoadEnds_keeps _ _ _ (keeps_foldl (flashHash_keeps _ _ h) fun x r hx => forget_keeps _ _ _ hx)
  split at ht
  · extract_lets c r at ht
    split at ht
    · cases ht
    · cases ht; exact completeWith_keeps _ _ _ _ (forget_keeps _ _ _ h)
  · split at ht
    · cases ht; exact fillBlock_keeps _ _ _ (flashHash_keeps _ _ (forget_keeps _ _ _ h))
    · cases ht; exact refillRead_keeps _ _ _ (flashHash_keeps _ _ (forget_keeps _ _ _ h))
    · cases ht; exact modPort_keeps _ _ _ (forget_keeps _ _ _ h)
    · cases ht
theorem snoopAll_keeps {a : State} (n k : Nat) (s : State) (h : Keeps a s) : Keeps a (snoopAll n k s) := by
  induction k generalizing s with
  | zero => exact h
  | succ k ih =>
    unfold snoopAll
    split
    next t ht => with_reducible exact ih t (snoopServe_keeps s t n h ht)
    · exact h

theorem runHash_keeps {a : State} (a0 : State) (a1 : Job) (a2 : Bytes) (a3 : Bytes) (h : Keeps a a0) : Keeps a (runHash a0 a1 a2 a3).1 := by
  unfold runHash
  repeat' first
    | with_reducible assumption
    | extract_lets
    | split

theorem runMeasExtend_keeps {a : State} (a0 : State) (a1 : Job) (a2 : Bytes) (a3 : Bytes) (h : Keeps a a0) : Keeps a (runMeasExtend a0 a1 a2 a3).1 := by
  unfold runMeasExtend
  repeat' first
    | with_reducible assumption
    | with_reducible apply extend_keeps
    | split

theorem runGcmDec_keeps {a : State} (a0 : State) (a1 : Job) (a2 : Bytes) (a3 : Bytes) (h : Keeps a a0) : Keeps a (runGcmDec a0 a1 a2 a3).1 := by
  unfold runGcmDec
  repeat' first
    | with_reducible assumption
    | extract_lets
    | with_reducible refine keeps_fst ‹_ = (_, _)› ?_
    | split

theorem runGcmEnc_keeps {a : State} (a0 : State) (a1 : Job) (a2 : Bytes) (a3 : Bytes) (h : Keeps a a0) : Keeps a (runGcmEnc a0 a1 a2 a3).1 := by
  unfold runGcmEnc
  repeat' first
    | with_reducible assumption
    | with_reducible apply draw_keeps
    | extract_lets
    | with_reducible refine keeps_fst ‹_ = (_, _)› ?_
    | split

theorem withUnits_keeps {a : State} (a0 : State) (a1 : State) (h : Keeps a a1) : Keeps a (withUnits a0 a1) := by
  unfold withUnits
  repeat' first
    | with_reducible assumption
    | with_reducible apply keeps_mk

theorem pciUncorrectable_keeps {a : State} (a0 : State) (h : Keeps a a0) : Keeps a (pciUncorrectable a0) := by
  unfold pciUncorrectable
  repeat' first
    | with_reducible assumption
    | with_reducible apply irq_keeps
    | with_reducible apply rcount_keeps

theorem runKeyWrap_keeps {a : State} (a0 : State) (a1 : Job) (a2 : Bytes) (a3 : Bytes) (h : Keeps a a0) : Keeps a (runKeyWrap a0 a1 a2 a3).1 := by
  unfold runKeyWrap
  repeat' first
    | with_reducible assumption
    | with_reducible apply draw_keeps
    | extract_lets
    | with_reducible refine keeps_fst ‹_ = (_, _)› ?_
    | split

theorem runWms_keeps {a : State} (a0 : State) (a1 : Job) (a2 : Bytes) (a3 : Bytes) (h : Keeps a a0) : Keeps a (runWms a0 a1 a2 a3).1 := by
  unfold runWms
  repeat' first
    | with_reducible assumption
    | with_reducible apply irq_keeps
    | with_reducible apply rcount_keeps
    | extract_lets
    | with_reducible refine keeps_fst ‹_ = (_, _)› ?_
    | split

theorem runSign_keeps {a : State} (a0 : State) (a1 : Job) (a2 : Bytes) (a3 : Bytes) (h : Keeps a a0) : Keeps a (runSign a0 a1 a2 a3).1 := by
  unfold runSign
  repeat' first
    | with_reducible assumption
    | split

theorem readData_keeps {a : State} (a0 : State) (a1 : Nat) (a2 : Nat) (a3 : Nat) (a4 : Src) (a5 : Option Nat) (a6 : ReadIn) (h : Keeps a a0) : Keeps a (readData a0 a1 a2 a3 a4 a5 a6).1 := by
  unfold readData
  repeat' first
    | with_reducible assumption
    | with_reducible apply readPiece_keeps
    | with_reducible apply readMore_keeps
    | extract_lets
    | with_reducible refine keeps_fst ‹_ = (_, _)› ?_
    | with_reducible refine keeps_fst3 ‹_ = (_, _, _)› ?_
    | with_reducible refine keeps_fst4 ‹_ = (_, _, _, _)› ?_
    | split
    | intro _

theorem runX25519_keeps {a : State} (a0 : State) (a1 : Job) (a2 : Bytes) (a3 : Bytes) (h : Keeps a a0) : Keeps a (runX25519 a0 a1 a2 a3).1 := by
  unfold runX25519
  repeat' first
    | with_reducible assumption
    | with_reducible apply fill_keeps
    | extract_lets
    | with_reducible refine keeps_fst ‹_ = (_, _)› ?_
    | split

theorem bfResume_keeps {a : State} (a0 : State) (h : Keeps a a0) : Keeps a (bfResume a0) := by
  unfold bfResume
  repeat' first
    | with_reducible assumption
    | with_reducible apply bfIssue_keeps
    | with_reducible refine keeps_fst ‹_ = (_, _)› ?_
    | split

theorem parkQueue_keeps {a : State} (a0 : State) (a1 : Nat) (h : Keeps a a0) : Keeps a (parkQueue a0 a1) := by
  unfold parkQueue
  repeat' first
    | with_reducible assumption
    | with_reducible apply irq_keeps
    | with_reducible apply rsetb_keeps

theorem readCmd_keeps {a : State} (a0 : State) (a1 : Nat) (a2 : Byte) (a3 : Byte) (a4 : Nat) (a5 : Nat) (a6 : Bool) (a7 : ReadIn) (h : Keeps a a0) : Keeps a (readCmd a0 a1 a2 a3 a4 a5 a6 a7) := by
  unfold readCmd
  repeat' first
    | with_reducible assumption
    | with_reducible apply drive_keeps
    | with_reducible apply deny_keeps
    | with_reducible apply irq_keeps
    | with_reducible apply rsetb_keeps
    | with_reducible apply protoFlag_keeps
    | with_reducible apply forwardRead_keeps
    | with_reducible apply readData_keeps
    | extract_lets
    | with_reducible refine keeps_fst ‹_ = (_, _)› ?_
    | split
    | with_reducible apply keeps_mk

theorem rebuildDevid_keeps {a : State} (a0 : State) (h : Keeps a a0) : Keeps a (rebuildDevid a0) := by
  unfold rebuildDevid
  repeat' first
    | with_reducible assumption
    | with_reducible apply rsetBytes_keeps
    | with_reducible apply rsetf_keeps
    | with_reducible apply rsetb_keeps
    | extract_lets

theorem runKeyPub_keeps {a : State} (a0 : State) (a1 : Job) (a2 : Bytes) (a3 : Bytes) (h : Keeps a a0) : Keeps a (runKeyPub a0 a1 a2 a3).1 := by
  unfold runKeyPub
  repeat' first
    | with_reducible assumption
    | extract_lets
    | split

theorem runKeyUnwrap_keeps {a : State} (a0 : State) (a1 : Job) (a2 : Bytes) (a3 : Bytes) (h : Keeps a a0) : Keeps a (runKeyUnwrap a0 a1 a2 a3).1 := by
  unfold runKeyUnwrap
  repeat' first
    | with_reducible assumption
    | with_reducible apply fill_keeps
    | extract_lets
    | with_reducible refine keeps_fst ‹_ = (_, _)› ?_
    | split

theorem startTest_keeps {a : State} (a0 : State) (a1 : Nat) (a2 : Job) (a3 : State → Job → State) (h3 : ∀ x j, Keeps a x → Keeps a (a3 x j)) (h : Keeps a a0) : Keeps a (startTest a0 a1 a2 a3) := by
  unfold startTest
  repeat' first
    | with_reducible assumption
    | with_reducible apply tset_keeps
    | with_reducible apply h3
    | extract_lets
    | split
    | with_reducible apply keeps_mk

theorem forwardJob_keeps {a : State} (a0 : State) (a1 : Nat) (a2 : Job) (a3 : Nat) (a4 : Nat) (a5 : List Walk) (h : Keeps a a0) : Keeps a (forwardJob a0 a1 a2 a3 a4 a5) := by
  unfold forwardJob
  repeat' first
    | with_reducible assumption
    | with_reducible apply translateAll_keeps
    | with_reducible apply finish_keeps
    | with_reducible apply setJob_keeps
    | with_reducible apply tset_keeps
    | with_reducible apply sendFrame_keeps
    | extract_lets
    | with_reducible refine keeps_fst ‹_ = (_, _)› ?_
    | with_reducible refine keeps_fst3 ‹_ = (_, _, _)› ?_
    | with_reducible refine keeps_fst4 ‹_ = (_, _, _, _)› ?_
    | split
    | with_reducible apply keeps_mk

theorem countStart_keeps {a : State} (a0 : State) (a1 : Job) (h : Keeps a a0) : Keeps a (countStart a0 a1) := by
  unfold countStart
  repeat' first
    | with_reducible assumption
    | extract_lets
    | split
    | intro _
    | with_reducible apply keeps_mk

theorem takeKeys_keeps {a : State} (a0 : State) (a1 : Sub) (a2 : List (Nat × Nat × List Nat × Bool)) (h : Keeps a a0) : Keeps a (takeKeys a0 a1 a2).1 := by
  induction a2 generalizing a0 with
  | nil => exact h
  | cons b t ih =>
    unfold takeKeys
    repeat' first
      | with_reducible apply ih
      | with_reducible assumption
      | with_reducible apply keyBad_keeps
      | with_reducible refine keeps_fst ‹_ = (_, _)› ?_
      | with_reducible refine keeps_fst3 ‹_ = (_, _, _)› ?_
      | with_reducible refine keeps_fst4 ‹_ = (_, _, _, _)› ?_
      | split

theorem keyRefusal_keeps {a : State} (a0 : State) (a1 : Sub) (a2 : Bytes) (h : Keeps a a0) : Keeps a (keyRefusal a0 a1 a2).1 := by
  unfold keyRefusal
  repeat' first
    | with_reducible assumption
    | with_reducible apply takeKeys_keeps
    | extract_lets
    | with_reducible refine keeps_fst ‹_ = (_, _)› ?_
    | with_reducible refine keeps_fst3 ‹_ = (_, _, _)› ?_
    | with_reducible refine keeps_fst4 ‹_ = (_, _, _, _)› ?_
    | split
    | with_reducible apply keeps_mk

theorem startJob_keeps {a : State} (a0 : State) (a1 : Nat) (a2 : Job) (a3 : Option (Nat × Nat)) (h : Keeps a a0) : Keeps a (startJob a0 a1 a2 a3) := by
  unfold startJob
  repeat' first
    | with_reducible assumption
    | with_reducible apply setJob_keeps
    | with_reducible apply tset_keeps
    | extract_lets
    | with_reducible refine keeps_fst ‹_ = (_, _)› ?_
    | split
    | intro _
    | with_reducible apply keeps_mk

theorem dispatch_keeps {a : State} (a0 : State) (a1 : Nat) (a2 : Nat) (a3 : Nat) (a4 : List Walk) (h : Keeps a a0) : Keeps a (dispatch a0 a1 a2 a3 a4) := by
  unfold dispatch
  repeat' first
    | with_reducible assumption
    | with_reducible apply finish_keeps
    | with_reducible apply forwardJob_keeps
    | with_reducible apply countStart_keeps
    | with_reducible apply keyRefusal_keeps
    | with_reducible apply startTest_keeps
    | with_reducible apply startJob_keeps
    | with_reducible apply startRefusal_keeps
    | extract_lets
    | with_reducible refine keeps_fst ‹_ = (_, _)› ?_
    | with_reducible refine keeps_fst3 ‹_ = (_, _, _)› ?_
    | with_reducible refine keeps_fst4 ‹_ = (_, _, _, _)› ?_
    | split
    | intro _
    | with_reducible apply keeps_mk

theorem romSelfTest_keeps {a : State} (a0 : State) (a1 : Bool) (a2 : Word) (h : Keeps a a0) : Keeps a (romSelfTest a0 a1 a2).1 := by
  unfold romSelfTest
  repeat' first
    | with_reducible assumption
    | with_reducible apply setKat_keeps
    | with_reducible apply keeps_foldl
    | with_reducible apply keeps_foldl1
    | extract_lets
    | split
    | intro _

theorem sendPending_keeps {a : State} (a0 : State) (a1 : Nat) (h : Keeps a a0) : Keeps a (sendPending a0 a1) := by
  unfold sendPending
  repeat' first
    | with_reducible assumption
    | with_reducible apply sendMsix_keeps
    | with_reducible apply keeps_foldl
    | with_reducible apply keeps_foldl1
    | extract_lets
    | split
    | intro _

theorem romFlash_keeps {a : State} (a0 : State) (a1 : Bytes) (h : Keeps a a0) : Keeps a (romFlash a0 a1) := by
  unfold romFlash
  repeat' first
    | with_reducible assumption
    | with_reducible apply bfOut_keeps
    | with_reducible apply rsetb_keeps
    | with_reducible apply rset_keeps
    | extract_lets

theorem romRootGen_keeps {a : State} (a0 : State) (a1 : RomEnv) (h : Keeps a a0) : Keeps a (romRootGen a0 a1).1 := by
  unfold romRootGen
  repeat' first
    | with_reducible assumption
    | with_reducible apply fusEnd_keeps
    | with_reducible apply draw_keeps
    | with_reducible apply romSteps_keeps
    | extract_lets
    | with_reducible refine keeps_fst ‹_ = (_, _)› ?_
    | split

theorem romRoot_keeps {a : State} (a0 : State) (a1 : RomEnv) (h : Keeps a a0) : Keeps a (romRoot a0 a1).1 := by
  unfold romRoot
  dsimp only
  repeat' first
    | with_reducible assumption
    | with_reducible apply romRootGen_keeps
    | with_reducible apply nowLadder_keeps
    | with_reducible apply romProgram_keeps
    | with_reducible apply freshBackup_keeps
    | extract_lets
    | with_reducible refine keeps_fst ‹_ = (_, _)› ?_
    | split
    | intro _

theorem driveWrite_keeps {a : State} (a0 : State) (a1 : Nat) (a2 : Nat) (a3 : Nat) (a4 : Bytes) (h : Keeps a a0) : Keeps a (driveWrite a0 a1 a2 a3 a4) := by
  unfold driveWrite
  repeat' first
    | with_reducible assumption
    | with_reducible apply flashOut_keeps

theorem eraseUnit_keeps {a : State} (a0 : State) (a1 : Nat) (a2 : Golden) (h : Keeps a a0) : Keeps a (eraseUnit a0 a1 a2) := by
  unfold eraseUnit
  repeat' first
    | with_reducible assumption
    | with_reducible apply ownPut_keeps
    | with_reducible apply driveWrite_keeps
    | split

theorem relD1Ends_keeps {a : State} (a0 : State) (a1 : Nat) (h : Keeps a a0) : Keeps a (relD1Ends a0 a1) := by
  unfold relD1Ends
  repeat' first
    | with_reducible assumption
    | with_reducible apply fire_keeps
    | with_reducible apply tset_keeps
    | with_reducible apply modPort_keeps
    | with_reducible apply releaseOut_keeps
    | extract_lets
    | with_reducible refine keeps_fst ‹_ = (_, _)› ?_
    | split
    | intro _
    | with_reducible apply keeps_mk

theorem goldVerify_keeps {a : State} (a0 : Nat) (a1 : Golden) (a2 : List GoldBlk) (a3 : List BlkRead) (a4 : State) (h : Keeps a a4) : Keeps a (goldVerify a0 a1 a2 a3 a4).1 := by
  induction a2 generalizing a3 a4 with
  | nil => exact h
  | cons b t ih =>
    unfold goldVerify
    repeat' first
      | with_reducible apply ih
      | with_reducible assumption
      | with_reducible apply goldBlock_keeps
      | with_reducible apply keeps_foldl
      | with_reducible apply keeps_foldl1
      | extract_lets
      | with_reducible refine keeps_fst ‹_ = (_, _)› ?_
      | with_reducible refine keeps_fst3 ‹_ = (_, _, _)› ?_
      | with_reducible refine keeps_fst4 ‹_ = (_, _, _, _)› ?_
      | with_reducible refine keeps_fst5 ‹_ = (_, _, _, _, _)› ?_
      | with_reducible refine keeps_snd ‹_ = (_, _)› ?_
      | split
      | intro _
      | with_reducible apply keeps_mk

theorem progPages_keeps {a : State} (a0 : Nat) (a1 : Nat) (a2 : Nat) (a3 : Option Nat) (a4 : Bytes) (a5 : Nat) (a6 : Nat) (a7 : State) (h : Keeps a a7) : Keeps a (progPages a0 a1 a2 a3 a4 a5 a6 a7).1 := by
  induction a5 generalizing a6 a7 with
  | zero => exact h
  | succ k ih =>
    unfold progPages
    repeat' first
      | with_reducible apply ih
      | with_reducible assumption
      | with_reducible apply driveWrite_keeps
      | with_reducible apply copyBusyFail_keeps
      | with_reducible apply keeps_foldl
      | with_reducible apply keeps_foldl1
      | extract_lets
      | with_reducible refine keeps_fst ‹_ = (_, _)› ?_
      | with_reducible refine keeps_fst3 ‹_ = (_, _, _)› ?_
      | with_reducible refine keeps_fst4 ‹_ = (_, _, _, _)› ?_
      | with_reducible refine keeps_fst5 ‹_ = (_, _, _, _, _)› ?_
      | with_reducible refine keeps_snd ‹_ = (_, _)› ?_
      | split
      | intro _
      | with_reducible apply keeps_mk

theorem copyBlocks_keeps {a : State} (a0 : Nat) (a1 : Golden) (a2 : Nat) (a3 : Nat) (a4 : Option Nat) (a5 : List GoldBlk) (a6 : Nat) (a7 : Nat) (a8 : List BlkRead) (a9 : List Bytes) (a10 : State) (h : Keeps a a10) : Keeps a (copyBlocks a0 a1 a2 a3 a4 a5 a6 a7 a8 a9 a10).1 := by
  induction a6 generalizing a7 a8 a9 a10 with
  | zero => exact h
  | succ k ih =>
    unfold copyBlocks
    repeat' first
      | with_reducible apply ih
      | with_reducible assumption
      | with_reducible apply goldBlock_keeps
      | with_reducible apply progPages_keeps
      | with_reducible apply ownRead_keeps
      | with_reducible apply keeps_foldl
      | with_reducible apply keeps_foldl1
      | extract_lets
      | with_reducible refine keeps_fst ‹_ = (_, _)› ?_
      | with_reducible refine keeps_fst3 ‹_ = (_, _, _)› ?_
      | with_reducible refine keeps_fst4 ‹_ = (_, _, _, _)› ?_
      | with_reducible refine keeps_fst5 ‹_ = (_, _, _, _, _)› ?_
      | with_reducible refine keeps_snd ‹_ = (_, _)› ?_
      | split
      | intro _
      | with_reducible apply keeps_mk

theorem copyPass_keeps {a : State} (a0 : State) (a1 : Nat) (a2 : Golden) (a3 : Nat) (a4 : Nat) (a5 : Option Nat) (a6 : List BlkRead) (a7 : List Bytes) (h : Keeps a a0) : Keeps a (copyPass a0 a1 a2 a3 a4 a5 a6 a7).1 := by
  unfold copyPass
  repeat' first
    | with_reducible assumption
    | with_reducible apply eraseUnit_keeps
    | with_reducible apply copyBusyFail_keeps
    | with_reducible apply copyBlocks_keeps
    | extract_lets
    | split

theorem unitEnds_keeps {a : State} (a0 : State) (a1 : Nat) (a2 : Golden) (a3 : List BlkRead) (a4 : List Bytes) (a5 : List BlkRead) (a6 : List Bytes) (a7 : Option Nat) (h : Keeps a a0) : Keeps a (unitEnds a0 a1 a2 a3 a4 a5 a6 a7) := by
  unfold unitEnds
  repeat' first
    | with_reducible assumption
    | with_reducible apply ownClear_keeps
    | with_reducible apply rsetf_keeps
    | with_reducible apply cmdEnd_keeps
    | with_reducible apply enterHeld_keeps
    | with_reducible apply measureRecovery_keeps
    | with_reducible apply recoveryHeld_keeps
    | with_reducible apply modPort_keeps
    | with_reducible apply copyPass_keeps
    | with_reducible apply quarantine_keeps
    | extract_lets
    | with_reducible refine keeps_fst ‹_ = (_, _)› ?_
    | split
    | intro _
    | with_reducible apply keeps_mk

theorem fetched_keeps {a : State} (a0 : State) (a1 : RingId) (a2 : Nat) (a3 : Bytes) (h : Keeps a a0) : Keeps a (fetched a0 a1 a2 a3) := by
  unfold fetched
  repeat' first
    | with_reducible assumption
    | with_reducible apply newJob_keeps
    | with_reducible apply rsetf_keeps
    | extract_lets
    | with_reducible refine keeps_fst ‹_ = (_, _)› ?_
    | split
    | with_reducible apply keeps_mk

theorem readRecord_keeps {a : State} (a0 : State) (a1 : Nat) (a2 : Job) (a3 : Bytes) (a4 : List Walk) (a5 : State → Job → List Walk → State) (h5 : ∀ x j w, Keeps a x → Keeps a (a5 x j w)) (h : Keeps a a0) : Keeps a (readRecord a0 a1 a2 a3 a4 a5) := by
  unfold readRecord
  dsimp only
  repeat' first
    | with_reducible assumption
    | with_reducible apply finish_keeps
    | with_reducible apply translate_keeps
    | with_reducible apply setJob_keeps
    | with_reducible apply h5
    | extract_lets
    | with_reducible refine keeps_fst ‹_ = (_, _)› ?_
    | split
    | with_reducible apply keeps_mk

theorem resumeKeys_keeps {a : State} (a0 : State) (a1 : Nat) (a2 : Job) (a3 : List Walk) (a4 : State → Job → State) (h4 : ∀ x j, Keeps a x → Keeps a (a4 x j)) (h : Keeps a a0) : Keeps a (resumeKeys a0 a1 a2 a3 a4) := by
  unfold resumeKeys
  repeat' first
    | with_reducible assumption
    | with_reducible apply finish_keeps
    | with_reducible apply takeKeys_keeps
    | with_reducible apply h4
    | extract_lets
    | with_reducible refine keeps_fst ‹_ = (_, _)› ?_
    | with_reducible refine keeps_fst3 ‹_ = (_, _, _)› ?_
    | with_reducible refine keeps_fst4 ‹_ = (_, _, _, _)› ?_
    | split
    | intro _
    | with_reducible apply keeps_mk

theorem runVerify_keeps {a : State} (a0 : State) (a1 : Job) (a2 : Bytes) (a3 : Bytes) (h : Keeps a a0) : Keeps a (runVerify a0 a1 a2 a3).1 := by
  unfold runVerify
  repeat' first
    | with_reducible assumption
    | extract_lets
    | split

theorem runKeyGen_keeps {a : State} (a0 : State) (a1 : Job) (a2 : Bytes) (a3 : Bytes) (h : Keeps a a0) : Keeps a (runKeyGen a0 a1 a2 a3).1 := by
  unfold runKeyGen
  repeat' first
    | with_reducible assumption
    | with_reducible apply draw_keeps
    | with_reducible apply fill_keeps
    | extract_lets
    | with_reducible refine keeps_fst ‹_ = (_, _)› ?_
    | split

theorem closeWindow_keeps {a : State} (a0 : State) (h : Keeps a a0) : Keeps a (closeWindow a0) := by
  unfold closeWindow
  repeat' first
    | with_reducible assumption
    | with_reducible apply tstop_keeps
    | with_reducible apply irq_keeps
    | with_reducible apply freshCanary_keeps
    | extract_lets
    | with_reducible apply keeps_mk

theorem squashEnds_keeps {a : State} (a0 : State) (h : Keeps a a0) : Keeps a (squashEnds a0) := by
  unfold squashEnds
  repeat' first
    | with_reducible assumption
    | with_reducible apply freeTag_keeps
    | with_reducible apply keeps_foldl
    | with_reducible apply keeps_foldl1
    | extract_lets
    | split
    | intro _

theorem sendOn_keeps {a : State} (a0 : State) (a1 : Nat) (a2 : Nat) (a3 : Nat) (a4 : Bytes) (h : Keeps a a0) : Keeps a (sendOn a0 a1 a2 a3 a4) := by
  unfold sendOn
  repeat' first
    | with_reducible assumption
    | with_reducible apply transmit_keeps

end Sys2Proof.Machine
end

