-- ==== Sys2Proof/Machine/Package.lean ====
section
/-! DEFINITION. Machine/Package.lean: the ball map of the 34 × 34 package, the same for every variant (R490 to R496). -/
namespace Sys2Proof

/-- The signals of one flash guard port (R100, R497). -/
inductive PortPin
  | psck
  | pcs
  | pdq (i : Nat)
  | pds
  | prst
  | phold
  | preq
  | fsck
  | fcs0
  | fcs1
  | frst
  | fdq (i : Nat)
  | fds
  deriving DecidableEq, Repr

/-- The signals outside the port blocks (R498, R501); `lm` signals by side, 0 W and 1 E. -/
inductive Sig
  | pcieTxP (lane : Nat)
  | pcieTxN (lane : Nat)
  | pcieRxP (lane : Nat)
  | pcieRxN (lane : Nat)
  | pcieRefClkP
  | pcieRefClkN
  | pciePerstN
  | lmTxP (side : Nat)
  | lmTxN (side : Nat)
  | lmRxP (side : Nat)
  | lmRxN (side : Nat)
  | xin
  | xout
  | bfSck
  | bfCsN
  | bfDq (i : Nat)
  | i3cScl
  | i3cSda
  | svcTx
  | svcRx
  | clTxc
  | clTxd
  | clRxc
  | clRxd
  | bootsrc
  | pairSide (i : Nat)
  | goldenN
  | ringNode (i : Nat)
  | i3cAddr (i : Nat)
  | caseN (i : Nat)
  | devRstN
  | tck
  | tms
  | tdi
  | tdo
  | trstN
  | testen
  deriving DecidableEq, Repr

/-- A pin that is an input only (R497). -/
def PortPin.input : PortPin → Bool
  | .psck | .pcs | .preq | .fds => true
  | _ => false

/-- A signal outside the port blocks that is an input only (R498). -/
def Sig.input : Sig → Bool
  | .pcieTxP _ | .pcieTxN _ | .lmTxP _ | .lmTxN _ | .xout | .bfSck | .bfCsN | .bfDq _ | .i3cSda | .svcTx | .clTxc | .clTxd | .tdo =>
    false
  | _ => true

/-- What a ball carries (R491). -/
inductive Ball
  | port (n : Nat) (pin : PortPin)
  | sig (g : Sig)
  | vdd
  | vdds
  | vddx
  | vdda
  | vddioB (bank : Nat)
  | vddioG
  | vbat
  | vss
  | reserved
  deriving DecidableEq, Repr

/-- The depth of a position: 1 for the outermost ring (R490). -/
def depth (r c : Nat) : Nat := min (min r c) (min (35 - r) (35 - c))

/-- The ball of port `n` at depth `d` and place `p` of its block (R492). -/
def blockBall (n d p : Nat) : Ball :=
  match d, p with
  | 1, 1 => .port n (.pdq 0) | 1, 2 => .port n (.pdq 1) | 1, 3 => .port n (.pdq 2)
  | 1, 4 => .port n (.fdq 0) | 1, 5 => .port n (.fdq 1) | 1, 6 => .port n (.fdq 2)
  | 2, 1 => .port n (.pdq 3) | 2, 3 => .port n (.pdq 4) | 2, 4 => .port n (.fdq 3) | 2, 6 => .port n (.fdq 4)
  | 3, 1 => .port n (.pdq 5) | 3, 2 => .port n (.pdq 6) | 3, 3 => .port n (.pdq 7)
  | 3, 4 => .port n (.fdq 5) | 3, 5 => .port n (.fdq 6) | 3, 6 => .port n (.fdq 7)
  | 4, 1 => .port n .pds | 4, 2 => .port n .psck | 4, 3 => .port n .pcs | 4, 4 => .port n .fds | 4, 5 => .port n .fsck
  | 5, 1 => .vddioB (n / 4) | 5, 3 => .vddioB (n / 4) | 5, 4 => .vddioB (n / 4) | 5, 6 => .vddioB (n / 4)
  | 5, 5 => .port n .fcs0
  | 6, 1 => .port n .prst | 6, 2 => .port n .phold | 6, 3 => .port n .preq | 6, 4 => .port n .fcs1 | 6, 5 => .port n .frst
  | _, _ => .vss

/-- The position (r, c) of depth `d` and place `p` in port `n`'s block (R492). -/
def blockPosition (n d p : Nat) : Nat × Nat :=
  let c0 := 6 * (n % 4) + 2 + p
  match n / 4 with
  | 0 => (d, c0)
  | 1 => (c0, 35 - d)
  | 2 => (35 - d, 35 - c0)
  | _ => (35 - c0, d)

/-- The block that holds a position: its bank, depth and c0, each bank being the one before it turned clockwise (R492). -/
def blockOf (r c : Nat) : Option (Nat × Nat × Nat) :=
  if r ≤ 6 ∧ 3 ≤ c ∧ c ≤ 26 then some (0, r, c)
  else if 29 ≤ c ∧ 3 ≤ r ∧ r ≤ 26 then some (1, 35 - c, r)
  else if 29 ≤ r ∧ 9 ≤ c ∧ c ≤ 32 then some (2, 35 - r, 35 - c)
  else if c ≤ 6 ∧ 9 ≤ r ∧ r ≤ 32 then some (3, c, 35 - r)
  else none

/-- The top left corner in row-major order (R494). -/
def cornerTopLeft : List Ball := [
  .vss, .vddx, .sig (.pcieTxP 0), .sig (.pcieTxN 0), .vss, .vddx, .sig (.pcieTxP 1), .sig (.pcieTxN 1), .vss, .vddx,
  .sig (.pcieRxP 0), .sig (.pcieRxN 0), .vss, .sig (.pcieRxP 1), .sig (.pcieRxN 1), .vddx, .vddx, .vddx,
  .sig .pcieRefClkP, .sig .pcieRefClkN, .vss, .sig .pciePerstN, .vddx, .vddx]
/-- The top right corner (R494). -/
def cornerTopRight : List Ball := [
  .vss, .vddx, .sig (.lmTxP 0), .sig (.lmTxN 0), .vss, .sig (.lmTxP 1), .sig (.lmTxN 1), .vss, .vddx, .vss,
  .sig (.lmRxP 0), .sig (.lmRxN 0), .vddx, .sig (.lmRxP 1), .sig (.lmRxN 1), .vss, .vddx, .vddx, .vss, .vddx,
  .vddx, .vss, .vddx, .vss]
/-- The bottom right corner (R494). -/
def cornerBottomRight : List Ball := [
  .sig .tck, .sig .tms, .sig .tdi, .sig .tdo, .sig .trstN, .sig .testen, .vss, .vdda, .vdda, .vss, .vbat, .vbat,
  .vdda, .vdda, .vss, .sig .xin, .vss, .sig .xout, .vdda, .vdda, .vss, .vdda, .vss, .vdda]
/-- The bottom left corner (R494). -/
def cornerBottomLeft : List Ball := [
  .sig .bfSck, .sig .bfCsN, .sig (.bfDq 0), .sig (.bfDq 1), .sig (.bfDq 2), .sig (.bfDq 3), .vddioG, .vss,
  .sig .i3cScl, .sig .i3cSda, .vddioG, .sig .svcTx, .sig .svcRx, .vddioG, .sig .devRstN, .vss,
  .sig .clTxc, .sig .clTxd, .vddioG, .sig .clRxc, .sig .clRxd, .vddioG, .vss, .vddioG]
/-- Row G of the depth-7 ring, columns 7 to 28 (R495). -/
def ringTop : List Ball := [
  .vss, .sig .bootsrc, .sig (.pairSide 0), .sig (.pairSide 1), .sig .goldenN, .vddioG, .sig (.ringNode 0),
  .sig (.ringNode 1), .sig (.ringNode 2), .vss, .sig (.ringNode 3), .sig (.ringNode 4), .sig (.ringNode 5), .vddioG,
  .sig (.i3cAddr 0), .sig (.i3cAddr 1), .sig (.i3cAddr 2), .vss, .sig (.caseN 0), .sig (.caseN 1), .sig (.caseN 2),
  .sig (.caseN 3)]

/-- A ball of a corner: the position's place in the corner's row-major order (R494). -/
def cornerBall (r c : Nat) : Ball :=
  (if r ≤ 6 ∧ c ≤ 2 then cornerTopLeft[2 * (r - 1) + (c - 1)]?
   else if r ≤ 8 ∧ c ≤ 6 then cornerTopLeft[12 + 6 * (r - 7) + (c - 1)]?
   else if r ≤ 2 then cornerTopRight[8 * (r - 1) + (c - 27)]?
   else if r ≤ 6 then cornerTopRight[16 + 2 * (r - 3) + (c - 27)]?
   else if r ≤ 28 then cornerBottomRight[6 * (r - 27) + (c - 29)]?
   else if 33 ≤ c then cornerBottomRight[12 + 2 * (r - 29) + (c - 33)]?
   else if r ≤ 32 then cornerBottomLeft[2 * (r - 29) + (c - 7)]?
   else cornerBottomLeft[8 + 8 * (r - 33) + (c - 1)]?).getD .vss

/-- A ball of the depth-7 ring (R495). -/
def ringBall (r c : Nat) : Ball :=
  if r = 7 then ringTop[c - 7]?.getD .vss
  else if r = 28 then (if c % 7 = 0 then .vddioG else if c = 11 then .reserved else .vss)
  else if r % 2 = 0 then .reserved else .vss

/-- The ball at row index `r` and column `c`, each 1 to 34 (R491 to R495). -/
def ballAt (r c : Nat) : Ball :=
  match blockOf r c with
  | some (b, d, c0) => blockBall (4 * b + (c0 - 3) / 6) d ((c0 - 3) % 6 + 1)
  | none =>
    if depth r c ≤ 6 then cornerBall r c
    else if depth r c = 7 then ringBall r c
    else if depth r c = 8 then (if (r + c) % 2 = 0 then .vdds else .vss)
    else if (r, c) = (9, 9) ∨ (r, c) = (26, 26) then .vss
    else if (r + c) % 2 = 0 then .vdd else .vss

/-- The ball is unconnected inside the package of this part because its unit is absent (R8, R479, R496): the signals of absent
ports, and the claim link where there is no pairing unit.  Every supply and VSS ball is connected on every part. -/
def Ball.absent (p : Part) : Ball → Bool
  | .port n _ => decide (p.ports ≤ n)
  | .sig .clTxc | .sig .clTxd | .sig .clRxc | .sig .clRxd => !p.hasPair
  | _ => false

end Sys2Proof
end

