-- ==== Sys2Proof/Machine/Pins.lean ====
section
/-! DEFINITION. Machine/Pins.lean: what each pin does in a state, between the signalling of one command and the next
(R100, R101, R265, R437, R474, R497, R498). -/
namespace Sys2Proof.Machine

/-- What an output does. -/
inductive Drive
  /-- high-impedance -/
  | z
  | low
  | high
  /-- driven as the protocol of its bus says, in the phases that drive it -/
  | bus
  /-- driven by its boundary-scan cell (R265) -/
  | cell
  deriving DecidableEq, Repr

/-- An internal pull (R497, R498). -/
inductive Pull
  | none
  | up
  | down
  /-- the 50 Ω termination of a receiver -/
  | terminated
  deriving DecidableEq, Repr

/-- POR or DEVICE reset is in force, up to the end of its hardware phase (R101, R498). -/
def pinsReset (s : State) : Bool := decide (s.rst ≠ .none) || higherPhase s

/-- Port `n`'s block is present, its domain is on and no reset covers it: what R101 asks of every output of the port. -/
def portPinsOn (s : State) (n : Nat) : Bool := portOn s n && !pinsReset s

/-- A platform command is in progress on port `n` (R87). -/
def commandRuns (s : State) (n : Nat) : Bool := (port s n).live.isSome
/-- The platform command in progress is forwarded to CS0 (R28). -/
def commandForwards (s : State) (n : Nat) : Bool := match (port s n).live with | some c => c.forwards | none => false

/-- A level as a push-pull output drives it. -/
def pushPull (b : Bool) : Drive := if b then .high else .low

/-- A claim-gated output of port `n` that its unit drives (R98, R100, R178, R497). -/
def portLevel (s : State) (n : Nat) : PortPin → Drive
  | .pdq _ | .pds => if commandRuns s n then .bus else .z
  | .prst => pushPull (port s n).prst
  | .phold => pushPull (port s n).phold
  | .fsck => if commandForwards s n then .bus else .low
  | .fcs0 => pushPull (!commandForwards s n)
  | .fcs1 => .high
  | .frst => pushPull (tget s (.rstPulse n)).isNone
  | .fdq _ => if commandForwards s n then .bus else .z
  | .psck | .pcs | .preq | .fds => .z

/-- What port `n` does at a pin: nothing where R101 forbids it, its boundary-scan cell while EXTEST is selected, whatever the claim
(R265), its own level while the unit drives (R435, R437).  DEDUCED (log 126): a reset or a domain that is off goes before EXTEST. -/
def portDrive (s : State) (n : Nat) (p : PortPin) : Drive :=
  if p.input ∨ !portPinsOn s n then .z
  else if extestOn s then .cell
  else if driving s then portLevel s n p else .z

/-- The internal pull at a pin of port `n` (R497): "domain" pulls only while the port's domain is on. -/
def portPull (s : State) (n : Nat) : PortPin → Pull
  | .psck | .fds => if portPinsOn s n then .down else .none
  | .pcs => if portPinsOn s n then .up else .none
  | .preq => .up
  | _ => .none

/-- The receiver of an input of port `n` is on: Pn_PREQ_N even while the port's domain is off (R476, R497). -/
def portReceives (s : State) (n : Nat) (p : PortPin) : Bool :=
  match p with
  | .preq => true
  | .psck | .pcs | .fds => portPinsOn s n
  | .pdq _ => portPinsOn s n && commandRuns s n
  | .fdq _ => portPinsOn s n
  | _ => false

/-- An output outside the port blocks while the device runs (R498). -/
def sigLevel (s : State) : Sig → Drive
  | .pcieTxP _ | .pcieTxN _ => if pciUp s then .bus else .z
  | .lmTxP x | .lmTxN x => if sideOn s x then .bus else .z
  | .xout => .bus
  | .bfSck => if s.bf.isSome then .bus else .low
  | .bfCsN => if s.bf.isSome then .bus else .high
  | .bfDq _ => if s.bf.isSome then .bus else .z
  | .svcTx => .high
  | .clTxc | .clTxd => if paired s then .bus else .z
  | _ => .z

/-- What the device does at a signal outside the port blocks: XOUT drives its crystal in every state (R51, R474); no other pin drives in
POR or DEVICE reset (R376, R427, R498); EXTEST drives every output from its cell (R265). -/
def sigDrive (s : State) (g : Sig) : Drive :=
  if g = .xout then .bus
  else if g.input ∨ pinsReset s then .z
  else if extestOn s then .cell
  else sigLevel s g

/-- The internal pull at a signal outside the port blocks (R271, R498). -/
def sigPull (s : State) : Sig → Pull
  | .pcieRxP _ | .pcieRxN _ => if domOn s 25 && !pinsReset s then .terminated else .none
  | .lmRxP x | .lmRxN x => if domOn s (26 + x) && !pinsReset s then .terminated else .none
  | .svcRx | .goldenN | .caseN _ | .devRstN | .tms | .tdi => .up
  | .clRxc | .clRxd | .bootsrc | .pairSide _ | .ringNode _ | .i3cAddr _ | .tck | .trstN | .testen => .down
  | _ => .none

/-- What the device does at a ball: nothing at a supply, a reserved ball or a ball of an absent unit (R496). -/
def ballDrive (s : State) (b : Ball) : Drive :=
  if b.absent s.part then .z else match b with
    | .port n p => portDrive s n p
    | .sig g => sigDrive s g
    | _ => .z

end Sys2Proof.Machine
end

