-- ==== Sys2Proof/Laws/Pins.lean ====
section
/-! SUPPORT. Laws/Pins.lean: the ball map is R491's and R492's; no port output drives where R101 or R437 forbids it. -/
namespace Sys2Proof

/-- Every position of the package, row by row (R490). -/
def positions : List (Nat × Nat) :=
  (List.range 34).flatMap fun r => (List.range 34).map fun c => (r + 1, c + 1)
/-- How many balls satisfy `f`. -/
def ballCount (f : Ball → Bool) : Nat := (positions.filter fun x => f (ballAt x.1 x.2)).length

/-- Each place of each block stands where R492's table puts it. -/
theorem ballAt_block : ∀ n ∈ List.range 16, ∀ d ∈ [1, 2, 3, 4, 5, 6], ∀ p ∈ [1, 2, 3, 4, 5, 6],
    ballAt (blockPosition n d p).1 (blockPosition n d p).2 = blockBall n d p := by decide +kernel
/-- The counts of R491. -/
theorem ballCount_vss : ballCount (· == .vss) = 344 := by decide +kernel
theorem ballCount_supplies :
    ([.vdd, .vdds, .vddx, .vdda, .vddioG, .vbat, .reserved, .vddioB 0, .vddioB 3] : List Ball).map
      (fun b => ballCount (· == b)) = [160, 38, 16, 8, 12, 2, 21, 16, 16] := by decide +kernel
theorem ballCount_ports : ballCount (fun b => match b with | .port _ _ => true | _ => false) = 432 := by decide +kernel
theorem ballCount_signals : ballCount (fun b => match b with | .sig _ => true | _ => false) = 59 := by decide +kernel

namespace Machine

/-- R101: in POR and DEVICE reset, with its domain off and where it is absent, port `n` drives nothing. -/
theorem portDrive_off {s : State} {n : Nat} (h : portPinsOn s n = false) (p : PortPin) : portDrive s n p = .z := by
  simp [portDrive, h]
/-- R437: a unit that does not drive leaves every output of a port high-impedance, boundary scan apart. -/
theorem portDrive_unclaimed {s : State} {n : Nat} (h : driving s = false) (he : extestOn s = false) (p : PortPin) :
    portDrive s n p = .z := by
  simp [portDrive, h, he]
/-- R437: while the unit drives, each output of a port that is on has its own level. -/
theorem portDrive_claimed {s : State} {n : Nat} {p : PortPin} (hi : p.input = false) (hp : portPinsOn s n = true)
    (hd : driving s = true) (he : extestOn s = false) : portDrive s n p = portLevel s n p := by
  simp [portDrive, hi, hp, hd, he]
/-- R265: while EXTEST is selected, its cell drives each output of a port that is on, whatever the claim. -/
theorem portDrive_extest {s : State} {n : Nat} {p : PortPin} (hi : p.input = false) (hp : portPinsOn s n = true)
    (he : extestOn s = true) : portDrive s n p = .cell := by
  simp [portDrive, hi, hp, he]
/-- R474: in POR and DEVICE reset only XOUT drives. -/
theorem sigDrive_reset {s : State} {g : Sig} (h : pinsReset s = true) (hx : g ≠ .xout) : sigDrive s g = .z := by
  simp [sigDrive, h, hx]

end Machine
end Sys2Proof
end

