-- ==== Sys2Proof/Laws/State.lean ====
section
/-! SUPPORT. Laws/State.lean: what each named update of the state leaves as it is, field by field and reader by reader, and what
its own reader answers after it. -/
namespace Sys2Proof.Machine

@[simp] theorem rset_frame (s : State) (o : Nat) (v : Word) :
    (rset s o v).pending = s.pending ∧ (rset s o v).fresh = s.fresh ∧ (rset s o v).out = s.out ∧ (rset s o v).part = s.part ∧
    (rset s o v).hw = s.hw ∧ (rset s o v).hashTurn = s.hashTurn ∧ (rset s o v).flashLanes = s.flashLanes ∧
    (rset s o v).fuseU = s.fuseU ∧ (rset s o v).lifeNew = s.lifeNew ∧ (rset s o v).rst = s.rst ∧
    (rset s o v).timers = s.timers ∧ (rset s o v).rwoUsed = s.rwoUsed ∧ (rset s o v).tbTime = s.tbTime ∧
    (rset s o v).tbLoss = s.tbLoss ∧ (rset s o v).tbLocked = s.tbLocked ∧ (rset s o v).xinCmos = s.xinCmos ∧
    (rset s o v).sram = s.sram ∧ (rset s o v).ports = s.ports ∧ (rset s o v).frames = s.frames ∧
    (rset s o v).writeBacks = s.writeBacks ∧ (rset s o v).domOff = s.domOff ∧ (rset s o v).pwr = s.pwr ∧
    (rset s o v).dly = s.dly ∧ (rset s o v).instRst = s.instRst ∧ (rset s o v).locked = s.locked ∧ (rset s o v).meas = s.meas ∧
    (rset s o v).cstOps = s.cstOps ∧ (rset s o v).ctr = s.ctr ∧ (rset s o v).torn = s.torn ∧
    (rset s o v).ctrFailed = s.ctrFailed ∧ (rset s o v).reconciling = s.reconciling ∧ (rset s o v).fuseR = s.fuseR ∧
    (rset s o v).fuseS = s.fuseS ∧ (rset s o v).fuseSh = s.fuseSh ∧ (rset s o v).fus = s.fus ∧ (rset s o v).pair = s.pair ∧
    (rset s o v).tem = s.tem ∧ (rset s o v).sage = s.sage ∧ (rset s o v).dillMem = s.dillMem ∧
    (rset s o v).bootSram = s.bootSram ∧ (rset s o v).bootLock = s.bootLock ∧ (rset s o v).pushLen = s.pushLen ∧
    (rset s o v).bf = s.bf ∧ (rset s o v).svc = s.svc ∧ (rset s o v).i3c = s.i3c ∧ (rset s o v).halted = s.halted ∧
    (rset s o v).twdHeld = s.twdHeld ∧ (rset s o v).twdLate = s.twdLate ∧ (rset s o v).twdNew = s.twdNew ∧
    (rset s o v).tapIr = s.tapIr ∧ (rset s o v).boundary = s.boundary ∧ (rset s o v).token = s.token ∧
    (rset s o v).tamperDue = s.tamperDue ∧ (rset s o v).kslots = s.kslots ∧ (rset s o v).ladder = s.ladder ∧
    (rset s o v).scrubDirty = s.scrubDirty ∧ (rset s o v).fwRec = s.fwRec ∧ (rset s o v).jobs = s.jobs ∧
    (rset s o v).jobOrd = s.jobOrd ∧ (rset s o v).phases = s.phases ∧ (rset s o v).ctxKey = s.ctxKey ∧
    (rset s o v).wrr = s.wrr ∧ (rset s o v).insts = s.insts ∧ (rset s o v).itu = s.itu ∧ (rset s o v).prgs = s.prgs ∧
    (rset s o v).prgStale = s.prgStale ∧ (rset s o v).fqPhase = s.fqPhase ∧ (rset s o v).issued = s.issued ∧
    (rset s o v).incarnation = s.incarnation ∧ (rset s o v).prgWait = s.prgWait ∧ (rset s o v).aesBytes = s.aesBytes ∧
    (rset s o v).sides = s.sides ∧ (rset s o v).peers = s.peers ∧ (rset s o v).topo = s.topo ∧ (rset s o v).raReqs = s.raReqs ∧
    (rset s o v).bulks = s.bulks ∧ (rset s o v).evq = s.evq ∧ (rset s o v).discOut = s.discOut ∧ (rset s o v).disc = s.disc ∧
    (rset s o v).isolated = s.isolated ∧ (rset s o v).dups = s.dups ∧ (rset s o v).pci = s.pci ∧
    (rset s o v).vfEnable = s.vfEnable ∧ (rset s o v).numVfs = s.numVfs ∧ (rset s o v).ariCap = s.ariCap ∧
    (rset s o v).msix = s.msix ∧ (rset s o v).vecs = s.vecs ∧ (rset s o v).ringed = s.ringed ∧
    (rset s o v).coreLines = s.coreLines ∧ (∀ y, tget (rset s o v) y = tget s y) ∧ (∀ y, port (rset s o v) y = port s y) ∧
    (∀ y, frame (rset s o v) y = frame s y) ∧ (∀ y, job? (rset s o v) y = job? s y) ∧ (∀ y, kslot (rset s o v) y = kslot s y) ∧
    (∀ y, inst (rset s o v) y = inst s y) ∧ (∀ y, side (rset s o v) y = side s y) ∧ (∀ y, peer (rset s o v) y = peer s y) ∧
    (∀ y, pciFn (rset s o v) y = pciFn s y) ∧ (∀ y z, msixEnt (rset s o v) y z = msixEnt s y z) ∧
    (∀ y, mval (rset s o v) y = mval s y) ∧ (∀ y, fuseRead (rset s o v) y = fuseRead s y) ∧
    (∀ y, fuseStrict (rset s o v) y = fuseStrict s y) ∧ (∀ y, counter (rset s o v) y = counter s y) :=
  ⟨rfl, rfl, rfl, rfl, rfl, rfl, rfl, rfl, rfl, rfl, rfl, rfl, rfl, rfl, rfl, rfl, rfl, rfl, rfl, rfl, rfl, rfl, rfl, rfl, rfl,
  rfl, rfl, rfl, rfl, rfl, rfl, rfl, rfl, rfl, rfl, rfl, rfl, rfl, rfl, rfl, rfl, rfl, rfl, rfl, rfl, rfl, rfl, rfl, rfl, rfl,
  rfl, rfl, rfl, rfl, rfl, rfl, rfl, rfl, rfl, rfl, rfl, rfl, rfl, rfl, rfl, rfl, rfl, rfl, rfl, rfl, rfl, rfl, rfl, rfl, rfl,
  rfl, rfl, rfl, rfl, rfl, rfl, rfl, rfl, rfl, rfl, rfl, rfl, rfl, rfl, fun _ => rfl, fun _ => rfl, fun _ => rfl, fun _ => rfl,
  fun _ => rfl, fun _ => rfl, fun _ => rfl, fun _ => rfl, fun _ => rfl, fun _ _ => rfl, fun _ => rfl, fun _ => rfl, fun _ =>
  rfl, fun _ => rfl⟩

@[simp] theorem rclear_frame (s : State) (lo hi : Nat) :
    (rclear s lo hi).pending = s.pending ∧ (rclear s lo hi).fresh = s.fresh ∧ (rclear s lo hi).out = s.out ∧
    (rclear s lo hi).part = s.part ∧ (rclear s lo hi).hw = s.hw ∧ (rclear s lo hi).hashTurn = s.hashTurn ∧
    (rclear s lo hi).flashLanes = s.flashLanes ∧ (rclear s lo hi).fuseU = s.fuseU ∧ (rclear s lo hi).lifeNew = s.lifeNew ∧
    (rclear s lo hi).rst = s.rst ∧ (rclear s lo hi).timers = s.timers ∧ (rclear s lo hi).tbTime = s.tbTime ∧
    (rclear s lo hi).tbLoss = s.tbLoss ∧ (rclear s lo hi).tbLocked = s.tbLocked ∧ (rclear s lo hi).xinCmos = s.xinCmos ∧
    (rclear s lo hi).sram = s.sram ∧ (rclear s lo hi).ports = s.ports ∧ (rclear s lo hi).frames = s.frames ∧
    (rclear s lo hi).writeBacks = s.writeBacks ∧ (rclear s lo hi).domOff = s.domOff ∧ (rclear s lo hi).pwr = s.pwr ∧
    (rclear s lo hi).dly = s.dly ∧ (rclear s lo hi).instRst = s.instRst ∧ (rclear s lo hi).locked = s.locked ∧
    (rclear s lo hi).meas = s.meas ∧ (rclear s lo hi).cstOps = s.cstOps ∧ (rclear s lo hi).ctr = s.ctr ∧
    (rclear s lo hi).torn = s.torn ∧ (rclear s lo hi).ctrFailed = s.ctrFailed ∧ (rclear s lo hi).reconciling = s.reconciling ∧
    (rclear s lo hi).fuseR = s.fuseR ∧ (rclear s lo hi).fuseS = s.fuseS ∧ (rclear s lo hi).fuseSh = s.fuseSh ∧
    (rclear s lo hi).fus = s.fus ∧ (rclear s lo hi).pair = s.pair ∧ (rclear s lo hi).tem = s.tem ∧
    (rclear s lo hi).sage = s.sage ∧ (rclear s lo hi).dillMem = s.dillMem ∧ (rclear s lo hi).bootSram = s.bootSram ∧
    (rclear s lo hi).bootLock = s.bootLock ∧ (rclear s lo hi).pushLen = s.pushLen ∧ (rclear s lo hi).bf = s.bf ∧
    (rclear s lo hi).svc = s.svc ∧ (rclear s lo hi).i3c = s.i3c ∧ (rclear s lo hi).halted = s.halted ∧
    (rclear s lo hi).twdHeld = s.twdHeld ∧ (rclear s lo hi).twdLate = s.twdLate ∧ (rclear s lo hi).twdNew = s.twdNew ∧
    (rclear s lo hi).tapIr = s.tapIr ∧ (rclear s lo hi).boundary = s.boundary ∧ (rclear s lo hi).token = s.token ∧
    (rclear s lo hi).tamperDue = s.tamperDue ∧ (rclear s lo hi).kslots = s.kslots ∧ (rclear s lo hi).ladder = s.ladder ∧
    (rclear s lo hi).scrubDirty = s.scrubDirty ∧ (rclear s lo hi).fwRec = s.fwRec ∧ (rclear s lo hi).jobs = s.jobs ∧
    (rclear s lo hi).jobOrd = s.jobOrd ∧ (rclear s lo hi).phases = s.phases ∧ (rclear s lo hi).ctxKey = s.ctxKey ∧
    (rclear s lo hi).wrr = s.wrr ∧ (rclear s lo hi).insts = s.insts ∧ (rclear s lo hi).itu = s.itu ∧
    (rclear s lo hi).prgs = s.prgs ∧ (rclear s lo hi).prgStale = s.prgStale ∧ (rclear s lo hi).fqPhase = s.fqPhase ∧
    (rclear s lo hi).issued = s.issued ∧ (rclear s lo hi).incarnation = s.incarnation ∧ (rclear s lo hi).prgWait = s.prgWait ∧
    (rclear s lo hi).aesBytes = s.aesBytes ∧ (rclear s lo hi).sides = s.sides ∧ (rclear s lo hi).peers = s.peers ∧
    (rclear s lo hi).topo = s.topo ∧ (rclear s lo hi).raReqs = s.raReqs ∧ (rclear s lo hi).bulks = s.bulks ∧
    (rclear s lo hi).evq = s.evq ∧ (rclear s lo hi).discOut = s.discOut ∧ (rclear s lo hi).disc = s.disc ∧
    (rclear s lo hi).isolated = s.isolated ∧ (rclear s lo hi).dups = s.dups ∧ (rclear s lo hi).pci = s.pci ∧
    (rclear s lo hi).vfEnable = s.vfEnable ∧ (rclear s lo hi).numVfs = s.numVfs ∧ (rclear s lo hi).ariCap = s.ariCap ∧
    (rclear s lo hi).msix = s.msix ∧ (rclear s lo hi).vecs = s.vecs ∧ (rclear s lo hi).ringed = s.ringed ∧
    (rclear s lo hi).coreLines = s.coreLines ∧ (∀ y, tget (rclear s lo hi) y = tget s y) ∧
    (∀ y, port (rclear s lo hi) y = port s y) ∧ (∀ y, frame (rclear s lo hi) y = frame s y) ∧
    (∀ y, job? (rclear s lo hi) y = job? s y) ∧ (∀ y, kslot (rclear s lo hi) y = kslot s y) ∧
    (∀ y, inst (rclear s lo hi) y = inst s y) ∧ (∀ y, side (rclear s lo hi) y = side s y) ∧
    (∀ y, peer (rclear s lo hi) y = peer s y) ∧ (∀ y, pciFn (rclear s lo hi) y = pciFn s y) ∧
    (∀ y z, msixEnt (rclear s lo hi) y z = msixEnt s y z) ∧ (∀ y, mval (rclear s lo hi) y = mval s y) ∧
    (∀ y, fuseRead (rclear s lo hi) y = fuseRead s y) ∧ (∀ y, fuseStrict (rclear s lo hi) y = fuseStrict s y) ∧
    (∀ y, counter (rclear s lo hi) y = counter s y) :=
  ⟨rfl, rfl, rfl, rfl, rfl, rfl, rfl, rfl, rfl, rfl, rfl, rfl, rfl, rfl, rfl, rfl, rfl, rfl, rfl, rfl, rfl, rfl, rfl, rfl, rfl,
  rfl, rfl, rfl, rfl, rfl, rfl, rfl, rfl, rfl, rfl, rfl, rfl, rfl, rfl, rfl, rfl, rfl, rfl, rfl, rfl, rfl, rfl, rfl, rfl, rfl,
  rfl, rfl, rfl, rfl, rfl, rfl, rfl, rfl, rfl, rfl, rfl, rfl, rfl, rfl, rfl, rfl, rfl, rfl, rfl, rfl, rfl, rfl, rfl, rfl, rfl,
  rfl, rfl, rfl, rfl, rfl, rfl, rfl, rfl, rfl, rfl, rfl, rfl, rfl, fun _ => rfl, fun _ => rfl, fun _ => rfl, fun _ => rfl, fun _
  => rfl, fun _ => rfl, fun _ => rfl, fun _ => rfl, fun _ => rfl, fun _ _ => rfl, fun _ => rfl, fun _ => rfl, fun _ => rfl, fun
  _ => rfl⟩

@[simp] theorem emit_frame (s : State) (x : Out) :
    (emit s x).pending = s.pending ∧ (emit s x).fresh = s.fresh ∧ (emit s x).part = s.part ∧ (emit s x).hw = s.hw ∧
    (emit s x).hashTurn = s.hashTurn ∧ (emit s x).flashLanes = s.flashLanes ∧ (emit s x).fuseU = s.fuseU ∧
    (emit s x).lifeNew = s.lifeNew ∧ (emit s x).rst = s.rst ∧ (emit s x).timers = s.timers ∧ (emit s x).regs = s.regs ∧
    (emit s x).rwoUsed = s.rwoUsed ∧ (emit s x).tbTime = s.tbTime ∧ (emit s x).tbLoss = s.tbLoss ∧
    (emit s x).tbLocked = s.tbLocked ∧ (emit s x).xinCmos = s.xinCmos ∧ (emit s x).sram = s.sram ∧ (emit s x).ports = s.ports ∧
    (emit s x).frames = s.frames ∧ (emit s x).writeBacks = s.writeBacks ∧ (emit s x).domOff = s.domOff ∧
    (emit s x).pwr = s.pwr ∧ (emit s x).dly = s.dly ∧ (emit s x).instRst = s.instRst ∧ (emit s x).locked = s.locked ∧
    (emit s x).meas = s.meas ∧ (emit s x).cstOps = s.cstOps ∧ (emit s x).ctr = s.ctr ∧ (emit s x).torn = s.torn ∧
    (emit s x).ctrFailed = s.ctrFailed ∧ (emit s x).reconciling = s.reconciling ∧ (emit s x).fuseR = s.fuseR ∧
    (emit s x).fuseS = s.fuseS ∧ (emit s x).fuseSh = s.fuseSh ∧ (emit s x).fus = s.fus ∧ (emit s x).pair = s.pair ∧
    (emit s x).tem = s.tem ∧ (emit s x).sage = s.sage ∧ (emit s x).dillMem = s.dillMem ∧ (emit s x).bootSram = s.bootSram ∧
    (emit s x).bootLock = s.bootLock ∧ (emit s x).pushLen = s.pushLen ∧ (emit s x).bf = s.bf ∧ (emit s x).svc = s.svc ∧
    (emit s x).i3c = s.i3c ∧ (emit s x).halted = s.halted ∧ (emit s x).twdHeld = s.twdHeld ∧ (emit s x).twdLate = s.twdLate ∧
    (emit s x).twdNew = s.twdNew ∧ (emit s x).tapIr = s.tapIr ∧ (emit s x).boundary = s.boundary ∧ (emit s x).token = s.token ∧
    (emit s x).tamperDue = s.tamperDue ∧ (emit s x).kslots = s.kslots ∧ (emit s x).ladder = s.ladder ∧
    (emit s x).scrubDirty = s.scrubDirty ∧ (emit s x).fwRec = s.fwRec ∧ (emit s x).jobs = s.jobs ∧
    (emit s x).jobOrd = s.jobOrd ∧ (emit s x).phases = s.phases ∧ (emit s x).ctxKey = s.ctxKey ∧ (emit s x).wrr = s.wrr ∧
    (emit s x).insts = s.insts ∧ (emit s x).itu = s.itu ∧ (emit s x).prgs = s.prgs ∧ (emit s x).prgStale = s.prgStale ∧
    (emit s x).fqPhase = s.fqPhase ∧ (emit s x).issued = s.issued ∧ (emit s x).incarnation = s.incarnation ∧
    (emit s x).prgWait = s.prgWait ∧ (emit s x).aesBytes = s.aesBytes ∧ (emit s x).sides = s.sides ∧
    (emit s x).peers = s.peers ∧ (emit s x).topo = s.topo ∧ (emit s x).raReqs = s.raReqs ∧ (emit s x).bulks = s.bulks ∧
    (emit s x).evq = s.evq ∧ (emit s x).discOut = s.discOut ∧ (emit s x).disc = s.disc ∧ (emit s x).isolated = s.isolated ∧
    (emit s x).dups = s.dups ∧ (emit s x).pci = s.pci ∧ (emit s x).vfEnable = s.vfEnable ∧ (emit s x).numVfs = s.numVfs ∧
    (emit s x).ariCap = s.ariCap ∧ (emit s x).msix = s.msix ∧ (emit s x).vecs = s.vecs ∧ (emit s x).ringed = s.ringed ∧
    (emit s x).coreLines = s.coreLines ∧ (∀ y, rget (emit s x) y = rget s y) ∧ (∀ y, tget (emit s x) y = tget s y) ∧
    (∀ y, port (emit s x) y = port s y) ∧ (∀ y, frame (emit s x) y = frame s y) ∧ (∀ y, job? (emit s x) y = job? s y) ∧
    (∀ y, kslot (emit s x) y = kslot s y) ∧ (∀ y, inst (emit s x) y = inst s y) ∧ (∀ y, side (emit s x) y = side s y) ∧
    (∀ y, peer (emit s x) y = peer s y) ∧ (∀ y, pciFn (emit s x) y = pciFn s y) ∧
    (∀ y z, msixEnt (emit s x) y z = msixEnt s y z) ∧ (∀ y, mval (emit s x) y = mval s y) ∧
    (∀ y, fuseRead (emit s x) y = fuseRead s y) ∧ (∀ y, fuseStrict (emit s x) y = fuseStrict s y) ∧
    (∀ y, counter (emit s x) y = counter s y) :=
  ⟨rfl, rfl, rfl, rfl, rfl, rfl, rfl, rfl, rfl, rfl, rfl, rfl, rfl, rfl, rfl, rfl, rfl, rfl, rfl, rfl, rfl, rfl, rfl, rfl, rfl,
  rfl, rfl, rfl, rfl, rfl, rfl, rfl, rfl, rfl, rfl, rfl, rfl, rfl, rfl, rfl, rfl, rfl, rfl, rfl, rfl, rfl, rfl, rfl, rfl, rfl,
  rfl, rfl, rfl, rfl, rfl, rfl, rfl, rfl, rfl, rfl, rfl, rfl, rfl, rfl, rfl, rfl, rfl, rfl, rfl, rfl, rfl, rfl, rfl, rfl, rfl,
  rfl, rfl, rfl, rfl, rfl, rfl, rfl, rfl, rfl, rfl, rfl, rfl, rfl, rfl, fun _ => rfl, fun _ => rfl, fun _ => rfl, fun _ => rfl,
  fun _ => rfl, fun _ => rfl, fun _ => rfl, fun _ => rfl, fun _ => rfl, fun _ => rfl, fun _ _ => rfl, fun _ => rfl, fun _ =>
  rfl, fun _ => rfl, fun _ => rfl⟩

@[simp] theorem tset_frame (s : State) (t : Timer) (n : Nat) :
    (tset s t n).pending = s.pending ∧ (tset s t n).fresh = s.fresh ∧ (tset s t n).out = s.out ∧ (tset s t n).part = s.part ∧
    (tset s t n).hw = s.hw ∧ (tset s t n).hashTurn = s.hashTurn ∧ (tset s t n).flashLanes = s.flashLanes ∧
    (tset s t n).fuseU = s.fuseU ∧ (tset s t n).lifeNew = s.lifeNew ∧ (tset s t n).rst = s.rst ∧ (tset s t n).regs = s.regs ∧
    (tset s t n).rwoUsed = s.rwoUsed ∧ (tset s t n).tbTime = s.tbTime ∧ (tset s t n).tbLoss = s.tbLoss ∧
    (tset s t n).tbLocked = s.tbLocked ∧ (tset s t n).xinCmos = s.xinCmos ∧ (tset s t n).sram = s.sram ∧
    (tset s t n).ports = s.ports ∧ (tset s t n).frames = s.frames ∧ (tset s t n).writeBacks = s.writeBacks ∧
    (tset s t n).domOff = s.domOff ∧ (tset s t n).pwr = s.pwr ∧ (tset s t n).dly = s.dly ∧ (tset s t n).instRst = s.instRst ∧
    (tset s t n).locked = s.locked ∧ (tset s t n).meas = s.meas ∧ (tset s t n).cstOps = s.cstOps ∧ (tset s t n).ctr = s.ctr ∧
    (tset s t n).torn = s.torn ∧ (tset s t n).ctrFailed = s.ctrFailed ∧ (tset s t n).reconciling = s.reconciling ∧
    (tset s t n).fuseR = s.fuseR ∧ (tset s t n).fuseS = s.fuseS ∧ (tset s t n).fuseSh = s.fuseSh ∧ (tset s t n).fus = s.fus ∧
    (tset s t n).pair = s.pair ∧ (tset s t n).tem = s.tem ∧ (tset s t n).sage = s.sage ∧ (tset s t n).dillMem = s.dillMem ∧
    (tset s t n).bootSram = s.bootSram ∧ (tset s t n).bootLock = s.bootLock ∧ (tset s t n).pushLen = s.pushLen ∧
    (tset s t n).bf = s.bf ∧ (tset s t n).svc = s.svc ∧ (tset s t n).i3c = s.i3c ∧ (tset s t n).halted = s.halted ∧
    (tset s t n).twdHeld = s.twdHeld ∧ (tset s t n).twdLate = s.twdLate ∧ (tset s t n).twdNew = s.twdNew ∧
    (tset s t n).tapIr = s.tapIr ∧ (tset s t n).boundary = s.boundary ∧ (tset s t n).token = s.token ∧
    (tset s t n).tamperDue = s.tamperDue ∧ (tset s t n).kslots = s.kslots ∧ (tset s t n).ladder = s.ladder ∧
    (tset s t n).scrubDirty = s.scrubDirty ∧ (tset s t n).fwRec = s.fwRec ∧ (tset s t n).jobs = s.jobs ∧
    (tset s t n).jobOrd = s.jobOrd ∧ (tset s t n).phases = s.phases ∧ (tset s t n).ctxKey = s.ctxKey ∧
    (tset s t n).wrr = s.wrr ∧ (tset s t n).insts = s.insts ∧ (tset s t n).itu = s.itu ∧ (tset s t n).prgs = s.prgs ∧
    (tset s t n).prgStale = s.prgStale ∧ (tset s t n).fqPhase = s.fqPhase ∧ (tset s t n).issued = s.issued ∧
    (tset s t n).incarnation = s.incarnation ∧ (tset s t n).prgWait = s.prgWait ∧ (tset s t n).aesBytes = s.aesBytes ∧
    (tset s t n).sides = s.sides ∧ (tset s t n).peers = s.peers ∧ (tset s t n).topo = s.topo ∧ (tset s t n).raReqs = s.raReqs ∧
    (tset s t n).bulks = s.bulks ∧ (tset s t n).evq = s.evq ∧ (tset s t n).discOut = s.discOut ∧ (tset s t n).disc = s.disc ∧
    (tset s t n).isolated = s.isolated ∧ (tset s t n).dups = s.dups ∧ (tset s t n).pci = s.pci ∧
    (tset s t n).vfEnable = s.vfEnable ∧ (tset s t n).numVfs = s.numVfs ∧ (tset s t n).ariCap = s.ariCap ∧
    (tset s t n).msix = s.msix ∧ (tset s t n).vecs = s.vecs ∧ (tset s t n).ringed = s.ringed ∧
    (tset s t n).coreLines = s.coreLines ∧ (∀ y, rget (tset s t n) y = rget s y) ∧ (∀ y, port (tset s t n) y = port s y) ∧
    (∀ y, frame (tset s t n) y = frame s y) ∧ (∀ y, job? (tset s t n) y = job? s y) ∧ (∀ y, kslot (tset s t n) y = kslot s y) ∧
    (∀ y, inst (tset s t n) y = inst s y) ∧ (∀ y, side (tset s t n) y = side s y) ∧ (∀ y, peer (tset s t n) y = peer s y) ∧
    (∀ y, pciFn (tset s t n) y = pciFn s y) ∧ (∀ y z, msixEnt (tset s t n) y z = msixEnt s y z) ∧
    (∀ y, mval (tset s t n) y = mval s y) ∧ (∀ y, fuseRead (tset s t n) y = fuseRead s y) ∧
    (∀ y, fuseStrict (tset s t n) y = fuseStrict s y) ∧ (∀ y, counter (tset s t n) y = counter s y) :=
  ⟨rfl, rfl, rfl, rfl, rfl, rfl, rfl, rfl, rfl, rfl, rfl, rfl, rfl, rfl, rfl, rfl, rfl, rfl, rfl, rfl, rfl, rfl, rfl, rfl, rfl,
  rfl, rfl, rfl, rfl, rfl, rfl, rfl, rfl, rfl, rfl, rfl, rfl, rfl, rfl, rfl, rfl, rfl, rfl, rfl, rfl, rfl, rfl, rfl, rfl, rfl,
  rfl, rfl, rfl, rfl, rfl, rfl, rfl, rfl, rfl, rfl, rfl, rfl, rfl, rfl, rfl, rfl, rfl, rfl, rfl, rfl, rfl, rfl, rfl, rfl, rfl,
  rfl, rfl, rfl, rfl, rfl, rfl, rfl, rfl, rfl, rfl, rfl, rfl, rfl, rfl, fun _ => rfl, fun _ => rfl, fun _ => rfl, fun _ => rfl,
  fun _ => rfl, fun _ => rfl, fun _ => rfl, fun _ => rfl, fun _ => rfl, fun _ _ => rfl, fun _ => rfl, fun _ => rfl, fun _ =>
  rfl, fun _ => rfl⟩

@[simp] theorem tstop_frame (s : State) (t : Timer) :
    (tstop s t).pending = s.pending ∧ (tstop s t).fresh = s.fresh ∧ (tstop s t).out = s.out ∧ (tstop s t).part = s.part ∧
    (tstop s t).hw = s.hw ∧ (tstop s t).hashTurn = s.hashTurn ∧ (tstop s t).flashLanes = s.flashLanes ∧
    (tstop s t).fuseU = s.fuseU ∧ (tstop s t).lifeNew = s.lifeNew ∧ (tstop s t).rst = s.rst ∧ (tstop s t).regs = s.regs ∧
    (tstop s t).rwoUsed = s.rwoUsed ∧ (tstop s t).tbTime = s.tbTime ∧ (tstop s t).tbLoss = s.tbLoss ∧
    (tstop s t).tbLocked = s.tbLocked ∧ (tstop s t).xinCmos = s.xinCmos ∧ (tstop s t).sram = s.sram ∧
    (tstop s t).ports = s.ports ∧ (tstop s t).frames = s.frames ∧ (tstop s t).writeBacks = s.writeBacks ∧
    (tstop s t).domOff = s.domOff ∧ (tstop s t).pwr = s.pwr ∧ (tstop s t).dly = s.dly ∧ (tstop s t).instRst = s.instRst ∧
    (tstop s t).locked = s.locked ∧ (tstop s t).meas = s.meas ∧ (tstop s t).cstOps = s.cstOps ∧ (tstop s t).ctr = s.ctr ∧
    (tstop s t).torn = s.torn ∧ (tstop s t).ctrFailed = s.ctrFailed ∧ (tstop s t).reconciling = s.reconciling ∧
    (tstop s t).fuseR = s.fuseR ∧ (tstop s t).fuseS = s.fuseS ∧ (tstop s t).fuseSh = s.fuseSh ∧ (tstop s t).fus = s.fus ∧
    (tstop s t).pair = s.pair ∧ (tstop s t).tem = s.tem ∧ (tstop s t).sage = s.sage ∧ (tstop s t).dillMem = s.dillMem ∧
    (tstop s t).bootSram = s.bootSram ∧ (tstop s t).bootLock = s.bootLock ∧ (tstop s t).pushLen = s.pushLen ∧
    (tstop s t).bf = s.bf ∧ (tstop s t).svc = s.svc ∧ (tstop s t).i3c = s.i3c ∧ (tstop s t).halted = s.halted ∧
    (tstop s t).twdHeld = s.twdHeld ∧ (tstop s t).twdLate = s.twdLate ∧ (tstop s t).twdNew = s.twdNew ∧
    (tstop s t).tapIr = s.tapIr ∧ (tstop s t).boundary = s.boundary ∧ (tstop s t).token = s.token ∧
    (tstop s t).tamperDue = s.tamperDue ∧ (tstop s t).kslots = s.kslots ∧ (tstop s t).ladder = s.ladder ∧
    (tstop s t).scrubDirty = s.scrubDirty ∧ (tstop s t).fwRec = s.fwRec ∧ (tstop s t).jobs = s.jobs ∧
    (tstop s t).jobOrd = s.jobOrd ∧ (tstop s t).phases = s.phases ∧ (tstop s t).ctxKey = s.ctxKey ∧ (tstop s t).wrr = s.wrr ∧
    (tstop s t).insts = s.insts ∧ (tstop s t).itu = s.itu ∧ (tstop s t).prgs = s.prgs ∧ (tstop s t).prgStale = s.prgStale ∧
    (tstop s t).fqPhase = s.fqPhase ∧ (tstop s t).issued = s.issued ∧ (tstop s t).incarnation = s.incarnation ∧
    (tstop s t).prgWait = s.prgWait ∧ (tstop s t).aesBytes = s.aesBytes ∧ (tstop s t).sides = s.sides ∧
    (tstop s t).peers = s.peers ∧ (tstop s t).topo = s.topo ∧ (tstop s t).raReqs = s.raReqs ∧ (tstop s t).bulks = s.bulks ∧
    (tstop s t).evq = s.evq ∧ (tstop s t).discOut = s.discOut ∧ (tstop s t).disc = s.disc ∧ (tstop s t).isolated = s.isolated ∧
    (tstop s t).dups = s.dups ∧ (tstop s t).pci = s.pci ∧ (tstop s t).vfEnable = s.vfEnable ∧ (tstop s t).numVfs = s.numVfs ∧
    (tstop s t).ariCap = s.ariCap ∧ (tstop s t).msix = s.msix ∧ (tstop s t).vecs = s.vecs ∧ (tstop s t).ringed = s.ringed ∧
    (tstop s t).coreLines = s.coreLines ∧ (∀ y, rget (tstop s t) y = rget s y) ∧ (∀ y, port (tstop s t) y = port s y) ∧
    (∀ y, frame (tstop s t) y = frame s y) ∧ (∀ y, job? (tstop s t) y = job? s y) ∧ (∀ y, kslot (tstop s t) y = kslot s y) ∧
    (∀ y, inst (tstop s t) y = inst s y) ∧ (∀ y, side (tstop s t) y = side s y) ∧ (∀ y, peer (tstop s t) y = peer s y) ∧
    (∀ y, pciFn (tstop s t) y = pciFn s y) ∧ (∀ y z, msixEnt (tstop s t) y z = msixEnt s y z) ∧
    (∀ y, mval (tstop s t) y = mval s y) ∧ (∀ y, fuseRead (tstop s t) y = fuseRead s y) ∧
    (∀ y, fuseStrict (tstop s t) y = fuseStrict s y) ∧ (∀ y, counter (tstop s t) y = counter s y) :=
  ⟨rfl, rfl, rfl, rfl, rfl, rfl, rfl, rfl, rfl, rfl, rfl, rfl, rfl, rfl, rfl, rfl, rfl, rfl, rfl, rfl, rfl, rfl, rfl, rfl, rfl,
  rfl, rfl, rfl, rfl, rfl, rfl, rfl, rfl, rfl, rfl, rfl, rfl, rfl, rfl, rfl, rfl, rfl, rfl, rfl, rfl, rfl, rfl, rfl, rfl, rfl,
  rfl, rfl, rfl, rfl, rfl, rfl, rfl, rfl, rfl, rfl, rfl, rfl, rfl, rfl, rfl, rfl, rfl, rfl, rfl, rfl, rfl, rfl, rfl, rfl, rfl,
  rfl, rfl, rfl, rfl, rfl, rfl, rfl, rfl, rfl, rfl, rfl, rfl, rfl, rfl, fun _ => rfl, fun _ => rfl, fun _ => rfl, fun _ => rfl,
  fun _ => rfl, fun _ => rfl, fun _ => rfl, fun _ => rfl, fun _ => rfl, fun _ _ => rfl, fun _ => rfl, fun _ => rfl, fun _ =>
  rfl, fun _ => rfl⟩

@[simp] theorem setPort_frame (s : State) (n : Nat) (p : Port) :
    (setPort s n p).pending = s.pending ∧ (setPort s n p).fresh = s.fresh ∧ (setPort s n p).out = s.out ∧
    (setPort s n p).part = s.part ∧ (setPort s n p).hw = s.hw ∧ (setPort s n p).hashTurn = s.hashTurn ∧
    (setPort s n p).flashLanes = s.flashLanes ∧ (setPort s n p).fuseU = s.fuseU ∧ (setPort s n p).lifeNew = s.lifeNew ∧
    (setPort s n p).rst = s.rst ∧ (setPort s n p).timers = s.timers ∧ (setPort s n p).regs = s.regs ∧
    (setPort s n p).rwoUsed = s.rwoUsed ∧ (setPort s n p).tbTime = s.tbTime ∧ (setPort s n p).tbLoss = s.tbLoss ∧
    (setPort s n p).tbLocked = s.tbLocked ∧ (setPort s n p).xinCmos = s.xinCmos ∧ (setPort s n p).sram = s.sram ∧
    (setPort s n p).frames = s.frames ∧ (setPort s n p).writeBacks = s.writeBacks ∧ (setPort s n p).domOff = s.domOff ∧
    (setPort s n p).pwr = s.pwr ∧ (setPort s n p).dly = s.dly ∧ (setPort s n p).instRst = s.instRst ∧
    (setPort s n p).locked = s.locked ∧ (setPort s n p).meas = s.meas ∧ (setPort s n p).cstOps = s.cstOps ∧
    (setPort s n p).ctr = s.ctr ∧ (setPort s n p).torn = s.torn ∧ (setPort s n p).ctrFailed = s.ctrFailed ∧
    (setPort s n p).reconciling = s.reconciling ∧ (setPort s n p).fuseR = s.fuseR ∧ (setPort s n p).fuseS = s.fuseS ∧
    (setPort s n p).fuseSh = s.fuseSh ∧ (setPort s n p).fus = s.fus ∧ (setPort s n p).pair = s.pair ∧
    (setPort s n p).tem = s.tem ∧ (setPort s n p).sage = s.sage ∧ (setPort s n p).dillMem = s.dillMem ∧
    (setPort s n p).bootSram = s.bootSram ∧ (setPort s n p).bootLock = s.bootLock ∧ (setPort s n p).pushLen = s.pushLen ∧
    (setPort s n p).bf = s.bf ∧ (setPort s n p).svc = s.svc ∧ (setPort s n p).i3c = s.i3c ∧ (setPort s n p).halted = s.halted ∧
    (setPort s n p).twdHeld = s.twdHeld ∧ (setPort s n p).twdLate = s.twdLate ∧ (setPort s n p).twdNew = s.twdNew ∧
    (setPort s n p).tapIr = s.tapIr ∧ (setPort s n p).boundary = s.boundary ∧ (setPort s n p).token = s.token ∧
    (setPort s n p).tamperDue = s.tamperDue ∧ (setPort s n p).kslots = s.kslots ∧ (setPort s n p).ladder = s.ladder ∧
    (setPort s n p).scrubDirty = s.scrubDirty ∧ (setPort s n p).fwRec = s.fwRec ∧ (setPort s n p).jobs = s.jobs ∧
    (setPort s n p).jobOrd = s.jobOrd ∧ (setPort s n p).phases = s.phases ∧ (setPort s n p).ctxKey = s.ctxKey ∧
    (setPort s n p).wrr = s.wrr ∧ (setPort s n p).insts = s.insts ∧ (setPort s n p).itu = s.itu ∧
    (setPort s n p).prgs = s.prgs ∧ (setPort s n p).prgStale = s.prgStale ∧ (setPort s n p).fqPhase = s.fqPhase ∧
    (setPort s n p).issued = s.issued ∧ (setPort s n p).incarnation = s.incarnation ∧ (setPort s n p).prgWait = s.prgWait ∧
    (setPort s n p).aesBytes = s.aesBytes ∧ (setPort s n p).sides = s.sides ∧ (setPort s n p).peers = s.peers ∧
    (setPort s n p).topo = s.topo ∧ (setPort s n p).raReqs = s.raReqs ∧ (setPort s n p).bulks = s.bulks ∧
    (setPort s n p).evq = s.evq ∧ (setPort s n p).discOut = s.discOut ∧ (setPort s n p).disc = s.disc ∧
    (setPort s n p).isolated = s.isolated ∧ (setPort s n p).dups = s.dups ∧ (setPort s n p).pci = s.pci ∧
    (setPort s n p).vfEnable = s.vfEnable ∧ (setPort s n p).numVfs = s.numVfs ∧ (setPort s n p).ariCap = s.ariCap ∧
    (setPort s n p).msix = s.msix ∧ (setPort s n p).vecs = s.vecs ∧ (setPort s n p).ringed = s.ringed ∧
    (setPort s n p).coreLines = s.coreLines ∧ (∀ y, rget (setPort s n p) y = rget s y) ∧
    (∀ y, tget (setPort s n p) y = tget s y) ∧ (∀ y, frame (setPort s n p) y = frame s y) ∧
    (∀ y, job? (setPort s n p) y = job? s y) ∧ (∀ y, kslot (setPort s n p) y = kslot s y) ∧
    (∀ y, inst (setPort s n p) y = inst s y) ∧ (∀ y, side (setPort s n p) y = side s y) ∧
    (∀ y, peer (setPort s n p) y = peer s y) ∧ (∀ y, pciFn (setPort s n p) y = pciFn s y) ∧
    (∀ y z, msixEnt (setPort s n p) y z = msixEnt s y z) ∧ (∀ y, mval (setPort s n p) y = mval s y) ∧
    (∀ y, fuseRead (setPort s n p) y = fuseRead s y) ∧ (∀ y, fuseStrict (setPort s n p) y = fuseStrict s y) ∧
    (∀ y, counter (setPort s n p) y = counter s y) :=
  ⟨rfl, rfl, rfl, rfl, rfl, rfl, rfl, rfl, rfl, rfl, rfl, rfl, rfl, rfl, rfl, rfl, rfl, rfl, rfl, rfl, rfl, rfl, rfl, rfl, rfl,
  rfl, rfl, rfl, rfl, rfl, rfl, rfl, rfl, rfl, rfl, rfl, rfl, rfl, rfl, rfl, rfl, rfl, rfl, rfl, rfl, rfl, rfl, rfl, rfl, rfl,
  rfl, rfl, rfl, rfl, rfl, rfl, rfl, rfl, rfl, rfl, rfl, rfl, rfl, rfl, rfl, rfl, rfl, rfl, rfl, rfl, rfl, rfl, rfl, rfl, rfl,
  rfl, rfl, rfl, rfl, rfl, rfl, rfl, rfl, rfl, rfl, rfl, rfl, rfl, rfl, fun _ => rfl, fun _ => rfl, fun _ => rfl, fun _ => rfl,
  fun _ => rfl, fun _ => rfl, fun _ => rfl, fun _ => rfl, fun _ => rfl, fun _ _ => rfl, fun _ => rfl, fun _ => rfl, fun _ =>
  rfl, fun _ => rfl⟩

@[simp] theorem setFrame_frame (s : State) (n : Nat) (x : Frame) :
    (setFrame s n x).pending = s.pending ∧ (setFrame s n x).fresh = s.fresh ∧ (setFrame s n x).out = s.out ∧
    (setFrame s n x).part = s.part ∧ (setFrame s n x).hw = s.hw ∧ (setFrame s n x).hashTurn = s.hashTurn ∧
    (setFrame s n x).flashLanes = s.flashLanes ∧ (setFrame s n x).fuseU = s.fuseU ∧ (setFrame s n x).lifeNew = s.lifeNew ∧
    (setFrame s n x).rst = s.rst ∧ (setFrame s n x).timers = s.timers ∧ (setFrame s n x).regs = s.regs ∧
    (setFrame s n x).rwoUsed = s.rwoUsed ∧ (setFrame s n x).tbTime = s.tbTime ∧ (setFrame s n x).tbLoss = s.tbLoss ∧
    (setFrame s n x).tbLocked = s.tbLocked ∧ (setFrame s n x).xinCmos = s.xinCmos ∧ (setFrame s n x).sram = s.sram ∧
    (setFrame s n x).ports = s.ports ∧ (setFrame s n x).writeBacks = s.writeBacks ∧ (setFrame s n x).domOff = s.domOff ∧
    (setFrame s n x).pwr = s.pwr ∧ (setFrame s n x).dly = s.dly ∧ (setFrame s n x).instRst = s.instRst ∧
    (setFrame s n x).locked = s.locked ∧ (setFrame s n x).meas = s.meas ∧ (setFrame s n x).cstOps = s.cstOps ∧
    (setFrame s n x).ctr = s.ctr ∧ (setFrame s n x).torn = s.torn ∧ (setFrame s n x).ctrFailed = s.ctrFailed ∧
    (setFrame s n x).reconciling = s.reconciling ∧ (setFrame s n x).fuseR = s.fuseR ∧ (setFrame s n x).fuseS = s.fuseS ∧
    (setFrame s n x).fuseSh = s.fuseSh ∧ (setFrame s n x).fus = s.fus ∧ (setFrame s n x).pair = s.pair ∧
    (setFrame s n x).tem = s.tem ∧ (setFrame s n x).sage = s.sage ∧ (setFrame s n x).dillMem = s.dillMem ∧
    (setFrame s n x).bootSram = s.bootSram ∧ (setFrame s n x).bootLock = s.bootLock ∧ (setFrame s n x).pushLen = s.pushLen ∧
    (setFrame s n x).bf = s.bf ∧ (setFrame s n x).svc = s.svc ∧ (setFrame s n x).i3c = s.i3c ∧
    (setFrame s n x).halted = s.halted ∧ (setFrame s n x).twdHeld = s.twdHeld ∧ (setFrame s n x).twdLate = s.twdLate ∧
    (setFrame s n x).twdNew = s.twdNew ∧ (setFrame s n x).tapIr = s.tapIr ∧ (setFrame s n x).boundary = s.boundary ∧
    (setFrame s n x).token = s.token ∧ (setFrame s n x).tamperDue = s.tamperDue ∧ (setFrame s n x).kslots = s.kslots ∧
    (setFrame s n x).ladder = s.ladder ∧ (setFrame s n x).scrubDirty = s.scrubDirty ∧ (setFrame s n x).fwRec = s.fwRec ∧
    (setFrame s n x).jobs = s.jobs ∧ (setFrame s n x).jobOrd = s.jobOrd ∧ (setFrame s n x).phases = s.phases ∧
    (setFrame s n x).ctxKey = s.ctxKey ∧ (setFrame s n x).wrr = s.wrr ∧ (setFrame s n x).insts = s.insts ∧
    (setFrame s n x).itu = s.itu ∧ (setFrame s n x).prgs = s.prgs ∧ (setFrame s n x).prgStale = s.prgStale ∧
    (setFrame s n x).fqPhase = s.fqPhase ∧ (setFrame s n x).issued = s.issued ∧ (setFrame s n x).incarnation = s.incarnation ∧
    (setFrame s n x).prgWait = s.prgWait ∧ (setFrame s n x).aesBytes = s.aesBytes ∧ (setFrame s n x).sides = s.sides ∧
    (setFrame s n x).peers = s.peers ∧ (setFrame s n x).topo = s.topo ∧ (setFrame s n x).raReqs = s.raReqs ∧
    (setFrame s n x).bulks = s.bulks ∧ (setFrame s n x).evq = s.evq ∧ (setFrame s n x).discOut = s.discOut ∧
    (setFrame s n x).disc = s.disc ∧ (setFrame s n x).isolated = s.isolated ∧ (setFrame s n x).dups = s.dups ∧
    (setFrame s n x).pci = s.pci ∧ (setFrame s n x).vfEnable = s.vfEnable ∧ (setFrame s n x).numVfs = s.numVfs ∧
    (setFrame s n x).ariCap = s.ariCap ∧ (setFrame s n x).msix = s.msix ∧ (setFrame s n x).vecs = s.vecs ∧
    (setFrame s n x).ringed = s.ringed ∧ (setFrame s n x).coreLines = s.coreLines ∧ (∀ y, rget (setFrame s n x) y = rget s y) ∧
    (∀ y, tget (setFrame s n x) y = tget s y) ∧ (∀ y, port (setFrame s n x) y = port s y) ∧
    (∀ y, job? (setFrame s n x) y = job? s y) ∧ (∀ y, kslot (setFrame s n x) y = kslot s y) ∧
    (∀ y, inst (setFrame s n x) y = inst s y) ∧ (∀ y, side (setFrame s n x) y = side s y) ∧
    (∀ y, peer (setFrame s n x) y = peer s y) ∧ (∀ y, pciFn (setFrame s n x) y = pciFn s y) ∧
    (∀ y z, msixEnt (setFrame s n x) y z = msixEnt s y z) ∧ (∀ y, mval (setFrame s n x) y = mval s y) ∧
    (∀ y, fuseRead (setFrame s n x) y = fuseRead s y) ∧ (∀ y, fuseStrict (setFrame s n x) y = fuseStrict s y) ∧
    (∀ y, counter (setFrame s n x) y = counter s y) :=
  ⟨rfl, rfl, rfl, rfl, rfl, rfl, rfl, rfl, rfl, rfl, rfl, rfl, rfl, rfl, rfl, rfl, rfl, rfl, rfl, rfl, rfl, rfl, rfl, rfl, rfl,
  rfl, rfl, rfl, rfl, rfl, rfl, rfl, rfl, rfl, rfl, rfl, rfl, rfl, rfl, rfl, rfl, rfl, rfl, rfl, rfl, rfl, rfl, rfl, rfl, rfl,
  rfl, rfl, rfl, rfl, rfl, rfl, rfl, rfl, rfl, rfl, rfl, rfl, rfl, rfl, rfl, rfl, rfl, rfl, rfl, rfl, rfl, rfl, rfl, rfl, rfl,
  rfl, rfl, rfl, rfl, rfl, rfl, rfl, rfl, rfl, rfl, rfl, rfl, rfl, rfl, fun _ => rfl, fun _ => rfl, fun _ => rfl, fun _ => rfl,
  fun _ => rfl, fun _ => rfl, fun _ => rfl, fun _ => rfl, fun _ => rfl, fun _ _ => rfl, fun _ => rfl, fun _ => rfl, fun _ =>
  rfl, fun _ => rfl⟩

@[simp] theorem setJob_frame (s : State) (t : Nat) (x : Job) :
    (setJob s t x).pending = s.pending ∧ (setJob s t x).fresh = s.fresh ∧ (setJob s t x).out = s.out ∧
    (setJob s t x).part = s.part ∧ (setJob s t x).hw = s.hw ∧ (setJob s t x).hashTurn = s.hashTurn ∧
    (setJob s t x).flashLanes = s.flashLanes ∧ (setJob s t x).fuseU = s.fuseU ∧ (setJob s t x).lifeNew = s.lifeNew ∧
    (setJob s t x).rst = s.rst ∧ (setJob s t x).timers = s.timers ∧ (setJob s t x).regs = s.regs ∧
    (setJob s t x).rwoUsed = s.rwoUsed ∧ (setJob s t x).tbTime = s.tbTime ∧ (setJob s t x).tbLoss = s.tbLoss ∧
    (setJob s t x).tbLocked = s.tbLocked ∧ (setJob s t x).xinCmos = s.xinCmos ∧ (setJob s t x).sram = s.sram ∧
    (setJob s t x).ports = s.ports ∧ (setJob s t x).frames = s.frames ∧ (setJob s t x).writeBacks = s.writeBacks ∧
    (setJob s t x).domOff = s.domOff ∧ (setJob s t x).pwr = s.pwr ∧ (setJob s t x).dly = s.dly ∧
    (setJob s t x).instRst = s.instRst ∧ (setJob s t x).locked = s.locked ∧ (setJob s t x).meas = s.meas ∧
    (setJob s t x).cstOps = s.cstOps ∧ (setJob s t x).ctr = s.ctr ∧ (setJob s t x).torn = s.torn ∧
    (setJob s t x).ctrFailed = s.ctrFailed ∧ (setJob s t x).reconciling = s.reconciling ∧ (setJob s t x).fuseR = s.fuseR ∧
    (setJob s t x).fuseS = s.fuseS ∧ (setJob s t x).fuseSh = s.fuseSh ∧ (setJob s t x).fus = s.fus ∧
    (setJob s t x).pair = s.pair ∧ (setJob s t x).tem = s.tem ∧ (setJob s t x).sage = s.sage ∧
    (setJob s t x).dillMem = s.dillMem ∧ (setJob s t x).bootSram = s.bootSram ∧ (setJob s t x).bootLock = s.bootLock ∧
    (setJob s t x).pushLen = s.pushLen ∧ (setJob s t x).bf = s.bf ∧ (setJob s t x).svc = s.svc ∧ (setJob s t x).i3c = s.i3c ∧
    (setJob s t x).halted = s.halted ∧ (setJob s t x).twdHeld = s.twdHeld ∧ (setJob s t x).twdLate = s.twdLate ∧
    (setJob s t x).twdNew = s.twdNew ∧ (setJob s t x).tapIr = s.tapIr ∧ (setJob s t x).boundary = s.boundary ∧
    (setJob s t x).token = s.token ∧ (setJob s t x).tamperDue = s.tamperDue ∧ (setJob s t x).kslots = s.kslots ∧
    (setJob s t x).ladder = s.ladder ∧ (setJob s t x).scrubDirty = s.scrubDirty ∧ (setJob s t x).fwRec = s.fwRec ∧
    (setJob s t x).jobOrd = s.jobOrd ∧ (setJob s t x).phases = s.phases ∧ (setJob s t x).ctxKey = s.ctxKey ∧
    (setJob s t x).wrr = s.wrr ∧ (setJob s t x).insts = s.insts ∧ (setJob s t x).itu = s.itu ∧ (setJob s t x).prgs = s.prgs ∧
    (setJob s t x).prgStale = s.prgStale ∧ (setJob s t x).fqPhase = s.fqPhase ∧ (setJob s t x).issued = s.issued ∧
    (setJob s t x).incarnation = s.incarnation ∧ (setJob s t x).prgWait = s.prgWait ∧ (setJob s t x).aesBytes = s.aesBytes ∧
    (setJob s t x).sides = s.sides ∧ (setJob s t x).peers = s.peers ∧ (setJob s t x).topo = s.topo ∧
    (setJob s t x).raReqs = s.raReqs ∧ (setJob s t x).bulks = s.bulks ∧ (setJob s t x).evq = s.evq ∧
    (setJob s t x).discOut = s.discOut ∧ (setJob s t x).disc = s.disc ∧ (setJob s t x).isolated = s.isolated ∧
    (setJob s t x).dups = s.dups ∧ (setJob s t x).pci = s.pci ∧ (setJob s t x).vfEnable = s.vfEnable ∧
    (setJob s t x).numVfs = s.numVfs ∧ (setJob s t x).ariCap = s.ariCap ∧ (setJob s t x).msix = s.msix ∧
    (setJob s t x).vecs = s.vecs ∧ (setJob s t x).ringed = s.ringed ∧ (setJob s t x).coreLines = s.coreLines ∧
    (∀ y, rget (setJob s t x) y = rget s y) ∧ (∀ y, tget (setJob s t x) y = tget s y) ∧
    (∀ y, port (setJob s t x) y = port s y) ∧ (∀ y, frame (setJob s t x) y = frame s y) ∧
    (∀ y, kslot (setJob s t x) y = kslot s y) ∧ (∀ y, inst (setJob s t x) y = inst s y) ∧
    (∀ y, side (setJob s t x) y = side s y) ∧ (∀ y, peer (setJob s t x) y = peer s y) ∧
    (∀ y, pciFn (setJob s t x) y = pciFn s y) ∧ (∀ y z, msixEnt (setJob s t x) y z = msixEnt s y z) ∧
    (∀ y, mval (setJob s t x) y = mval s y) ∧ (∀ y, fuseRead (setJob s t x) y = fuseRead s y) ∧
    (∀ y, fuseStrict (setJob s t x) y = fuseStrict s y) ∧ (∀ y, counter (setJob s t x) y = counter s y) :=
  ⟨rfl, rfl, rfl, rfl, rfl, rfl, rfl, rfl, rfl, rfl, rfl, rfl, rfl, rfl, rfl, rfl, rfl, rfl, rfl, rfl, rfl, rfl, rfl, rfl, rfl,
  rfl, rfl, rfl, rfl, rfl, rfl, rfl, rfl, rfl, rfl, rfl, rfl, rfl, rfl, rfl, rfl, rfl, rfl, rfl, rfl, rfl, rfl, rfl, rfl, rfl,
  rfl, rfl, rfl, rfl, rfl, rfl, rfl, rfl, rfl, rfl, rfl, rfl, rfl, rfl, rfl, rfl, rfl, rfl, rfl, rfl, rfl, rfl, rfl, rfl, rfl,
  rfl, rfl, rfl, rfl, rfl, rfl, rfl, rfl, rfl, rfl, rfl, rfl, rfl, rfl, fun _ => rfl, fun _ => rfl, fun _ => rfl, fun _ => rfl,
  fun _ => rfl, fun _ => rfl, fun _ => rfl, fun _ => rfl, fun _ => rfl, fun _ _ => rfl, fun _ => rfl, fun _ => rfl, fun _ =>
  rfl, fun _ => rfl⟩

@[simp] theorem setKslot_frame (s : State) (k : Nat) (x : KSlot) :
    (setKslot s k x).pending = s.pending ∧ (setKslot s k x).fresh = s.fresh ∧ (setKslot s k x).out = s.out ∧
    (setKslot s k x).part = s.part ∧ (setKslot s k x).hw = s.hw ∧ (setKslot s k x).hashTurn = s.hashTurn ∧
    (setKslot s k x).flashLanes = s.flashLanes ∧ (setKslot s k x).fuseU = s.fuseU ∧ (setKslot s k x).lifeNew = s.lifeNew ∧
    (setKslot s k x).rst = s.rst ∧ (setKslot s k x).timers = s.timers ∧ (setKslot s k x).regs = s.regs ∧
    (setKslot s k x).rwoUsed = s.rwoUsed ∧ (setKslot s k x).tbTime = s.tbTime ∧ (setKslot s k x).tbLoss = s.tbLoss ∧
    (setKslot s k x).tbLocked = s.tbLocked ∧ (setKslot s k x).xinCmos = s.xinCmos ∧ (setKslot s k x).sram = s.sram ∧
    (setKslot s k x).ports = s.ports ∧ (setKslot s k x).frames = s.frames ∧ (setKslot s k x).writeBacks = s.writeBacks ∧
    (setKslot s k x).domOff = s.domOff ∧ (setKslot s k x).pwr = s.pwr ∧ (setKslot s k x).dly = s.dly ∧
    (setKslot s k x).instRst = s.instRst ∧ (setKslot s k x).locked = s.locked ∧ (setKslot s k x).meas = s.meas ∧
    (setKslot s k x).cstOps = s.cstOps ∧ (setKslot s k x).ctr = s.ctr ∧ (setKslot s k x).torn = s.torn ∧
    (setKslot s k x).ctrFailed = s.ctrFailed ∧ (setKslot s k x).reconciling = s.reconciling ∧
    (setKslot s k x).fuseR = s.fuseR ∧ (setKslot s k x).fuseS = s.fuseS ∧ (setKslot s k x).fuseSh = s.fuseSh ∧
    (setKslot s k x).fus = s.fus ∧ (setKslot s k x).pair = s.pair ∧ (setKslot s k x).tem = s.tem ∧
    (setKslot s k x).sage = s.sage ∧ (setKslot s k x).dillMem = s.dillMem ∧ (setKslot s k x).bootSram = s.bootSram ∧
    (setKslot s k x).bootLock = s.bootLock ∧ (setKslot s k x).pushLen = s.pushLen ∧ (setKslot s k x).bf = s.bf ∧
    (setKslot s k x).svc = s.svc ∧ (setKslot s k x).i3c = s.i3c ∧ (setKslot s k x).halted = s.halted ∧
    (setKslot s k x).twdHeld = s.twdHeld ∧ (setKslot s k x).twdLate = s.twdLate ∧ (setKslot s k x).twdNew = s.twdNew ∧
    (setKslot s k x).tapIr = s.tapIr ∧ (setKslot s k x).boundary = s.boundary ∧ (setKslot s k x).token = s.token ∧
    (setKslot s k x).tamperDue = s.tamperDue ∧ (setKslot s k x).ladder = s.ladder ∧
    (setKslot s k x).scrubDirty = s.scrubDirty ∧ (setKslot s k x).fwRec = s.fwRec ∧ (setKslot s k x).jobs = s.jobs ∧
    (setKslot s k x).jobOrd = s.jobOrd ∧ (setKslot s k x).phases = s.phases ∧ (setKslot s k x).ctxKey = s.ctxKey ∧
    (setKslot s k x).wrr = s.wrr ∧ (setKslot s k x).insts = s.insts ∧ (setKslot s k x).itu = s.itu ∧
    (setKslot s k x).prgs = s.prgs ∧ (setKslot s k x).prgStale = s.prgStale ∧ (setKslot s k x).fqPhase = s.fqPhase ∧
    (setKslot s k x).issued = s.issued ∧ (setKslot s k x).incarnation = s.incarnation ∧ (setKslot s k x).prgWait = s.prgWait ∧
    (setKslot s k x).aesBytes = s.aesBytes ∧ (setKslot s k x).sides = s.sides ∧ (setKslot s k x).peers = s.peers ∧
    (setKslot s k x).topo = s.topo ∧ (setKslot s k x).raReqs = s.raReqs ∧ (setKslot s k x).bulks = s.bulks ∧
    (setKslot s k x).evq = s.evq ∧ (setKslot s k x).discOut = s.discOut ∧ (setKslot s k x).disc = s.disc ∧
    (setKslot s k x).isolated = s.isolated ∧ (setKslot s k x).dups = s.dups ∧ (setKslot s k x).pci = s.pci ∧
    (setKslot s k x).vfEnable = s.vfEnable ∧ (setKslot s k x).numVfs = s.numVfs ∧ (setKslot s k x).ariCap = s.ariCap ∧
    (setKslot s k x).msix = s.msix ∧ (setKslot s k x).vecs = s.vecs ∧ (setKslot s k x).ringed = s.ringed ∧
    (setKslot s k x).coreLines = s.coreLines ∧ (∀ y, rget (setKslot s k x) y = rget s y) ∧
    (∀ y, tget (setKslot s k x) y = tget s y) ∧ (∀ y, port (setKslot s k x) y = port s y) ∧
    (∀ y, frame (setKslot s k x) y = frame s y) ∧ (∀ y, job? (setKslot s k x) y = job? s y) ∧
    (∀ y, inst (setKslot s k x) y = inst s y) ∧ (∀ y, side (setKslot s k x) y = side s y) ∧
    (∀ y, peer (setKslot s k x) y = peer s y) ∧ (∀ y, pciFn (setKslot s k x) y = pciFn s y) ∧
    (∀ y z, msixEnt (setKslot s k x) y z = msixEnt s y z) ∧ (∀ y, mval (setKslot s k x) y = mval s y) ∧
    (∀ y, fuseRead (setKslot s k x) y = fuseRead s y) ∧ (∀ y, fuseStrict (setKslot s k x) y = fuseStrict s y) ∧
    (∀ y, counter (setKslot s k x) y = counter s y) :=
  ⟨rfl, rfl, rfl, rfl, rfl, rfl, rfl, rfl, rfl, rfl, rfl, rfl, rfl, rfl, rfl, rfl, rfl, rfl, rfl, rfl, rfl, rfl, rfl, rfl, rfl,
  rfl, rfl, rfl, rfl, rfl, rfl, rfl, rfl, rfl, rfl, rfl, rfl, rfl, rfl, rfl, rfl, rfl, rfl, rfl, rfl, rfl, rfl, rfl, rfl, rfl,
  rfl, rfl, rfl, rfl, rfl, rfl, rfl, rfl, rfl, rfl, rfl, rfl, rfl, rfl, rfl, rfl, rfl, rfl, rfl, rfl, rfl, rfl, rfl, rfl, rfl,
  rfl, rfl, rfl, rfl, rfl, rfl, rfl, rfl, rfl, rfl, rfl, rfl, rfl, rfl, fun _ => rfl, fun _ => rfl, fun _ => rfl, fun _ => rfl,
  fun _ => rfl, fun _ => rfl, fun _ => rfl, fun _ => rfl, fun _ => rfl, fun _ _ => rfl, fun _ => rfl, fun _ => rfl, fun _ =>
  rfl, fun _ => rfl⟩

@[simp] theorem setInst_frame (s : State) (i : Nat) (x : Inst) :
    (setInst s i x).pending = s.pending ∧ (setInst s i x).fresh = s.fresh ∧ (setInst s i x).out = s.out ∧
    (setInst s i x).part = s.part ∧ (setInst s i x).hw = s.hw ∧ (setInst s i x).hashTurn = s.hashTurn ∧
    (setInst s i x).flashLanes = s.flashLanes ∧ (setInst s i x).fuseU = s.fuseU ∧ (setInst s i x).lifeNew = s.lifeNew ∧
    (setInst s i x).rst = s.rst ∧ (setInst s i x).timers = s.timers ∧ (setInst s i x).regs = s.regs ∧
    (setInst s i x).rwoUsed = s.rwoUsed ∧ (setInst s i x).tbTime = s.tbTime ∧ (setInst s i x).tbLoss = s.tbLoss ∧
    (setInst s i x).tbLocked = s.tbLocked ∧ (setInst s i x).xinCmos = s.xinCmos ∧ (setInst s i x).sram = s.sram ∧
    (setInst s i x).ports = s.ports ∧ (setInst s i x).frames = s.frames ∧ (setInst s i x).writeBacks = s.writeBacks ∧
    (setInst s i x).domOff = s.domOff ∧ (setInst s i x).pwr = s.pwr ∧ (setInst s i x).dly = s.dly ∧
    (setInst s i x).instRst = s.instRst ∧ (setInst s i x).locked = s.locked ∧ (setInst s i x).meas = s.meas ∧
    (setInst s i x).cstOps = s.cstOps ∧ (setInst s i x).ctr = s.ctr ∧ (setInst s i x).torn = s.torn ∧
    (setInst s i x).ctrFailed = s.ctrFailed ∧ (setInst s i x).reconciling = s.reconciling ∧ (setInst s i x).fuseR = s.fuseR ∧
    (setInst s i x).fuseS = s.fuseS ∧ (setInst s i x).fuseSh = s.fuseSh ∧ (setInst s i x).fus = s.fus ∧
    (setInst s i x).pair = s.pair ∧ (setInst s i x).tem = s.tem ∧ (setInst s i x).sage = s.sage ∧
    (setInst s i x).dillMem = s.dillMem ∧ (setInst s i x).bootSram = s.bootSram ∧ (setInst s i x).bootLock = s.bootLock ∧
    (setInst s i x).pushLen = s.pushLen ∧ (setInst s i x).bf = s.bf ∧ (setInst s i x).svc = s.svc ∧
    (setInst s i x).i3c = s.i3c ∧ (setInst s i x).halted = s.halted ∧ (setInst s i x).twdHeld = s.twdHeld ∧
    (setInst s i x).twdLate = s.twdLate ∧ (setInst s i x).twdNew = s.twdNew ∧ (setInst s i x).tapIr = s.tapIr ∧
    (setInst s i x).boundary = s.boundary ∧ (setInst s i x).token = s.token ∧ (setInst s i x).tamperDue = s.tamperDue ∧
    (setInst s i x).kslots = s.kslots ∧ (setInst s i x).ladder = s.ladder ∧ (setInst s i x).scrubDirty = s.scrubDirty ∧
    (setInst s i x).fwRec = s.fwRec ∧ (setInst s i x).jobs = s.jobs ∧ (setInst s i x).jobOrd = s.jobOrd ∧
    (setInst s i x).phases = s.phases ∧ (setInst s i x).ctxKey = s.ctxKey ∧ (setInst s i x).wrr = s.wrr ∧
    (setInst s i x).itu = s.itu ∧ (setInst s i x).prgs = s.prgs ∧ (setInst s i x).prgStale = s.prgStale ∧
    (setInst s i x).fqPhase = s.fqPhase ∧ (setInst s i x).issued = s.issued ∧ (setInst s i x).incarnation = s.incarnation ∧
    (setInst s i x).prgWait = s.prgWait ∧ (setInst s i x).aesBytes = s.aesBytes ∧ (setInst s i x).sides = s.sides ∧
    (setInst s i x).peers = s.peers ∧ (setInst s i x).topo = s.topo ∧ (setInst s i x).raReqs = s.raReqs ∧
    (setInst s i x).bulks = s.bulks ∧ (setInst s i x).evq = s.evq ∧ (setInst s i x).discOut = s.discOut ∧
    (setInst s i x).disc = s.disc ∧ (setInst s i x).isolated = s.isolated ∧ (setInst s i x).dups = s.dups ∧
    (setInst s i x).pci = s.pci ∧ (setInst s i x).vfEnable = s.vfEnable ∧ (setInst s i x).numVfs = s.numVfs ∧
    (setInst s i x).ariCap = s.ariCap ∧ (setInst s i x).msix = s.msix ∧ (setInst s i x).vecs = s.vecs ∧
    (setInst s i x).ringed = s.ringed ∧ (setInst s i x).coreLines = s.coreLines ∧ (∀ y, rget (setInst s i x) y = rget s y) ∧
    (∀ y, tget (setInst s i x) y = tget s y) ∧ (∀ y, port (setInst s i x) y = port s y) ∧
    (∀ y, frame (setInst s i x) y = frame s y) ∧ (∀ y, job? (setInst s i x) y = job? s y) ∧
    (∀ y, kslot (setInst s i x) y = kslot s y) ∧ (∀ y, side (setInst s i x) y = side s y) ∧
    (∀ y, peer (setInst s i x) y = peer s y) ∧ (∀ y, pciFn (setInst s i x) y = pciFn s y) ∧
    (∀ y z, msixEnt (setInst s i x) y z = msixEnt s y z) ∧ (∀ y, mval (setInst s i x) y = mval s y) ∧
    (∀ y, fuseRead (setInst s i x) y = fuseRead s y) ∧ (∀ y, fuseStrict (setInst s i x) y = fuseStrict s y) ∧
    (∀ y, counter (setInst s i x) y = counter s y) :=
  ⟨rfl, rfl, rfl, rfl, rfl, rfl, rfl, rfl, rfl, rfl, rfl, rfl, rfl, rfl, rfl, rfl, rfl, rfl, rfl, rfl, rfl, rfl, rfl, rfl, rfl,
  rfl, rfl, rfl, rfl, rfl, rfl, rfl, rfl, rfl, rfl, rfl, rfl, rfl, rfl, rfl, rfl, rfl, rfl, rfl, rfl, rfl, rfl, rfl, rfl, rfl,
  rfl, rfl, rfl, rfl, rfl, rfl, rfl, rfl, rfl, rfl, rfl, rfl, rfl, rfl, rfl, rfl, rfl, rfl, rfl, rfl, rfl, rfl, rfl, rfl, rfl,
  rfl, rfl, rfl, rfl, rfl, rfl, rfl, rfl, rfl, rfl, rfl, rfl, rfl, rfl, fun _ => rfl, fun _ => rfl, fun _ => rfl, fun _ => rfl,
  fun _ => rfl, fun _ => rfl, fun _ => rfl, fun _ => rfl, fun _ => rfl, fun _ _ => rfl, fun _ => rfl, fun _ => rfl, fun _ =>
  rfl, fun _ => rfl⟩

@[simp] theorem setSide_frame (s : State) (n : Nat) (x : Side) :
    (setSide s n x).pending = s.pending ∧ (setSide s n x).fresh = s.fresh ∧ (setSide s n x).out = s.out ∧
    (setSide s n x).part = s.part ∧ (setSide s n x).hw = s.hw ∧ (setSide s n x).hashTurn = s.hashTurn ∧
    (setSide s n x).flashLanes = s.flashLanes ∧ (setSide s n x).fuseU = s.fuseU ∧ (setSide s n x).lifeNew = s.lifeNew ∧
    (setSide s n x).rst = s.rst ∧ (setSide s n x).timers = s.timers ∧ (setSide s n x).regs = s.regs ∧
    (setSide s n x).rwoUsed = s.rwoUsed ∧ (setSide s n x).tbTime = s.tbTime ∧ (setSide s n x).tbLoss = s.tbLoss ∧
    (setSide s n x).tbLocked = s.tbLocked ∧ (setSide s n x).xinCmos = s.xinCmos ∧ (setSide s n x).sram = s.sram ∧
    (setSide s n x).ports = s.ports ∧ (setSide s n x).frames = s.frames ∧ (setSide s n x).writeBacks = s.writeBacks ∧
    (setSide s n x).domOff = s.domOff ∧ (setSide s n x).pwr = s.pwr ∧ (setSide s n x).dly = s.dly ∧
    (setSide s n x).instRst = s.instRst ∧ (setSide s n x).locked = s.locked ∧ (setSide s n x).meas = s.meas ∧
    (setSide s n x).cstOps = s.cstOps ∧ (setSide s n x).ctr = s.ctr ∧ (setSide s n x).torn = s.torn ∧
    (setSide s n x).ctrFailed = s.ctrFailed ∧ (setSide s n x).reconciling = s.reconciling ∧ (setSide s n x).fuseR = s.fuseR ∧
    (setSide s n x).fuseS = s.fuseS ∧ (setSide s n x).fuseSh = s.fuseSh ∧ (setSide s n x).fus = s.fus ∧
    (setSide s n x).pair = s.pair ∧ (setSide s n x).tem = s.tem ∧ (setSide s n x).sage = s.sage ∧
    (setSide s n x).dillMem = s.dillMem ∧ (setSide s n x).bootSram = s.bootSram ∧ (setSide s n x).bootLock = s.bootLock ∧
    (setSide s n x).pushLen = s.pushLen ∧ (setSide s n x).bf = s.bf ∧ (setSide s n x).svc = s.svc ∧
    (setSide s n x).i3c = s.i3c ∧ (setSide s n x).halted = s.halted ∧ (setSide s n x).twdHeld = s.twdHeld ∧
    (setSide s n x).twdLate = s.twdLate ∧ (setSide s n x).twdNew = s.twdNew ∧ (setSide s n x).tapIr = s.tapIr ∧
    (setSide s n x).boundary = s.boundary ∧ (setSide s n x).token = s.token ∧ (setSide s n x).tamperDue = s.tamperDue ∧
    (setSide s n x).kslots = s.kslots ∧ (setSide s n x).ladder = s.ladder ∧ (setSide s n x).scrubDirty = s.scrubDirty ∧
    (setSide s n x).fwRec = s.fwRec ∧ (setSide s n x).jobs = s.jobs ∧ (setSide s n x).jobOrd = s.jobOrd ∧
    (setSide s n x).phases = s.phases ∧ (setSide s n x).ctxKey = s.ctxKey ∧ (setSide s n x).wrr = s.wrr ∧
    (setSide s n x).insts = s.insts ∧ (setSide s n x).itu = s.itu ∧ (setSide s n x).prgs = s.prgs ∧
    (setSide s n x).prgStale = s.prgStale ∧ (setSide s n x).fqPhase = s.fqPhase ∧ (setSide s n x).issued = s.issued ∧
    (setSide s n x).incarnation = s.incarnation ∧ (setSide s n x).prgWait = s.prgWait ∧ (setSide s n x).aesBytes = s.aesBytes ∧
    (setSide s n x).peers = s.peers ∧ (setSide s n x).topo = s.topo ∧ (setSide s n x).raReqs = s.raReqs ∧
    (setSide s n x).bulks = s.bulks ∧ (setSide s n x).evq = s.evq ∧ (setSide s n x).discOut = s.discOut ∧
    (setSide s n x).disc = s.disc ∧ (setSide s n x).isolated = s.isolated ∧ (setSide s n x).dups = s.dups ∧
    (setSide s n x).pci = s.pci ∧ (setSide s n x).vfEnable = s.vfEnable ∧ (setSide s n x).numVfs = s.numVfs ∧
    (setSide s n x).ariCap = s.ariCap ∧ (setSide s n x).msix = s.msix ∧ (setSide s n x).vecs = s.vecs ∧
    (setSide s n x).ringed = s.ringed ∧ (setSide s n x).coreLines = s.coreLines ∧ (∀ y, rget (setSide s n x) y = rget s y) ∧
    (∀ y, tget (setSide s n x) y = tget s y) ∧ (∀ y, port (setSide s n x) y = port s y) ∧
    (∀ y, frame (setSide s n x) y = frame s y) ∧ (∀ y, job? (setSide s n x) y = job? s y) ∧
    (∀ y, kslot (setSide s n x) y = kslot s y) ∧ (∀ y, inst (setSide s n x) y = inst s y) ∧
    (∀ y, peer (setSide s n x) y = peer s y) ∧ (∀ y, pciFn (setSide s n x) y = pciFn s y) ∧
    (∀ y z, msixEnt (setSide s n x) y z = msixEnt s y z) ∧ (∀ y, mval (setSide s n x) y = mval s y) ∧
    (∀ y, fuseRead (setSide s n x) y = fuseRead s y) ∧ (∀ y, fuseStrict (setSide s n x) y = fuseStrict s y) ∧
    (∀ y, counter (setSide s n x) y = counter s y) :=
  ⟨rfl, rfl, rfl, rfl, rfl, rfl, rfl, rfl, rfl, rfl, rfl, rfl, rfl, rfl, rfl, rfl, rfl, rfl, rfl, rfl, rfl, rfl, rfl, rfl, rfl,
  rfl, rfl, rfl, rfl, rfl, rfl, rfl, rfl, rfl, rfl, rfl, rfl, rfl, rfl, rfl, rfl, rfl, rfl, rfl, rfl, rfl, rfl, rfl, rfl, rfl,
  rfl, rfl, rfl, rfl, rfl, rfl, rfl, rfl, rfl, rfl, rfl, rfl, rfl, rfl, rfl, rfl, rfl, rfl, rfl, rfl, rfl, rfl, rfl, rfl, rfl,
  rfl, rfl, rfl, rfl, rfl, rfl, rfl, rfl, rfl, rfl, rfl, rfl, rfl, rfl, fun _ => rfl, fun _ => rfl, fun _ => rfl, fun _ => rfl,
  fun _ => rfl, fun _ => rfl, fun _ => rfl, fun _ => rfl, fun _ => rfl, fun _ _ => rfl, fun _ => rfl, fun _ => rfl, fun _ =>
  rfl, fun _ => rfl⟩

@[simp] theorem setPeer_frame (s : State) (n : Nat) (x : Peer) :
    (setPeer s n x).pending = s.pending ∧ (setPeer s n x).fresh = s.fresh ∧ (setPeer s n x).out = s.out ∧
    (setPeer s n x).part = s.part ∧ (setPeer s n x).hw = s.hw ∧ (setPeer s n x).hashTurn = s.hashTurn ∧
    (setPeer s n x).flashLanes = s.flashLanes ∧ (setPeer s n x).fuseU = s.fuseU ∧ (setPeer s n x).lifeNew = s.lifeNew ∧
    (setPeer s n x).rst = s.rst ∧ (setPeer s n x).timers = s.timers ∧ (setPeer s n x).regs = s.regs ∧
    (setPeer s n x).rwoUsed = s.rwoUsed ∧ (setPeer s n x).tbTime = s.tbTime ∧ (setPeer s n x).tbLoss = s.tbLoss ∧
    (setPeer s n x).tbLocked = s.tbLocked ∧ (setPeer s n x).xinCmos = s.xinCmos ∧ (setPeer s n x).sram = s.sram ∧
    (setPeer s n x).ports = s.ports ∧ (setPeer s n x).frames = s.frames ∧ (setPeer s n x).writeBacks = s.writeBacks ∧
    (setPeer s n x).domOff = s.domOff ∧ (setPeer s n x).pwr = s.pwr ∧ (setPeer s n x).dly = s.dly ∧
    (setPeer s n x).instRst = s.instRst ∧ (setPeer s n x).locked = s.locked ∧ (setPeer s n x).meas = s.meas ∧
    (setPeer s n x).cstOps = s.cstOps ∧ (setPeer s n x).ctr = s.ctr ∧ (setPeer s n x).torn = s.torn ∧
    (setPeer s n x).ctrFailed = s.ctrFailed ∧ (setPeer s n x).reconciling = s.reconciling ∧ (setPeer s n x).fuseR = s.fuseR ∧
    (setPeer s n x).fuseS = s.fuseS ∧ (setPeer s n x).fuseSh = s.fuseSh ∧ (setPeer s n x).fus = s.fus ∧
    (setPeer s n x).pair = s.pair ∧ (setPeer s n x).tem = s.tem ∧ (setPeer s n x).sage = s.sage ∧
    (setPeer s n x).dillMem = s.dillMem ∧ (setPeer s n x).bootSram = s.bootSram ∧ (setPeer s n x).bootLock = s.bootLock ∧
    (setPeer s n x).pushLen = s.pushLen ∧ (setPeer s n x).bf = s.bf ∧ (setPeer s n x).svc = s.svc ∧
    (setPeer s n x).i3c = s.i3c ∧ (setPeer s n x).halted = s.halted ∧ (setPeer s n x).twdHeld = s.twdHeld ∧
    (setPeer s n x).twdLate = s.twdLate ∧ (setPeer s n x).twdNew = s.twdNew ∧ (setPeer s n x).tapIr = s.tapIr ∧
    (setPeer s n x).boundary = s.boundary ∧ (setPeer s n x).token = s.token ∧ (setPeer s n x).tamperDue = s.tamperDue ∧
    (setPeer s n x).kslots = s.kslots ∧ (setPeer s n x).ladder = s.ladder ∧ (setPeer s n x).scrubDirty = s.scrubDirty ∧
    (setPeer s n x).fwRec = s.fwRec ∧ (setPeer s n x).jobs = s.jobs ∧ (setPeer s n x).jobOrd = s.jobOrd ∧
    (setPeer s n x).phases = s.phases ∧ (setPeer s n x).ctxKey = s.ctxKey ∧ (setPeer s n x).wrr = s.wrr ∧
    (setPeer s n x).insts = s.insts ∧ (setPeer s n x).itu = s.itu ∧ (setPeer s n x).prgs = s.prgs ∧
    (setPeer s n x).prgStale = s.prgStale ∧ (setPeer s n x).fqPhase = s.fqPhase ∧ (setPeer s n x).issued = s.issued ∧
    (setPeer s n x).incarnation = s.incarnation ∧ (setPeer s n x).prgWait = s.prgWait ∧ (setPeer s n x).aesBytes = s.aesBytes ∧
    (setPeer s n x).sides = s.sides ∧ (setPeer s n x).topo = s.topo ∧ (setPeer s n x).raReqs = s.raReqs ∧
    (setPeer s n x).bulks = s.bulks ∧ (setPeer s n x).evq = s.evq ∧ (setPeer s n x).discOut = s.discOut ∧
    (setPeer s n x).disc = s.disc ∧ (setPeer s n x).isolated = s.isolated ∧ (setPeer s n x).dups = s.dups ∧
    (setPeer s n x).pci = s.pci ∧ (setPeer s n x).vfEnable = s.vfEnable ∧ (setPeer s n x).numVfs = s.numVfs ∧
    (setPeer s n x).ariCap = s.ariCap ∧ (setPeer s n x).msix = s.msix ∧ (setPeer s n x).vecs = s.vecs ∧
    (setPeer s n x).ringed = s.ringed ∧ (setPeer s n x).coreLines = s.coreLines ∧ (∀ y, rget (setPeer s n x) y = rget s y) ∧
    (∀ y, tget (setPeer s n x) y = tget s y) ∧ (∀ y, port (setPeer s n x) y = port s y) ∧
    (∀ y, frame (setPeer s n x) y = frame s y) ∧ (∀ y, job? (setPeer s n x) y = job? s y) ∧
    (∀ y, kslot (setPeer s n x) y = kslot s y) ∧ (∀ y, inst (setPeer s n x) y = inst s y) ∧
    (∀ y, side (setPeer s n x) y = side s y) ∧ (∀ y, pciFn (setPeer s n x) y = pciFn s y) ∧
    (∀ y z, msixEnt (setPeer s n x) y z = msixEnt s y z) ∧ (∀ y, mval (setPeer s n x) y = mval s y) ∧
    (∀ y, fuseRead (setPeer s n x) y = fuseRead s y) ∧ (∀ y, fuseStrict (setPeer s n x) y = fuseStrict s y) ∧
    (∀ y, counter (setPeer s n x) y = counter s y) :=
  ⟨rfl, rfl, rfl, rfl, rfl, rfl, rfl, rfl, rfl, rfl, rfl, rfl, rfl, rfl, rfl, rfl, rfl, rfl, rfl, rfl, rfl, rfl, rfl, rfl, rfl,
  rfl, rfl, rfl, rfl, rfl, rfl, rfl, rfl, rfl, rfl, rfl, rfl, rfl, rfl, rfl, rfl, rfl, rfl, rfl, rfl, rfl, rfl, rfl, rfl, rfl,
  rfl, rfl, rfl, rfl, rfl, rfl, rfl, rfl, rfl, rfl, rfl, rfl, rfl, rfl, rfl, rfl, rfl, rfl, rfl, rfl, rfl, rfl, rfl, rfl, rfl,
  rfl, rfl, rfl, rfl, rfl, rfl, rfl, rfl, rfl, rfl, rfl, rfl, rfl, rfl, fun _ => rfl, fun _ => rfl, fun _ => rfl, fun _ => rfl,
  fun _ => rfl, fun _ => rfl, fun _ => rfl, fun _ => rfl, fun _ => rfl, fun _ _ => rfl, fun _ => rfl, fun _ => rfl, fun _ =>
  rfl, fun _ => rfl⟩

@[simp] theorem setPciFn_frame (s : State) (f : Nat) (x : PciFn) :
    (setPciFn s f x).pending = s.pending ∧ (setPciFn s f x).fresh = s.fresh ∧ (setPciFn s f x).out = s.out ∧
    (setPciFn s f x).part = s.part ∧ (setPciFn s f x).hw = s.hw ∧ (setPciFn s f x).hashTurn = s.hashTurn ∧
    (setPciFn s f x).flashLanes = s.flashLanes ∧ (setPciFn s f x).fuseU = s.fuseU ∧ (setPciFn s f x).lifeNew = s.lifeNew ∧
    (setPciFn s f x).rst = s.rst ∧ (setPciFn s f x).timers = s.timers ∧ (setPciFn s f x).regs = s.regs ∧
    (setPciFn s f x).rwoUsed = s.rwoUsed ∧ (setPciFn s f x).tbTime = s.tbTime ∧ (setPciFn s f x).tbLoss = s.tbLoss ∧
    (setPciFn s f x).tbLocked = s.tbLocked ∧ (setPciFn s f x).xinCmos = s.xinCmos ∧ (setPciFn s f x).sram = s.sram ∧
    (setPciFn s f x).ports = s.ports ∧ (setPciFn s f x).frames = s.frames ∧ (setPciFn s f x).writeBacks = s.writeBacks ∧
    (setPciFn s f x).domOff = s.domOff ∧ (setPciFn s f x).pwr = s.pwr ∧ (setPciFn s f x).dly = s.dly ∧
    (setPciFn s f x).instRst = s.instRst ∧ (setPciFn s f x).locked = s.locked ∧ (setPciFn s f x).meas = s.meas ∧
    (setPciFn s f x).cstOps = s.cstOps ∧ (setPciFn s f x).ctr = s.ctr ∧ (setPciFn s f x).torn = s.torn ∧
    (setPciFn s f x).ctrFailed = s.ctrFailed ∧ (setPciFn s f x).reconciling = s.reconciling ∧
    (setPciFn s f x).fuseR = s.fuseR ∧ (setPciFn s f x).fuseS = s.fuseS ∧ (setPciFn s f x).fuseSh = s.fuseSh ∧
    (setPciFn s f x).fus = s.fus ∧ (setPciFn s f x).pair = s.pair ∧ (setPciFn s f x).tem = s.tem ∧
    (setPciFn s f x).sage = s.sage ∧ (setPciFn s f x).dillMem = s.dillMem ∧ (setPciFn s f x).bootSram = s.bootSram ∧
    (setPciFn s f x).bootLock = s.bootLock ∧ (setPciFn s f x).pushLen = s.pushLen ∧ (setPciFn s f x).bf = s.bf ∧
    (setPciFn s f x).svc = s.svc ∧ (setPciFn s f x).i3c = s.i3c ∧ (setPciFn s f x).halted = s.halted ∧
    (setPciFn s f x).twdHeld = s.twdHeld ∧ (setPciFn s f x).twdLate = s.twdLate ∧ (setPciFn s f x).twdNew = s.twdNew ∧
    (setPciFn s f x).tapIr = s.tapIr ∧ (setPciFn s f x).boundary = s.boundary ∧ (setPciFn s f x).token = s.token ∧
    (setPciFn s f x).tamperDue = s.tamperDue ∧ (setPciFn s f x).kslots = s.kslots ∧ (setPciFn s f x).ladder = s.ladder ∧
    (setPciFn s f x).scrubDirty = s.scrubDirty ∧ (setPciFn s f x).fwRec = s.fwRec ∧ (setPciFn s f x).jobs = s.jobs ∧
    (setPciFn s f x).jobOrd = s.jobOrd ∧ (setPciFn s f x).phases = s.phases ∧ (setPciFn s f x).ctxKey = s.ctxKey ∧
    (setPciFn s f x).wrr = s.wrr ∧ (setPciFn s f x).insts = s.insts ∧ (setPciFn s f x).itu = s.itu ∧
    (setPciFn s f x).prgs = s.prgs ∧ (setPciFn s f x).prgStale = s.prgStale ∧ (setPciFn s f x).fqPhase = s.fqPhase ∧
    (setPciFn s f x).issued = s.issued ∧ (setPciFn s f x).incarnation = s.incarnation ∧ (setPciFn s f x).prgWait = s.prgWait ∧
    (setPciFn s f x).aesBytes = s.aesBytes ∧ (setPciFn s f x).sides = s.sides ∧ (setPciFn s f x).peers = s.peers ∧
    (setPciFn s f x).topo = s.topo ∧ (setPciFn s f x).raReqs = s.raReqs ∧ (setPciFn s f x).bulks = s.bulks ∧
    (setPciFn s f x).evq = s.evq ∧ (setPciFn s f x).discOut = s.discOut ∧ (setPciFn s f x).disc = s.disc ∧
    (setPciFn s f x).isolated = s.isolated ∧ (setPciFn s f x).dups = s.dups ∧ (setPciFn s f x).vfEnable = s.vfEnable ∧
    (setPciFn s f x).numVfs = s.numVfs ∧ (setPciFn s f x).ariCap = s.ariCap ∧ (setPciFn s f x).msix = s.msix ∧
    (setPciFn s f x).vecs = s.vecs ∧ (setPciFn s f x).ringed = s.ringed ∧ (setPciFn s f x).coreLines = s.coreLines ∧
    (∀ y, rget (setPciFn s f x) y = rget s y) ∧ (∀ y, tget (setPciFn s f x) y = tget s y) ∧
    (∀ y, port (setPciFn s f x) y = port s y) ∧ (∀ y, frame (setPciFn s f x) y = frame s y) ∧
    (∀ y, job? (setPciFn s f x) y = job? s y) ∧ (∀ y, kslot (setPciFn s f x) y = kslot s y) ∧
    (∀ y, inst (setPciFn s f x) y = inst s y) ∧ (∀ y, side (setPciFn s f x) y = side s y) ∧
    (∀ y, peer (setPciFn s f x) y = peer s y) ∧ (∀ y z, msixEnt (setPciFn s f x) y z = msixEnt s y z) ∧
    (∀ y, mval (setPciFn s f x) y = mval s y) ∧ (∀ y, fuseRead (setPciFn s f x) y = fuseRead s y) ∧
    (∀ y, fuseStrict (setPciFn s f x) y = fuseStrict s y) ∧ (∀ y, counter (setPciFn s f x) y = counter s y) :=
  ⟨rfl, rfl, rfl, rfl, rfl, rfl, rfl, rfl, rfl, rfl, rfl, rfl, rfl, rfl, rfl, rfl, rfl, rfl, rfl, rfl, rfl, rfl, rfl, rfl, rfl,
  rfl, rfl, rfl, rfl, rfl, rfl, rfl, rfl, rfl, rfl, rfl, rfl, rfl, rfl, rfl, rfl, rfl, rfl, rfl, rfl, rfl, rfl, rfl, rfl, rfl,
  rfl, rfl, rfl, rfl, rfl, rfl, rfl, rfl, rfl, rfl, rfl, rfl, rfl, rfl, rfl, rfl, rfl, rfl, rfl, rfl, rfl, rfl, rfl, rfl, rfl,
  rfl, rfl, rfl, rfl, rfl, rfl, rfl, rfl, rfl, rfl, rfl, rfl, rfl, rfl, fun _ => rfl, fun _ => rfl, fun _ => rfl, fun _ => rfl,
  fun _ => rfl, fun _ => rfl, fun _ => rfl, fun _ => rfl, fun _ => rfl, fun _ _ => rfl, fun _ => rfl, fun _ => rfl, fun _ =>
  rfl, fun _ => rfl⟩

@[simp] theorem setMsix_frame (s : State) (f v : Nat) (x : MsixEnt) :
    (setMsix s f v x).pending = s.pending ∧ (setMsix s f v x).fresh = s.fresh ∧ (setMsix s f v x).out = s.out ∧
    (setMsix s f v x).part = s.part ∧ (setMsix s f v x).hw = s.hw ∧ (setMsix s f v x).hashTurn = s.hashTurn ∧
    (setMsix s f v x).flashLanes = s.flashLanes ∧ (setMsix s f v x).fuseU = s.fuseU ∧ (setMsix s f v x).lifeNew = s.lifeNew ∧
    (setMsix s f v x).rst = s.rst ∧ (setMsix s f v x).timers = s.timers ∧ (setMsix s f v x).regs = s.regs ∧
    (setMsix s f v x).rwoUsed = s.rwoUsed ∧ (setMsix s f v x).tbTime = s.tbTime ∧ (setMsix s f v x).tbLoss = s.tbLoss ∧
    (setMsix s f v x).tbLocked = s.tbLocked ∧ (setMsix s f v x).xinCmos = s.xinCmos ∧ (setMsix s f v x).sram = s.sram ∧
    (setMsix s f v x).ports = s.ports ∧ (setMsix s f v x).frames = s.frames ∧ (setMsix s f v x).writeBacks = s.writeBacks ∧
    (setMsix s f v x).domOff = s.domOff ∧ (setMsix s f v x).pwr = s.pwr ∧ (setMsix s f v x).dly = s.dly ∧
    (setMsix s f v x).instRst = s.instRst ∧ (setMsix s f v x).locked = s.locked ∧ (setMsix s f v x).meas = s.meas ∧
    (setMsix s f v x).cstOps = s.cstOps ∧ (setMsix s f v x).ctr = s.ctr ∧ (setMsix s f v x).torn = s.torn ∧
    (setMsix s f v x).ctrFailed = s.ctrFailed ∧ (setMsix s f v x).reconciling = s.reconciling ∧
    (setMsix s f v x).fuseR = s.fuseR ∧ (setMsix s f v x).fuseS = s.fuseS ∧ (setMsix s f v x).fuseSh = s.fuseSh ∧
    (setMsix s f v x).fus = s.fus ∧ (setMsix s f v x).pair = s.pair ∧ (setMsix s f v x).tem = s.tem ∧
    (setMsix s f v x).sage = s.sage ∧ (setMsix s f v x).dillMem = s.dillMem ∧ (setMsix s f v x).bootSram = s.bootSram ∧
    (setMsix s f v x).bootLock = s.bootLock ∧ (setMsix s f v x).pushLen = s.pushLen ∧ (setMsix s f v x).bf = s.bf ∧
    (setMsix s f v x).svc = s.svc ∧ (setMsix s f v x).i3c = s.i3c ∧ (setMsix s f v x).halted = s.halted ∧
    (setMsix s f v x).twdHeld = s.twdHeld ∧ (setMsix s f v x).twdLate = s.twdLate ∧ (setMsix s f v x).twdNew = s.twdNew ∧
    (setMsix s f v x).tapIr = s.tapIr ∧ (setMsix s f v x).boundary = s.boundary ∧ (setMsix s f v x).token = s.token ∧
    (setMsix s f v x).tamperDue = s.tamperDue ∧ (setMsix s f v x).kslots = s.kslots ∧ (setMsix s f v x).ladder = s.ladder ∧
    (setMsix s f v x).scrubDirty = s.scrubDirty ∧ (setMsix s f v x).fwRec = s.fwRec ∧ (setMsix s f v x).jobs = s.jobs ∧
    (setMsix s f v x).jobOrd = s.jobOrd ∧ (setMsix s f v x).phases = s.phases ∧ (setMsix s f v x).ctxKey = s.ctxKey ∧
    (setMsix s f v x).wrr = s.wrr ∧ (setMsix s f v x).insts = s.insts ∧ (setMsix s f v x).itu = s.itu ∧
    (setMsix s f v x).prgs = s.prgs ∧ (setMsix s f v x).prgStale = s.prgStale ∧ (setMsix s f v x).fqPhase = s.fqPhase ∧
    (setMsix s f v x).issued = s.issued ∧ (setMsix s f v x).incarnation = s.incarnation ∧
    (setMsix s f v x).prgWait = s.prgWait ∧ (setMsix s f v x).aesBytes = s.aesBytes ∧ (setMsix s f v x).sides = s.sides ∧
    (setMsix s f v x).peers = s.peers ∧ (setMsix s f v x).topo = s.topo ∧ (setMsix s f v x).raReqs = s.raReqs ∧
    (setMsix s f v x).bulks = s.bulks ∧ (setMsix s f v x).evq = s.evq ∧ (setMsix s f v x).discOut = s.discOut ∧
    (setMsix s f v x).disc = s.disc ∧ (setMsix s f v x).isolated = s.isolated ∧ (setMsix s f v x).dups = s.dups ∧
    (setMsix s f v x).pci = s.pci ∧ (setMsix s f v x).vfEnable = s.vfEnable ∧ (setMsix s f v x).numVfs = s.numVfs ∧
    (setMsix s f v x).ariCap = s.ariCap ∧ (setMsix s f v x).vecs = s.vecs ∧ (setMsix s f v x).ringed = s.ringed ∧
    (setMsix s f v x).coreLines = s.coreLines ∧ (∀ y, rget (setMsix s f v x) y = rget s y) ∧
    (∀ y, tget (setMsix s f v x) y = tget s y) ∧ (∀ y, port (setMsix s f v x) y = port s y) ∧
    (∀ y, frame (setMsix s f v x) y = frame s y) ∧ (∀ y, job? (setMsix s f v x) y = job? s y) ∧
    (∀ y, kslot (setMsix s f v x) y = kslot s y) ∧ (∀ y, inst (setMsix s f v x) y = inst s y) ∧
    (∀ y, side (setMsix s f v x) y = side s y) ∧ (∀ y, peer (setMsix s f v x) y = peer s y) ∧
    (∀ y, pciFn (setMsix s f v x) y = pciFn s y) ∧ (∀ y, mval (setMsix s f v x) y = mval s y) ∧
    (∀ y, fuseRead (setMsix s f v x) y = fuseRead s y) ∧ (∀ y, fuseStrict (setMsix s f v x) y = fuseStrict s y) ∧
    (∀ y, counter (setMsix s f v x) y = counter s y) :=
  ⟨rfl, rfl, rfl, rfl, rfl, rfl, rfl, rfl, rfl, rfl, rfl, rfl, rfl, rfl, rfl, rfl, rfl, rfl, rfl, rfl, rfl, rfl, rfl, rfl, rfl,
  rfl, rfl, rfl, rfl, rfl, rfl, rfl, rfl, rfl, rfl, rfl, rfl, rfl, rfl, rfl, rfl, rfl, rfl, rfl, rfl, rfl, rfl, rfl, rfl, rfl,
  rfl, rfl, rfl, rfl, rfl, rfl, rfl, rfl, rfl, rfl, rfl, rfl, rfl, rfl, rfl, rfl, rfl, rfl, rfl, rfl, rfl, rfl, rfl, rfl, rfl,
  rfl, rfl, rfl, rfl, rfl, rfl, rfl, rfl, rfl, rfl, rfl, rfl, rfl, rfl, fun _ => rfl, fun _ => rfl, fun _ => rfl, fun _ => rfl,
  fun _ => rfl, fun _ => rfl, fun _ => rfl, fun _ => rfl, fun _ => rfl, fun _ => rfl, fun _ => rfl, fun _ => rfl, fun _ => rfl,
  fun _ => rfl⟩

@[simp] theorem extend_frame (s : State) (i : Nat) (r : Bytes) :
    (extend s i r).pending = s.pending ∧ (extend s i r).fresh = s.fresh ∧ (extend s i r).out = s.out ∧
    (extend s i r).part = s.part ∧ (extend s i r).hw = s.hw ∧ (extend s i r).hashTurn = s.hashTurn ∧
    (extend s i r).flashLanes = s.flashLanes ∧ (extend s i r).fuseU = s.fuseU ∧ (extend s i r).lifeNew = s.lifeNew ∧
    (extend s i r).rst = s.rst ∧ (extend s i r).timers = s.timers ∧ (extend s i r).regs = s.regs ∧
    (extend s i r).rwoUsed = s.rwoUsed ∧ (extend s i r).tbTime = s.tbTime ∧ (extend s i r).tbLoss = s.tbLoss ∧
    (extend s i r).tbLocked = s.tbLocked ∧ (extend s i r).xinCmos = s.xinCmos ∧ (extend s i r).sram = s.sram ∧
    (extend s i r).ports = s.ports ∧ (extend s i r).frames = s.frames ∧ (extend s i r).writeBacks = s.writeBacks ∧
    (extend s i r).domOff = s.domOff ∧ (extend s i r).pwr = s.pwr ∧ (extend s i r).dly = s.dly ∧
    (extend s i r).instRst = s.instRst ∧ (extend s i r).locked = s.locked ∧ (extend s i r).cstOps = s.cstOps ∧
    (extend s i r).ctr = s.ctr ∧ (extend s i r).torn = s.torn ∧ (extend s i r).ctrFailed = s.ctrFailed ∧
    (extend s i r).reconciling = s.reconciling ∧ (extend s i r).fuseR = s.fuseR ∧ (extend s i r).fuseS = s.fuseS ∧
    (extend s i r).fuseSh = s.fuseSh ∧ (extend s i r).fus = s.fus ∧ (extend s i r).pair = s.pair ∧ (extend s i r).tem = s.tem ∧
    (extend s i r).sage = s.sage ∧ (extend s i r).dillMem = s.dillMem ∧ (extend s i r).bootSram = s.bootSram ∧
    (extend s i r).bootLock = s.bootLock ∧ (extend s i r).pushLen = s.pushLen ∧ (extend s i r).bf = s.bf ∧
    (extend s i r).svc = s.svc ∧ (extend s i r).i3c = s.i3c ∧ (extend s i r).halted = s.halted ∧
    (extend s i r).twdHeld = s.twdHeld ∧ (extend s i r).twdLate = s.twdLate ∧ (extend s i r).twdNew = s.twdNew ∧
    (extend s i r).tapIr = s.tapIr ∧ (extend s i r).boundary = s.boundary ∧ (extend s i r).token = s.token ∧
    (extend s i r).tamperDue = s.tamperDue ∧ (extend s i r).kslots = s.kslots ∧ (extend s i r).ladder = s.ladder ∧
    (extend s i r).scrubDirty = s.scrubDirty ∧ (extend s i r).fwRec = s.fwRec ∧ (extend s i r).jobs = s.jobs ∧
    (extend s i r).jobOrd = s.jobOrd ∧ (extend s i r).phases = s.phases ∧ (extend s i r).ctxKey = s.ctxKey ∧
    (extend s i r).wrr = s.wrr ∧ (extend s i r).insts = s.insts ∧ (extend s i r).itu = s.itu ∧ (extend s i r).prgs = s.prgs ∧
    (extend s i r).prgStale = s.prgStale ∧ (extend s i r).fqPhase = s.fqPhase ∧ (extend s i r).issued = s.issued ∧
    (extend s i r).incarnation = s.incarnation ∧ (extend s i r).prgWait = s.prgWait ∧ (extend s i r).aesBytes = s.aesBytes ∧
    (extend s i r).sides = s.sides ∧ (extend s i r).peers = s.peers ∧ (extend s i r).topo = s.topo ∧
    (extend s i r).raReqs = s.raReqs ∧ (extend s i r).bulks = s.bulks ∧ (extend s i r).evq = s.evq ∧
    (extend s i r).discOut = s.discOut ∧ (extend s i r).disc = s.disc ∧ (extend s i r).isolated = s.isolated ∧
    (extend s i r).dups = s.dups ∧ (extend s i r).pci = s.pci ∧ (extend s i r).vfEnable = s.vfEnable ∧
    (extend s i r).numVfs = s.numVfs ∧ (extend s i r).ariCap = s.ariCap ∧ (extend s i r).msix = s.msix ∧
    (extend s i r).vecs = s.vecs ∧ (extend s i r).ringed = s.ringed ∧ (extend s i r).coreLines = s.coreLines ∧
    (∀ y, rget (extend s i r) y = rget s y) ∧ (∀ y, tget (extend s i r) y = tget s y) ∧
    (∀ y, port (extend s i r) y = port s y) ∧ (∀ y, frame (extend s i r) y = frame s y) ∧
    (∀ y, job? (extend s i r) y = job? s y) ∧ (∀ y, kslot (extend s i r) y = kslot s y) ∧
    (∀ y, inst (extend s i r) y = inst s y) ∧ (∀ y, side (extend s i r) y = side s y) ∧
    (∀ y, peer (extend s i r) y = peer s y) ∧ (∀ y, pciFn (extend s i r) y = pciFn s y) ∧
    (∀ y z, msixEnt (extend s i r) y z = msixEnt s y z) ∧ (∀ y, fuseRead (extend s i r) y = fuseRead s y) ∧
    (∀ y, fuseStrict (extend s i r) y = fuseStrict s y) ∧ (∀ y, counter (extend s i r) y = counter s y) :=
  ⟨rfl, rfl, rfl, rfl, rfl, rfl, rfl, rfl, rfl, rfl, rfl, rfl, rfl, rfl, rfl, rfl, rfl, rfl, rfl, rfl, rfl, rfl, rfl, rfl, rfl,
  rfl, rfl, rfl, rfl, rfl, rfl, rfl, rfl, rfl, rfl, rfl, rfl, rfl, rfl, rfl, rfl, rfl, rfl, rfl, rfl, rfl, rfl, rfl, rfl, rfl,
  rfl, rfl, rfl, rfl, rfl, rfl, rfl, rfl, rfl, rfl, rfl, rfl, rfl, rfl, rfl, rfl, rfl, rfl, rfl, rfl, rfl, rfl, rfl, rfl, rfl,
  rfl, rfl, rfl, rfl, rfl, rfl, rfl, rfl, rfl, rfl, rfl, rfl, rfl, rfl, fun _ => rfl, fun _ => rfl, fun _ => rfl, fun _ => rfl,
  fun _ => rfl, fun _ => rfl, fun _ => rfl, fun _ => rfl, fun _ => rfl, fun _ => rfl, fun _ _ => rfl, fun _ => rfl, fun _ =>
  rfl, fun _ => rfl⟩

@[simp] theorem setFuse_frame (s : State) (w : Nat) (r t : Word) :
    (setFuse s w r t).pending = s.pending ∧ (setFuse s w r t).fresh = s.fresh ∧ (setFuse s w r t).out = s.out ∧
    (setFuse s w r t).part = s.part ∧ (setFuse s w r t).hw = s.hw ∧ (setFuse s w r t).hashTurn = s.hashTurn ∧
    (setFuse s w r t).flashLanes = s.flashLanes ∧ (setFuse s w r t).fuseU = s.fuseU ∧ (setFuse s w r t).lifeNew = s.lifeNew ∧
    (setFuse s w r t).rst = s.rst ∧ (setFuse s w r t).timers = s.timers ∧ (setFuse s w r t).regs = s.regs ∧
    (setFuse s w r t).rwoUsed = s.rwoUsed ∧ (setFuse s w r t).tbTime = s.tbTime ∧ (setFuse s w r t).tbLoss = s.tbLoss ∧
    (setFuse s w r t).tbLocked = s.tbLocked ∧ (setFuse s w r t).xinCmos = s.xinCmos ∧ (setFuse s w r t).sram = s.sram ∧
    (setFuse s w r t).ports = s.ports ∧ (setFuse s w r t).frames = s.frames ∧ (setFuse s w r t).writeBacks = s.writeBacks ∧
    (setFuse s w r t).domOff = s.domOff ∧ (setFuse s w r t).pwr = s.pwr ∧ (setFuse s w r t).dly = s.dly ∧
    (setFuse s w r t).instRst = s.instRst ∧ (setFuse s w r t).locked = s.locked ∧ (setFuse s w r t).meas = s.meas ∧
    (setFuse s w r t).cstOps = s.cstOps ∧ (setFuse s w r t).ctr = s.ctr ∧ (setFuse s w r t).torn = s.torn ∧
    (setFuse s w r t).ctrFailed = s.ctrFailed ∧ (setFuse s w r t).reconciling = s.reconciling ∧
    (setFuse s w r t).fuseSh = s.fuseSh ∧ (setFuse s w r t).fus = s.fus ∧ (setFuse s w r t).pair = s.pair ∧
    (setFuse s w r t).tem = s.tem ∧ (setFuse s w r t).sage = s.sage ∧ (setFuse s w r t).dillMem = s.dillMem ∧
    (setFuse s w r t).bootSram = s.bootSram ∧ (setFuse s w r t).bootLock = s.bootLock ∧ (setFuse s w r t).pushLen = s.pushLen ∧
    (setFuse s w r t).bf = s.bf ∧ (setFuse s w r t).svc = s.svc ∧ (setFuse s w r t).i3c = s.i3c ∧
    (setFuse s w r t).halted = s.halted ∧ (setFuse s w r t).twdHeld = s.twdHeld ∧ (setFuse s w r t).twdLate = s.twdLate ∧
    (setFuse s w r t).twdNew = s.twdNew ∧ (setFuse s w r t).tapIr = s.tapIr ∧ (setFuse s w r t).boundary = s.boundary ∧
    (setFuse s w r t).token = s.token ∧ (setFuse s w r t).tamperDue = s.tamperDue ∧ (setFuse s w r t).kslots = s.kslots ∧
    (setFuse s w r t).ladder = s.ladder ∧ (setFuse s w r t).scrubDirty = s.scrubDirty ∧ (setFuse s w r t).fwRec = s.fwRec ∧
    (setFuse s w r t).jobs = s.jobs ∧ (setFuse s w r t).jobOrd = s.jobOrd ∧ (setFuse s w r t).phases = s.phases ∧
    (setFuse s w r t).ctxKey = s.ctxKey ∧ (setFuse s w r t).wrr = s.wrr ∧ (setFuse s w r t).insts = s.insts ∧
    (setFuse s w r t).itu = s.itu ∧ (setFuse s w r t).prgs = s.prgs ∧ (setFuse s w r t).prgStale = s.prgStale ∧
    (setFuse s w r t).fqPhase = s.fqPhase ∧ (setFuse s w r t).issued = s.issued ∧
    (setFuse s w r t).incarnation = s.incarnation ∧ (setFuse s w r t).prgWait = s.prgWait ∧
    (setFuse s w r t).aesBytes = s.aesBytes ∧ (setFuse s w r t).sides = s.sides ∧ (setFuse s w r t).peers = s.peers ∧
    (setFuse s w r t).topo = s.topo ∧ (setFuse s w r t).raReqs = s.raReqs ∧ (setFuse s w r t).bulks = s.bulks ∧
    (setFuse s w r t).evq = s.evq ∧ (setFuse s w r t).discOut = s.discOut ∧ (setFuse s w r t).disc = s.disc ∧
    (setFuse s w r t).isolated = s.isolated ∧ (setFuse s w r t).dups = s.dups ∧ (setFuse s w r t).pci = s.pci ∧
    (setFuse s w r t).vfEnable = s.vfEnable ∧ (setFuse s w r t).numVfs = s.numVfs ∧ (setFuse s w r t).ariCap = s.ariCap ∧
    (setFuse s w r t).msix = s.msix ∧ (setFuse s w r t).vecs = s.vecs ∧ (setFuse s w r t).ringed = s.ringed ∧
    (setFuse s w r t).coreLines = s.coreLines ∧ (∀ y, rget (setFuse s w r t) y = rget s y) ∧
    (∀ y, tget (setFuse s w r t) y = tget s y) ∧ (∀ y, port (setFuse s w r t) y = port s y) ∧
    (∀ y, frame (setFuse s w r t) y = frame s y) ∧ (∀ y, job? (setFuse s w r t) y = job? s y) ∧
    (∀ y, kslot (setFuse s w r t) y = kslot s y) ∧ (∀ y, inst (setFuse s w r t) y = inst s y) ∧
    (∀ y, side (setFuse s w r t) y = side s y) ∧ (∀ y, peer (setFuse s w r t) y = peer s y) ∧
    (∀ y, pciFn (setFuse s w r t) y = pciFn s y) ∧ (∀ y z, msixEnt (setFuse s w r t) y z = msixEnt s y z) ∧
    (∀ y, mval (setFuse s w r t) y = mval s y) ∧ (∀ y, counter (setFuse s w r t) y = counter s y) :=
  ⟨rfl, rfl, rfl, rfl, rfl, rfl, rfl, rfl, rfl, rfl, rfl, rfl, rfl, rfl, rfl, rfl, rfl, rfl, rfl, rfl, rfl, rfl, rfl, rfl, rfl,
  rfl, rfl, rfl, rfl, rfl, rfl, rfl, rfl, rfl, rfl, rfl, rfl, rfl, rfl, rfl, rfl, rfl, rfl, rfl, rfl, rfl, rfl, rfl, rfl, rfl,
  rfl, rfl, rfl, rfl, rfl, rfl, rfl, rfl, rfl, rfl, rfl, rfl, rfl, rfl, rfl, rfl, rfl, rfl, rfl, rfl, rfl, rfl, rfl, rfl, rfl,
  rfl, rfl, rfl, rfl, rfl, rfl, rfl, rfl, rfl, rfl, rfl, rfl, rfl, fun _ => rfl, fun _ => rfl, fun _ => rfl, fun _ => rfl, fun _
  => rfl, fun _ => rfl, fun _ => rfl, fun _ => rfl, fun _ => rfl, fun _ => rfl, fun _ _ => rfl, fun _ => rfl, fun _ => rfl⟩

@[simp] theorem setCopies_frame (s : State) (c v : Nat) (x : Option (Option Nat × Option Nat)) :
    (setCopies s c v x).pending = s.pending ∧ (setCopies s c v x).fresh = s.fresh ∧ (setCopies s c v x).out = s.out ∧
    (setCopies s c v x).part = s.part ∧ (setCopies s c v x).hw = s.hw ∧ (setCopies s c v x).hashTurn = s.hashTurn ∧
    (setCopies s c v x).flashLanes = s.flashLanes ∧ (setCopies s c v x).fuseU = s.fuseU ∧
    (setCopies s c v x).lifeNew = s.lifeNew ∧ (setCopies s c v x).rst = s.rst ∧ (setCopies s c v x).timers = s.timers ∧
    (setCopies s c v x).regs = s.regs ∧ (setCopies s c v x).rwoUsed = s.rwoUsed ∧ (setCopies s c v x).tbTime = s.tbTime ∧
    (setCopies s c v x).tbLoss = s.tbLoss ∧ (setCopies s c v x).tbLocked = s.tbLocked ∧
    (setCopies s c v x).xinCmos = s.xinCmos ∧ (setCopies s c v x).sram = s.sram ∧ (setCopies s c v x).ports = s.ports ∧
    (setCopies s c v x).frames = s.frames ∧ (setCopies s c v x).writeBacks = s.writeBacks ∧
    (setCopies s c v x).domOff = s.domOff ∧ (setCopies s c v x).pwr = s.pwr ∧ (setCopies s c v x).dly = s.dly ∧
    (setCopies s c v x).instRst = s.instRst ∧ (setCopies s c v x).locked = s.locked ∧ (setCopies s c v x).meas = s.meas ∧
    (setCopies s c v x).cstOps = s.cstOps ∧ (setCopies s c v x).reconciling = s.reconciling ∧
    (setCopies s c v x).fuseR = s.fuseR ∧ (setCopies s c v x).fuseS = s.fuseS ∧ (setCopies s c v x).fuseSh = s.fuseSh ∧
    (setCopies s c v x).fus = s.fus ∧ (setCopies s c v x).pair = s.pair ∧ (setCopies s c v x).tem = s.tem ∧
    (setCopies s c v x).sage = s.sage ∧ (setCopies s c v x).dillMem = s.dillMem ∧ (setCopies s c v x).bootSram = s.bootSram ∧
    (setCopies s c v x).bootLock = s.bootLock ∧ (setCopies s c v x).pushLen = s.pushLen ∧ (setCopies s c v x).bf = s.bf ∧
    (setCopies s c v x).svc = s.svc ∧ (setCopies s c v x).i3c = s.i3c ∧ (setCopies s c v x).halted = s.halted ∧
    (setCopies s c v x).twdHeld = s.twdHeld ∧ (setCopies s c v x).twdLate = s.twdLate ∧ (setCopies s c v x).twdNew = s.twdNew ∧
    (setCopies s c v x).tapIr = s.tapIr ∧ (setCopies s c v x).boundary = s.boundary ∧ (setCopies s c v x).token = s.token ∧
    (setCopies s c v x).tamperDue = s.tamperDue ∧ (setCopies s c v x).kslots = s.kslots ∧
    (setCopies s c v x).ladder = s.ladder ∧ (setCopies s c v x).scrubDirty = s.scrubDirty ∧
    (setCopies s c v x).fwRec = s.fwRec ∧ (setCopies s c v x).jobs = s.jobs ∧ (setCopies s c v x).jobOrd = s.jobOrd ∧
    (setCopies s c v x).phases = s.phases ∧ (setCopies s c v x).ctxKey = s.ctxKey ∧ (setCopies s c v x).wrr = s.wrr ∧
    (setCopies s c v x).insts = s.insts ∧ (setCopies s c v x).itu = s.itu ∧ (setCopies s c v x).prgs = s.prgs ∧
    (setCopies s c v x).prgStale = s.prgStale ∧ (setCopies s c v x).fqPhase = s.fqPhase ∧
    (setCopies s c v x).issued = s.issued ∧ (setCopies s c v x).incarnation = s.incarnation ∧
    (setCopies s c v x).prgWait = s.prgWait ∧ (setCopies s c v x).aesBytes = s.aesBytes ∧ (setCopies s c v x).sides = s.sides ∧
    (setCopies s c v x).peers = s.peers ∧ (setCopies s c v x).topo = s.topo ∧ (setCopies s c v x).raReqs = s.raReqs ∧
    (setCopies s c v x).bulks = s.bulks ∧ (setCopies s c v x).evq = s.evq ∧ (setCopies s c v x).discOut = s.discOut ∧
    (setCopies s c v x).disc = s.disc ∧ (setCopies s c v x).isolated = s.isolated ∧ (setCopies s c v x).dups = s.dups ∧
    (setCopies s c v x).pci = s.pci ∧ (setCopies s c v x).vfEnable = s.vfEnable ∧ (setCopies s c v x).numVfs = s.numVfs ∧
    (setCopies s c v x).ariCap = s.ariCap ∧ (setCopies s c v x).msix = s.msix ∧ (setCopies s c v x).vecs = s.vecs ∧
    (setCopies s c v x).ringed = s.ringed ∧ (setCopies s c v x).coreLines = s.coreLines ∧
    (∀ y, rget (setCopies s c v x) y = rget s y) ∧ (∀ y, tget (setCopies s c v x) y = tget s y) ∧
    (∀ y, port (setCopies s c v x) y = port s y) ∧ (∀ y, frame (setCopies s c v x) y = frame s y) ∧
    (∀ y, job? (setCopies s c v x) y = job? s y) ∧ (∀ y, kslot (setCopies s c v x) y = kslot s y) ∧
    (∀ y, inst (setCopies s c v x) y = inst s y) ∧ (∀ y, side (setCopies s c v x) y = side s y) ∧
    (∀ y, peer (setCopies s c v x) y = peer s y) ∧ (∀ y, pciFn (setCopies s c v x) y = pciFn s y) ∧
    (∀ y z, msixEnt (setCopies s c v x) y z = msixEnt s y z) ∧ (∀ y, mval (setCopies s c v x) y = mval s y) ∧
    (∀ y, fuseRead (setCopies s c v x) y = fuseRead s y) ∧ (∀ y, fuseStrict (setCopies s c v x) y = fuseStrict s y) :=
  ⟨rfl, rfl, rfl, rfl, rfl, rfl, rfl, rfl, rfl, rfl, rfl, rfl, rfl, rfl, rfl, rfl, rfl, rfl, rfl, rfl, rfl, rfl, rfl, rfl, rfl,
  rfl, rfl, rfl, rfl, rfl, rfl, rfl, rfl, rfl, rfl, rfl, rfl, rfl, rfl, rfl, rfl, rfl, rfl, rfl, rfl, rfl, rfl, rfl, rfl, rfl,
  rfl, rfl, rfl, rfl, rfl, rfl, rfl, rfl, rfl, rfl, rfl, rfl, rfl, rfl, rfl, rfl, rfl, rfl, rfl, rfl, rfl, rfl, rfl, rfl, rfl,
  rfl, rfl, rfl, rfl, rfl, rfl, rfl, rfl, rfl, rfl, rfl, rfl, fun _ => rfl, fun _ => rfl, fun _ => rfl, fun _ => rfl, fun _ =>
  rfl, fun _ => rfl, fun _ => rfl, fun _ => rfl, fun _ => rfl, fun _ => rfl, fun _ _ => rfl, fun _ => rfl, fun _ => rfl, fun _
  => rfl⟩

/-! ### Readers after their own update -/

/-- A duration whose limit changes goes on with other cycles left, if it runs. -/
theorem tlimit_cases (s : State) (t : Timer) (old new : Nat) :
    tlimit s t old new = s ∨ ∃ k, tlimit s t old new = tset s t k := by
  unfold tlimit
  split
  · split
    · exact .inl rfl
    · exact .inr ⟨_, rfl⟩
  · exact .inl rfl

theorem rget_rset (s : State) (o a : Nat) (v : Word) : rget (rset s o v) a = if a = o then v else rget s a := by
  simp only [rget, rset, Tbl.get_set]
@[simp] theorem rget_rset_same (s : State) (o : Nat) (v : Word) : rget (rset s o v) o = v := by simp [rget_rset]
theorem rget_rset_other (s : State) {o a : Nat} (v : Word) (h : a ≠ o) : rget (rset s o v) a = rget s a := by simp [rget_rset, h]
theorem port_setPort (s : State) (n m : Nat) (p : Port) : port (setPort s n p) m = if m = n then p else port s m := by
  simp only [port, setPort, Tbl.get_set]
@[simp] theorem port_setPort_same (s : State) (n : Nat) (p : Port) : port (setPort s n p) n = p := by simp [port_setPort]
theorem frame_setFrame (s : State) (n m : Nat) (x : Frame) : frame (setFrame s n x) m = if m = n then x else frame s m := by
  simp only [frame, setFrame, Tbl.get_set]
theorem kslot_setKslot (s : State) (k m : Nat) (x : KSlot) : kslot (setKslot s k x) m = if m = k then x else kslot s m := by
  simp only [kslot, setKslot, Tbl.get_set]
theorem inst_setInst (s : State) (k m : Nat) (x : Inst) : inst (setInst s k x) m = if m = k then x else inst s m := by
  simp only [inst, setInst, Tbl.get_set]
theorem side_setSide (s : State) (k m : Nat) (x : Side) : side (setSide s k x) m = if m = k then x else side s m := by
  simp only [side, setSide, Tbl.get_set]
theorem peer_setPeer (s : State) (k m : Nat) (x : Peer) : peer (setPeer s k x) m = if m = k then x else peer s m := by
  simp only [peer, setPeer, Tbl.get_set]
theorem pciFn_setPciFn (s : State) (k m : Nat) (x : PciFn) : pciFn (setPciFn s k x) m = if m = k then x else pciFn s m := by
  simp only [pciFn, setPciFn, Tbl.get_set]
theorem tget_tset_same (s : State) (t : Timer) (n : Nat) : tget (tset s t n) t = some n := by simp [tget, tset]

end Sys2Proof.Machine
end

