-- ==== Sys2Proof/Laws/Writes.lean ====
section
/-! SUPPORT. Laws/Writes.lean: a register write that its page serves, and the event at the end of a counted duration. -/
namespace Sys2Proof.Machine

theorem pageBase_mod (k : PageKind) (i : Nat) : pageBase k i % 4096 = 0 := by
  cases k <;> simp only [pageBase] <;> omega
/-- A register's page offset. -/
theorem reg_mod (k : PageKind) (i : Nat) {o : Nat} (h : o < 4096) : reg k i o % 4096 = o := by
  have := pageBase_mod k i
  unfold reg
  omega

theorem coreStores_none (s : State) (inp : BusIn) (h1 : inp.sram = []) (h2 : inp.dill = []) : coreStores s inp = s := by
  simp [coreStores, h1, h2]

/-- What `served` says. -/
theorem served_iff {s : State} {a : Acc} {k : PageKind} {i o : Nat} (h : served s a k i o = true) :
    s.rst = .none ∧ silent s a = false ∧ (pwrState s = 0 ∨ a.master ≠ 0x10 ∧ vfOf a = 0) ∧ reg k i o < 0x1000000 ∧
    pageOf (reg k i o) = .page k i ∧ writeCause s a (reg k i o) 4 = none := by
  simpa only [served, Bool.and_eq_true, Bool.or_eq_true, decide_eq_true_eq, Option.isNone_iff_eq_none, and_assoc,
    Bool.not_eq_true'] using h
/-- A write that its page serves arrives there, after what it stores beforehand. -/
theorem busWrite_served {s : State} {a : Acc} {k : PageKind} {i o : Nat} {w : Word} {inp : BusIn}
    (hi : coreStores s inp = s) (h : served s a k i o = true) (ho : o < 4096) (ht : k = .twd → s.tbLoss = false) :
    busWrite a (reg k i o) 4 w inp s = writeOn s a inp k i o w := by
  obtain ⟨_, h2, h3, h4, h5, h6⟩ := served_iff h
  have hwake : wakeByHost s a = s := by
    unfold wakeByHost
    rw [if_neg]
    rintro ⟨h, hm⟩
    rcases h3 with h3 | ⟨h3, h7⟩
    · exact h h3
    · exact hm.elim h3 fun hv => hv h7
  have htw : ¬ (k = .twd ∧ s.tbLoss = true) := fun ⟨hk, hl⟩ => by simp [ht hk] at hl
  unfold busWrite
  rw [if_neg (by simp [h2]; omega), hi, hwake]
  simp only [h6, h5, reg_mod k i ho, if_neg htw]
/-- A write of a page register that arrives: what it records, the page's own effect, and an RWO register marked as written. -/
theorem busWrite_noted {s : State} {a : Acc} {k : PageKind} {i o : Nat} {w : Word} {inp : BusIn} {r : RegRow}
    (hi : coreStores s inp = s) (h : served s a k i o = true) (hr : rowAt k i o = some r) (ho : 0x040 ≤ o) (ho' : o < 4096)
    (hw : (rowReadable r &&& ~~~ r.ro ||| r.wo == 0) = false) (ht : k = .twd → s.tbLoss = false) :
    busWrite a (reg k i o) 4 w inp s = markOnce r (reg k i o)
      (pageWrite inp k i (noted s a k i o w) ⟨a, reg k i o, w, shown s k i o, takenWord s k i o w, pageLocked s k i⟩) := by
  have hn : ¬ o < 0x040 := by omega
  have hw' : ¬ (rowReadable r &&& ~~~ r.ro ||| r.wo = 0) := by simpa using hw
  rw [busWrite_served hi h ho' ht]
  simp only [writeOn, if_neg hn, hr, if_neg hw', noted]
/-- Nothing is recorded where the bits that ignore the write hold what it writes. -/
theorem noted_takes {s : State} {a : Acc} {k : PageKind} {i o : Nat} {w : Word} (h : takes s a k i o w = true) :
    noted s a k i o w = s := by
  simp only [takes, Bool.and_eq_true, decide_eq_true_eq] at h
  simp only [noted, h.2, if_true]
theorem served_of_takes {s : State} {a : Acc} {k : PageKind} {i o : Nat} {w : Word} (h : takes s a k i o w = true) :
    served s a k i o = true := by
  simp only [takes, Bool.and_eq_true] at h
  exact h.1

/-- A write that its page serves: the page's own effect, and an RWO register marked as written. -/
theorem busWrite_takes {s : State} {a : Acc} {k : PageKind} {i o : Nat} {w : Word} {inp : BusIn} {r : RegRow}
    (hi : coreStores s inp = s) (h : takes s a k i o w = true) (hr : rowAt k i o = some r) (ho : 0x040 ≤ o) (ho' : o < 4096)
    (hw : (rowReadable r &&& ~~~ r.ro ||| r.wo == 0) = false) (ht : (k = .twd → s.tbLoss = false)) :
    busWrite a (reg k i o) 4 w inp s =
      markOnce r (reg k i o) (pageWrite inp k i s ⟨a, reg k i o, w, shown s k i o, takenWord s k i o w, pageLocked s k i⟩) := by
  rw [busWrite_noted hi (served_of_takes h) hr ho ho' hw ht, noted_takes h]

/-- A header write that its page serves (R65, R66). -/
theorem busWrite_header {s : State} {a : Acc} {k : PageKind} {i o : Nat} {w : Word} {inp : BusIn}
    (hi : coreStores s inp = s) (h : takes s a k i o w = true) (ho : o < 0x040) (ht : (k = .twd → s.tbLoss = false)) :
    busWrite a (reg k i o) 4 w inp s = headerWrite s k i o w := by
  rw [busWrite_served hi (served_of_takes h) (by omega) ht]
  simp only [takes, Bool.and_eq_true, decide_eq_true_eq] at h
  simp only [writeOn, h.2, if_true, if_pos ho]

/-- The event at the end of a running duration happens in the state after its cycles. -/
theorem fire_running {s : State} {t : Timer} {k : State → State} (h : running s t = true) : fire s t k = k (expired s t) := by
  unfold running at h
  unfold fire expired
  cases ht : tget s t with
  | none => simp [ht] at h
  | some n => simp [ht] at h; simp [h]

end Sys2Proof.Machine
end

