-- ==== Sys2Proof/Machine/PciSpace.lean ====
section
/-! DEFINITION. Machine/PciSpace.lean: what a host reads of configuration space and of the BARs beside BAR0 (R355 to R360).  No row of
the table is such a read: these are the values a read returns.  Where R356 names no value the registers read as the PCIe Base Specification
4.0 and SR-IOV 1.1 give them (PRESUMED, assumption log 118). -/
namespace Sys2Proof.Machine

/-- A header of an extended capability: ID, version 1 or `ver`, next. -/
def extCap (id next : Nat) (ver : Nat := 1) : Word := mk 15 0 id ||| mk 19 16 ver ||| mk 31 20 next
/-- Half `h` (0 low, 1 high) of a 64-bit non-prefetchable memory BAR at `a` (R357). -/
def barWord (a h : Nat) : Word := if h = 0 then BitVec.ofNat 32 a ||| 0x4 else BitVec.ofNat 32 (a / 2 ^ 32)
/-- The Device Serial Number (R356). -/
def deviceSerial (s : State) : Nat := if (lifeCycle s).1 = 0 then 0 else leNat ((certRecord s).take 16).reverse % 2 ^ 64

/-- The header and the capabilities below 0x100 that PF and VFs have in common, `pf` for the PF (R356). -/
def configLow (s : State) (fn o : Nat) : Word :=
  let pf := decide (fn = 0)
  let f := pciFn s fn
  let p := pciFn s 0
  match o with
  | 0x00 => if pf then mk 15 0 0x1E7B ||| mk 31 16 s.part.number else 0xFFFFFFFF
  | 0x04 => bitAt 1 f.mem ||| bitAt 2 f.bme ||| mk 20 20 1
  | 0x08 => mk 7 0 s.part.stepping ||| mk 31 8 0x108000
  | 0x10 => if pf then barWord p.bar0 0 else 0
  | 0x14 => if pf then barWord p.bar0 1 else 0
  | 0x18 => if pf then barWord p.bar2 0 else 0
  | 0x1C => if pf then barWord p.bar2 1 else 0
  | 0x20 => if pf then barWord p.bar4 0 else 0
  | 0x24 => if pf then barWord p.bar4 1 else 0
  | 0x2C => mk 15 0 0x1E7B ||| mk 31 16 (if pf then s.part.number else 0x641F)
  | 0x34 => if pf then 0x40 else 0x50
  | 0x40 => if pf then 0x00035001 else 0
  | 0x44 => if pf ∧ p.d3 then 3 else 0
  | 0x50 => 0x00029010
  | 0x54 => mk 2 0 1 ||| mk 5 5 1 ||| mk 15 15 1 ||| mk 28 28 1
  | 0x58 => if pf then mk 7 5 p.mps ||| mk 14 12 p.mrrs else 0
  | 0x5C => mk 3 0 4 ||| mk 9 4 2 ||| mk 11 10 2
  | 0x60 => if pf then mk 1 0 p.aspm ||| mk 19 16 (rfld s (pciReg 0x040) 3 0) ||| mk 25 20 (rfld s (pciReg 0x040) 7 4) else 0
  | 0x74 => mk 3 0 3 ||| mk 4 4 1
  | 0x78 => if pf then mk 3 0 p.cto ||| bitAt 4 p.ctoOff else 0
  | 0x90 => 0x00000011 ||| mk 26 16 (vectorCount fn - 1) ||| bitAt 30 f.fmask ||| bitAt 31 f.msixEn
  | 0x94 => if pf then 0x4 else 0x2
  | 0x98 => if pf then 0x1004 else 0x802
  | _ => 0
/-- The extended capabilities (R356, R358, R360). -/
def configHigh (s : State) (fn o : Nat) : Word :=
  let pf := decide (fn = 0)
  let f := pciFn s fn
  let p := pciFn s 0
  let sriov := pf && decide (s.part.vfs ≠ 0)
  match o with
  | 0x100 => extCap 0x0001 (if pf then 0x148 else 0x158) 2
  | 0x148 => if pf then extCap 0x0003 0x158 else 0
  | 0x14C => if pf then BitVec.ofNat 32 (deviceSerial s) else 0
  | 0x150 => if pf then BitVec.ofNat 32 (deviceSerial s / 2 ^ 32) else 0
  | 0x158 => extCap 0x000E (if sriov then 0x160 else 0x1A0)
  | 0x1A0 => extCap 0x000F (if pf then 0x1B0 else 0)
  | 0x1A4 => mk 5 5 1 ||| mk 20 16 f.stu ||| bitAt 31 f.ats
  | 0x1B0 => if pf then extCap 0x0013 0 else 0
  | 0x1B4 => if pf then bitAt 0 p.pri else 0
  | 0x1B8 => if pf then 256 else 0
  | 0x1BC => if pf then BitVec.ofNat 32 p.prAlloc else 0
  | _ =>
    if !sriov then 0 else
    match o with
    | 0x160 => extCap 0x0010 0x1A0
    | 0x168 => bitAt 0 s.vfEnable ||| bitAt 3 p.vfMem ||| bitAt 4 s.ariCap
    | 0x16C => mk 15 0 s.part.vfs ||| mk 31 16 s.part.vfs
    | 0x170 => BitVec.ofNat 32 s.numVfs
    | 0x174 => mk 15 0 1 ||| mk 31 16 1
    | 0x178 => mk 31 16 0x641F
    | 0x17C => 1
    | 0x180 => BitVec.ofNat 32 p.sysPage
    | 0x184 => barWord p.vfBar0 0
    | 0x188 => barWord p.vfBar0 1
    | 0x18C => barWord p.vfBar2 0
    | 0x190 => barWord p.vfBar2 1
    | _ => 0
/-- The configuration-space word of function `fn` at aligned offset `o`. -/
def configWord (s : State) (fn o : Nat) : Word :=
  if !hasFn s fn then 0xFFFFFFFF else if o < 0x100 then configLow s fn o else configHigh s fn o

/-- The word at `o` of the BAR that holds the MSI-X table and PBA of function `fn`: BAR4/5 of the PF, BAR2/3 of a VF; none where the
BAR is reserved (R357). -/
def msixBarWord (s : State) (fn o : Nat) : Option Word :=
  let n := vectorCount fn
  let pba := if fn = 0 then 0x1000 else 0x800
  let e := msixEnt s fn (o / 16)
  if o < 16 * n then
    some (match o % 16 / 4 with
      | 0 => BitVec.ofNat 32 e.addr
      | 1 => BitVec.ofNat 32 (e.addr / 2 ^ 32)
      | 2 => BitVec.ofNat 32 e.data
      | _ => bitAt 0 e.masked)
  else if pba ≤ o ∧ o < pba + 8 then
    some ((List.range 32).foldl (fun (w : Word) b =>
      let v := 8 * (o - pba) / 32 * 32 + b
      w ||| bitAt b (decide (v < n) && (msixEnt s fn v).pend)) 0)
  else none
/-- The word at `o` of the push aperture, BAR2/3 of the PF (R301, R357, R363); none where it is reserved. -/
def pushBarWord (s : State) (o : Nat) : Option Word :=
  if o < 0x400000 then some 0 else if o < 0x40000C then some (pushRead s o) else none
/-- A host's read of the BAR that holds the MSI-X table of function `fn` (`push` false) or of the push aperture: the word returned; a
reserved part reads 0 and is recorded (R69, R357). -/
def barRead (s : State) (fn : Nat) (push : Bool) (o : Nat) : State × Word :=
  match if push then pushBarWord s o else msixBarWord s fn o with
  | some w => (s, w)
  | none => (busLog s (fnAcc fn) false 0 4 0 .reserved, 0)

end Sys2Proof.Machine
end

