-- ==== Sys2Proof/WellFormed.lean ====
section
/-! DEFINITION. WellFormed.lean: which operands a command can have: the masters of R76, page, port, instance, tag, node and side
numbers, and the fields of a frame (R407). -/
namespace Sys2Proof

/-- A master ID of R76 with the privilege bit R76 gives it: either for a core, 1 for the debug module, 0 for the PF, a VF and a remote
access. -/
def Acc.wf (a : Acc) : Bool :=
  let m := a.master.toNat
  decide (m ≤ 3) || (decide (m = 4) && a.priv) || (decide (0x10 ≤ m) && decide (m ≤ 0x50) && !a.priv) ||
  (decide (0x80 ≤ m) && decide (m ≤ 0xBF) && !a.priv)
/-- The VF that makes the access, 0 for any other master (R76). -/
def Acc.vf (a : Acc) : Nat := if 0x11 ≤ a.master.toNat ∧ a.master.toNat ≤ 0x50 then a.master.toNat - 0x10 else 0
/-- The master can form the access to copy `i` of the instance or doorbell page: a VF reaches its own two pages only (R63). -/
def Acc.wfInst (a : Acc) (i : Nat) : Bool := a.wf && (decide (a.vf = 0) || decide (a.vf = i))
/-- The master can form the access to any other page (R63). -/
def Acc.wfCtl (a : Acc) : Bool := a.wf && decide (a.vf = 0)
/-- The master can form the access to a page number (R63, R68). -/
def Acc.wfPage (a : Acc) (page : Nat) : Bool :=
  a.wf && (decide (a.vf = 0) || decide (page = 0x080 + a.vf) || decide (page = 0x100 + a.vf))
/-- The master can form the access to the register that holds a ring's pointer. -/
def Acc.wfRing (a : Acc) : RingId → Bool
  | .core _ => a.wfCtl
  | .inst i => a.wfInst i
/-- A ring that exists on some part. -/
def RingId.wf : RingId → Bool | .core q => decide (q < 4) | .inst i => decide (i < 65)
/-- A window number of R106. -/
def LatchedReg.wf : LatchedReg → Bool
  | .winBase w => decide (w < 32)
  | .winLimit w => decide (w < 32)
  | .winPolicy w => decide (w < 32)
  | .winMap w => decide (w < 32)
  | .abMap => true
  | .abCtrl => true
  | .relCfg => true
  | .frameRange => true
/-- A core and an offset that exist. -/
def DmiOp.wf : DmiOp → Bool
  | .halt c => decide (c < 4)
  | .resume c => decide (c < 4)
  | .busRead off _ => decide (off < 0x1000000)
  | .busWrite off _ _ => decide (off < 0x1000000)
  | .other => true
/-- The fields of a frame are within their widths (R407). -/
def Frame17.wf (f : Frame17) : Bool :=
  decide (f.type < 256) && decide (f.flags < 256) && decide (f.dst < 256) && decide (f.src < 256) && decide (f.seq < 0x10000) &&
  decide (f.ack < 0x10000) && decide (f.srcInc < 0x10000) && decide (f.dstInc < 0x10000) && decide (f.hops < 256) &&
  decide (f.payload.length ≤ 264)

/-- Values the fields of configuration space can take: payloads of 128 and 256 bytes, and timeout ranges A and B (R355, R360). -/
def PciFn.wf (f : PciFn) : Bool :=
  decide (f.mps ≤ 1) && decide (f.mrrs ≤ 5) && decide (f.cto ∈ [0, 1, 2, 5, 6]) && decide (f.aspm < 4) && decide (f.stu < 32) &&
  decide (f.prAlloc < 2 ^ 32) && decide (f.sysPage < 2 ^ 32) &&
  [f.bar0, f.bar2, f.bar4, f.vfBar0, f.vfBar2].all fun a => decide (a < 2 ^ 64)
/-- A command's operands are within their ranges. -/
def Instr.wf : Instr → Bool
  | .supplyFall rail _ _ _ => decide (rail < 9)
  | .porEnd _ _ _ => true
  | .devRstNAssert _ => true
  | .devRstNRelease _ => true
  | .rstReqDevice acc _ _ => acc.wfCtl
  | .rstReqControl acc _ _ => acc.wfCtl
  | .rstReqPort acc _ _ => acc.wfCtl
  | .lockstepMismatch _ => true
  | .debugModuleReset _ => true
  | .romFetchViolation _ => true
  | .romFlow _ => true
  | .registerWrite acc off _ _ _ => acc.wfPage (off / 4096) && decide (off < 0x1000000)
  | .pageIrqClear acc page _ => acc.wfPage page && decide (page < 0x1000)
  | .pageIrqForce acc page _ => acc.wfPage page && decide (page < 0x1000)
  | .pageLock acc page => acc.wfPage page && decide (page < 0x1000)
  | .pageErrClear acc page _ => acc.wfPage page && decide (page < 0x1000)
  | .berrClear acc => acc.wfCtl
  | .tbTimeRead acc => acc.wfCtl
  | .dlymonStart acc _ => acc.wfCtl
  | .dlymonDone => true
  | .timebaseLoss _ => true
  | .timebaseReturn => true
  | .platformRead n _ _ _ _ _ => decide (n < 16)
  | .legacyRead n _ _ _ _ _ => decide (n < 16)
  | .pageProgram n _ _ _ _ => decide (n < 16)
  | .erase4K n _ _ _ => decide (n < 16)
  | .erase32K n _ _ _ => decide (n < 16)
  | .erase64K n _ _ _ => decide (n < 16)
  | .chipErase n _ _ => decide (n < 16)
  | .writeEnable n _ => decide (n < 16)
  | .writeDisable n _ => decide (n < 16)
  | .readStatus n _ => decide (n < 16)
  | .readFlagStatus n _ => decide (n < 16)
  | .readRegister35 n _ => decide (n < 16)
  | .readRegister15 n _ => decide (n < 16)
  | .readMode n _ => decide (n < 16)
  | .readId n _ _ => decide (n < 16)
  | .readSfdp n _ _ _ _ => decide (n < 16)
  | .securityIdRead n _ _ => decide (n < 16)
  | .writeStatus n _ _ => decide (n < 16)
  | .writeMode n _ _ _ => decide (n < 16)
  | .setBurstWrap n _ => decide (n < 16)
  | .enter4Byte n => decide (n < 16)
  | .exit4Byte n => decide (n < 16)
  | .resetEnable n _ => decide (n < 16)
  | .protocolReset n _ => decide (n < 16)
  | .protectionWrite n _ => decide (n < 16)
  | .noOpCommand n _ _ => decide (n < 16)
  | .unsupportedOpcode n _ _ => decide (n < 16)
  | .platformCsDeassert n => decide (n < 16)
  | .busyPoll n _ => decide (n < 16)
  | .cs0BusyTimeout n => decide (n < 16)
  | .ownAccessIssue n _ => decide (n < 16)
  | .flashResetPulseEnd n => decide (n < 16)
  | .flashResetQuietEnd n => decide (n < 16)
  | .preqChange n _ => decide (n < 16)
  | .cmdMeasure acc n => acc.wfCtl && decide (n < 16)
  | .cmdRelease acc n => acc.wfCtl && decide (n < 16)
  | .cmdHold acc n => acc.wfCtl && decide (n < 16)
  | .cmdStage acc n => acc.wfCtl && decide (n < 16)
  | .cmdActivate acc n => acc.wfCtl && decide (n < 16)
  | .cmdRecover acc n => acc.wfCtl && decide (n < 16)
  | .cmdUnquarantine acc n => acc.wfCtl && decide (n < 16)
  | .cmdInvalid acc n code => acc.wfCtl && decide (n < 16) && (decide (code = 0) || decide (8 ≤ code)) && decide (code < 16)
  | .latchedSetWrite acc n reg _ => acc.wfCtl && decide (n < 16) && reg.wf
  | .protocolSetWrite acc n _ _ => acc.wfCtl && decide (n < 16)
  | .armWrite acc n _ => acc.wfCtl && decide (n < 16)
  | .mbPublish acc n _ => acc.wfCtl && decide (n < 16)
  | .responseVisible n => decide (n < 16)
  | .manifestCheckMeasure tag _ => decide (tag < 1024)
  | .manifestCheckStage tag _ _ => decide (tag < 1024)
  | .manifestCheckGolden tag _ => decide (tag < 1024)
  | .treeLoadDone n _ => decide (n < 16)
  | .fillBlockDone n _ => decide (n < 16)
  | .refillDone n _ => decide (n < 16)
  | .leafFetchDone n _ _ => decide (n < 16)
  | .hashSegment n _ lane => decide (n < 16) && decide (lane < 8)
  | .blockCheck n _ => decide (n < 16)
  | .deferralExpiry n _ => decide (n < 16)
  | .releaseD1Expiry n => decide (n < 16)
  | .releaseD2Expiry n => decide (n < 16)
  | .activationQuiesced n => decide (n < 16)
  | .goldenVerifyDone n _ => decide (n < 16)
  | .recoveryUnitDone n _ _ _ _ => decide (n < 16)
  | .scrubTick k _ => decide (k < 4)
  | .eccWriteback => true
  | .vstDiagRead acc _ => acc.wfCtl
  | .sqDoorbell acc ring _ _ => acc.wfRing ring && ring.wf
  | .cqHeadWrite acc ring _ => acc.wfRing ring && ring.wf
  | .ringEnable acc ring _ => acc.wfRing ring && ring.wf
  | .descriptorFetch ring tag _ _ => ring.wf && decide (tag < 1024)
  | .jobDispatch tag unit lane _ => decide (tag < 1024) && decide (unit < 8) && decide (lane < 8)
  | .preemption lane _ _ => decide (lane < 8)
  | .yield lane _ _ => decide (lane < 8)
  | .jobResume tag unit _ _ => decide (tag < 1024) && decide (unit < 8)
  | .completionWrite tag _ => decide (tag < 1024)
  | .jobTimeout tag _ => decide (tag < 1024)
  | .laneReserveWrite acc m _ => acc.wfCtl && decide (m < 8)
  | .nop tag _ => decide (tag < 1024)
  | .hash tag _ => decide (tag < 1024)
  | .hmacGenerate tag _ => decide (tag < 1024)
  | .hmacVerify tag _ => decide (tag < 1024)
  | .kdf tag _ => decide (tag < 1024)
  | .drbg tag _ => decide (tag < 1024)
  | .ed25519Sign tag _ => decide (tag < 1024)
  | .ed25519Verify tag _ => decide (tag < 1024)
  | .x25519 tag _ => decide (tag < 1024)
  | .gcmEnc tag _ => decide (tag < 1024)
  | .gcmDec tag _ => decide (tag < 1024)
  | .selfTest tag _ => decide (tag < 1024)
  | .selfTestTimeout tag => decide (tag < 1024)
  | .entropyHealthFailure => true
  | .keyGen tag _ => decide (tag < 1024)
  | .keyPub tag _ => decide (tag < 1024)
  | .keyImport tag _ => decide (tag < 1024)
  | .keyWrap tag _ => decide (tag < 1024)
  | .keyUnwrap tag _ => decide (tag < 1024)
  | .keyInvalidate tag _ => decide (tag < 1024)
  | .measExtend tag _ => decide (tag < 1024)
  | .wmsBuild tag _ => decide (tag < 1024)
  | .policyCommit tag _ => decide (tag < 1024)
  | .fwRecord tag _ => decide (tag < 1024)
  | .aliasCreate tag _ => decide (tag < 1024)
  | .keyScrubPass => true
  | .bootDbgLockWrite acc _ => acc.wfCtl
  | .coreRelease acc _ _ => acc.wfCtl
  | .lcSubmit acc _ _ => acc.wfCtl
  | .healthConfirm acc _ => acc.wfCtl
  | .tapExtest _ _ => true
  | .tapSamplePreload _ _ => true
  | .tapIdcode => true
  | .tapNonce => true
  | .tapToken _ => true
  | .tapTokenStatus => true
  | .tokenReset _ => true
  | .tapDtmcs => true
  | .tapDmi op _ => op.wf
  | .tapBypass => true
  | .bfRead acc _ => acc.wfCtl
  | .bfProgram acc _ _ => acc.wfCtl
  | .bfErase4k acc _ => acc.wfCtl
  | .bfErase64k acc _ => acc.wfCtl
  | .bfBusyPoll _ => true
  | .bfBusyTimeout => true
  | .bfCommandDone _ _ => true
  | .pushApertureWrite off _ => decide (off < 0x800000)
  | .pushGo _ _ => true
  | .bwdKick acc _ => acc.wfCtl
  | .bwdHandover acc _ => acc.wfCtl
  | .bwdHalfPeriod => true
  | .bwdBite _ => true
  | .twdArm acc _ => acc.wfCtl
  | .twdCheckin acc _ => acc.wfCtl
  | .twdPeriodEnd => true
  | .twdBite _ => true
  | .fuseRead acc _ => acc.wfCtl
  | .fuseProgram acc _ => acc.wfCtl
  | .fusePulseEnd _ _ _ => true
  | .fuseRepair acc _ => acc.wfCtl
  | .fuseLock acc _ => acc.wfCtl
  | .rootGen acc _ => acc.wfCtl
  | .strictCheck acc _ => acc.wfCtl
  | .tamperCountAdvance _ _ => true
  | .cstIncrement acc q _ => acc.wfCtl && decide (q < 4)
  | .cstRaise acc q _ => acc.wfCtl && decide (q < 4)
  | .cstOwnerWrite acc c _ => acc.wfCtl && decide (c < 256)
  | .counterOperationDone _ _ _ => true
  | .reconcileDone _ => true
  | .supplySample _ _ => true
  | .temperatureSample _ _ => true
  | .tbclkGlitch _ => true
  | .meshPass _ => true
  | .caseInputChange _ _ => true
  | .vbatSample _ => true
  | .stateCodeCheck _ _ => true
  | .temTokenLoad acc _ => acc.wfCtl
  | .batteryWindowClose => true
  | .batteryWindowExpiry => true
  | .pciePerst => true
  | .pcieHotReset => true
  | .pcieLinkDown => true
  | .pcieLinkUp speed lanes =>
    decide (1 ≤ speed) && decide (speed ≤ 4) && decide (1 ≤ lanes.width) && decide (lanes.width ≤ 2)
  | .pfFlr => true
  | .vfFlr i => decide (i < 65)
  | .vfEnableWrite _ _ _ => true
  | .atsInvalidate fn _ _ _ => decide (fn < 65)
  | .prgResponse idx _ _ => decide (idx < 512)
  | .pcieCompletionTimeout tag _ => decide (tag < 1024)
  | .mctpPacketWrite _ => true
  | .mctpPacketRead => true
  | .ibi _ => true
  | .i3cTxSend acc _ => acc.wfCtl
  | .i3cTxCancel acc => acc.wfCtl
  | .i3cRxPop acc => acc.wfCtl
  | .i3cTxTimeout => true
  | .enec _ => true
  | .disec _ => true
  | .rstdaa => true
  | .entdaa a => decide (a < 128)
  | .setdasa sa a => decide (sa < 128) && decide (a < 128)
  | .setnewda a => decide (a < 128)
  | .setmwl n => decide (n.arg < 0x10000)
  | .setmrl n => decide (n.arg < 0x10000)
  | .getmwl => true
  | .getmrl => true
  | .getpid => true
  | .getbcr => true
  | .getdcr => true
  | .getstatus => true
  | .rstact _ => true
  | .hello seq _ => decide (seq < 0x10000)
  | .baud seq _ => decide (seq < 0x10000)
  | .baudSwitch => true
  | .baudRevert => true
  | .sessionOpen seq _ => decide (seq < 0x10000)
  | .data seq _ _ => decide (seq < 0x10000)
  | .sessionClose seq _ => decide (seq < 0x10000)
  | .sessionTimeout => true
  | .svcPushWrite seq _ => decide (seq < 0x10000)
  | .svcPushGo seq _ _ => decide (seq < 0x10000)
  | .svcFirmwareRequest _ seq _ => decide (seq < 0x10000)
  | .svcFwAnswer acc _ => acc.wfCtl
  | .svcFrameAbort => true
  | .instCreate acc i _ => acc.wfInst i && decide (i < 65)
  | .instDestroy acc i _ => acc.wfInst i && decide (i < 65)
  | .instReset acc i _ _ => acc.wfInst i && decide (i < 65)
  | .drainTimeout i => decide (i < 65)
  | .generationDelayEnd i _ => decide (i < 65)
  | .instFreeze acc i _ => acc.wfInst i && decide (i < 65)
  | .instanceFrozen i => decide (i < 65)
  | .instThaw acc i _ => acc.wfInst i && decide (i < 65)
  | .instSave acc i _ _ => acc.wfInst i && decide (i < 65)
  | .instRestore acc i _ _ => acc.wfInst i && decide (i < 65)
  | .instResume acc i _ => acc.wfInst i && decide (i < 65)
  | .instAbort acc i _ => acc.wfInst i && decide (i < 65)
  | .instInval acc i _ => acc.wfInst i && decide (i < 65)
  | .instCtrIncrement acc i _ => acc.wfInst i && decide (i < 65)
  | .instCtrRaise acc i _ => acc.wfInst i && decide (i < 65)
  | .mgrDoorbell acc _ => acc.wfCtl
  | .mgrPublish acc _ => acc.wfCtl
  | .remoteJobTimeout tag _ => decide (tag < 1024)
  | .heartbeatSend x => decide (x < 2)
  | .blockLock x => decide (x < 2)
  | .linkHello x f => decide (x < 2) && f.wf
  | .frameForward x f _ => decide (x < 2) && f.wf
  | .discoverOriginate => true
  | .discover x f => decide (x < 2) && f.wf
  | .topology x f => decide (x < 2) && f.wf
  | .topologyRepeat => true
  | .isolatedTimeout => true
  | .statusSend => true
  | .status x f => decide (x < 2) && f.wf
  | .nodeAgeing n => decide (n < 64)
  | .silentTimeout x => decide (x < 2)
  | .linkEvent x f => decide (x < 2) && f.wf
  | .ack x f => decide (x < 2) && f.wf
  | .retransmitTimeout n seq => decide (n < 64) && decide (seq < 0x10000)
  | .regRd x f => decide (x < 2) && f.wf
  | .regWr x f _ => decide (x < 2) && f.wf
  | .regRsp x f => decide (x < 2) && f.wf
  | .remoteApertureAccess acc _ o _ => acc.wfCtl && decide (o < 0x400000)
  | .event x f => decide (x < 2) && f.wf
  | .evqPop acc => acc.wfCtl
  | .jobReq x f _ => decide (x < 2) && f.wf
  | .bufRd x f _ => decide (x < 2) && f.wf
  | .bufData x f => decide (x < 2) && f.wf
  | .bufWr x f _ => decide (x < 2) && f.wf
  | .jobDone x f _ => decide (x < 2) && f.wf
  | .jobAbort x f _ => decide (x < 2) && f.wf
  | .jobCancel x f => decide (x < 2) && f.wf
  | .pushData x f => decide (x < 2) && f.wf
  | .pushCtrl x f _ => decide (x < 2) && f.wf
  | .pushRsp x f => decide (x < 2) && f.wf
  | .bulkPush acc c _ _ => acc.wfCtl && decide (c < 4)
  | .bulkFetch acc c _ => acc.wfCtl && decide (c < 4)
  | .bulkProgressTimeout ch => decide (ch < 4)
  | .claimLinkFrame _ _ _ _ => true
  | .claimLinkStale => true
  | .pairReqRenew acc _ => acc.wfCtl
  | .pairReqClaim acc _ => acc.wfCtl
  | .requestExpiry => true
  | .pairGrantGo acc _ => acc.wfCtl
  | .leaseExpiry => true
  | .holdoffEnd => true
  | .pairBeatSend => true
  | .pairBeat x f => decide (x < 2) && f.wf
  | .beatTimeout => true
  | .claimRequestRepeat => true
  | .healthReportTimer => true
  | .pairHealthCtrl acc => acc.wfCtl
  | .pairWarm acc _ => acc.wfCtl
  | .mirrorSend acc _ => acc.wfCtl
  | .mirrorCounter x f => decide (x < 2) && f.wf
  | .mirrorQuarantine x f => decide (x < 2) && f.wf
  | .mirrorFirmwareRecord kind x f => decide (kind < 16) && decide (x < 2) && f.wf
  | .pairMrxPop acc => acc.wfCtl
  | .pairRequest x f => decide (x < 2) && f.wf
  | .pairHealthReport x f => decide (x < 2) && f.wf
  | .pairWinPop acc => acc.wfCtl
  | .pairWoutSend acc _ => acc.wfCtl
  | .evhRouteWrite acc src _ => acc.wfCtl && decide (src < 576)
  | .msixResend fn v => decide (fn < 65) && decide (v < 64)
  | .pwrDomainEnWrite acc _ => acc.wfCtl
  | .domainSwitchDone => true
  | .restEnter acc _ => acc.wfCtl
  | .restCancel acc _ => acc.wfCtl
  | .restCoresHalted => true
  | .restEntered => true
  | .wakeTimer => true
  | .wakeComplete => true
  | .timebaseLossPersists => true
  | .heartbeat x => decide (x < 2)
  | .ackDelayExpiry n => decide (n < 64)
  | .malformedFrame x _ => decide (x < 2)
  | .svcInvalidFrame _ _ seq _ => decide (seq < 0x10000)
  | .grantFrame x f => decide (x < 2) && f.wf
  | .snoopedFlashCommand n fa _ _ => decide (n < 16) && decide (fa.cs < 2) && decide (fa.addr < 2 ^ 32)
  | .prgIndexTimeout idx _ => decide (idx < 512)
  | .configWrite fn f => decide (fn < 65) && f.wf
  | .msixTableWrite fn v _ _ _ => decide (fn < 65) && decide (v < 64)
  | .unexpectedCompletion => true
  | .testLogicReset => true

end Sys2Proof
end

