-- ==== Sys2Proof/Tests/Slice0.lean ====
section
/-! SUPPORT. Tests/Slice0.lean: for every clause of the obligations that has hypotheses a theorem that shows them met
(wit_<obligation>_<clause>), the refusals of WellFormed, and one-step tests whose values are the manual's.  The
theorems are elaborated one after the other: each is small, and together they would wait for the kernel in too many threads. -/
set_option Elab.async false

namespace Sys2Proof.Tests
open Sys2Proof Sys2Proof.Machine
/-! ### States for the witnesses and the tests -/

/-- The machine right after reset. -/
def r0 : State := State.reset
/-- Sage in machine mode. -/
def sage : Acc := ⟨0, true⟩
/-- After reset with words put into the register file. -/
def withRegs (l : List (Nat × Word)) : State := l.foldl (fun s e => rset s e.1 e.2) r0
/-- Port 0 RUNNING with one window over blocks 0 to 15, with policy word `pol`. -/
def running0 (pol : Word) : State :=
  setPort r0 0 { st := .running, inForce := true, wel := true, latched := some ⟨[⟨0, 0xF000, pol, 0⟩], 0, 0, 0, 0, 24⟩ }
/-- The window of `running0`. -/
def win0 (pol : Word) : WinDesc := ⟨0, 0xF000, pol, 0⟩
/-- Port 0 RUNNING with a RESIDENT window from frame 2 on, whose block 1 is VALID. -/
def resident0 : State :=
  setFrame (running0 0x00040001) 3 { st := .valid, owner := some 0, data := [9, 8, 7, 6, 5, 4, 3, 2, 1] }
/-- Port 0 HELD with a protocol that passes the checks of R170. -/
def ready0 : State := withRegs [(reg .fgpCtl 0 0x040, 0x01051680)]
/-- After reset once the flash resets have ended. -/
def calm : State := { r0 with timers := [] }
/-- A manifest entry for image 1 with floor 3. -/
def entry0 : ManEntry := { image := 1, leaves := 1, version := 3, floor := 3, dtt := 0, root := [] }
/-- Port 0 copying a golden region of 64 blocks. -/
def copy0 : State := setPort calm 0 { st := .recovering, seq := .copy, unitOn := true, golden := some ⟨0, 0, 64, []⟩ }
theorem length_sliceZ (b : Bytes) (o n : Nat) : (sliceZ b o n).length = n := by
  simp only [sliceZ, List.length_append, List.length_replicate, List.length_take, List.length_drop]
  omega
theorem sliceZ_self (b : Bytes) (n : Nat) (h : b.length = n) : sliceZ b 0 n = b := by
  simp [sliceZ, ← h]
/-- A block of zeros but for its first byte. -/
def blk1 : BlkRead := ⟨[1], [1], [], .clean⟩
theorem flashOut_regs (s : State) (n cs op addr len : Nat) (d : Bytes) : (flashOut s n cs op addr len d).regs = s.regs := by
  unfold flashOut
  dsimp only
  split <;> rfl
theorem ownNext_regs (s : State) (n : Nat) (k : Own) (cs a l : Nat) : (ownNext s n k cs a l).regs = s.regs := by
  unfold ownNext
  dsimp only
  split
  · rfl
  · exact flashOut_regs ..
theorem driveWrite_regs (s : State) (n op fa : Nat) (d : Bytes) : (driveWrite s n op fa d).regs = s.regs := by
  simp only [driveWrite, flashOut_regs]
theorem eraseUnit_regs (s : State) (n : Nat) (g : Golden) : (eraseUnit s n g).regs = s.regs := by
  unfold eraseUnit
  split
  · rfl
  · exact driveWrite_regs ..
theorem progPages_done (n fa op : Nat) (data : Bytes) : ∀ k i s, ∃ u, u.regs = s.regs ∧ progPages n fa op none data k i s = (u, true)
  | 0, _, s => ⟨s, rfl, rfl⟩
  | k + 1, i, s => by
    obtain ⟨u, hu, e⟩ := progPages_done n fa op data k (i + 1) (driveWrite s n (progOp s n) (fa + 256 * i) (sliceZ data (256 * i) 256))
    exact ⟨u, hu.trans (driveWrite_regs ..), by simpa [progPages] using e⟩
/-- A unit without verified blocks whose pages all go through is copied; its outcome says whether a read-back differs. -/
theorem copyBlocks_done (n : Nat) (g : Golden) (b op : Nat) : ∀ k i rs rb s, ∃ u x, u.regs = s.regs ∧
    copyBlocks n g b op none [] k i rs rb s = (u, some x)
  | 0, _, _, _, s => ⟨s, false, rfl, rfl⟩
  | k + 1, i, rs, rb, s => by
    obtain ⟨v, hv, e⟩ := progPages_done n (copyFa (ownNext s n .copy 1 (goldFa g (b + i)) 4096) n g (b + i)) (op + 1 + 16 * i)
      (sliceZ (rs.headD ⟨[], [], [], .clean⟩).d1 0 4096) 16 0 (ownNext s n .copy 1 (goldFa g (b + i)) 4096)
    obtain ⟨u, x, hu, e'⟩ := copyBlocks_done n g b op k (i + 1) (rs.drop 1) (rb.drop 1) (ownRead v n 0 (copyFa v n g (b + i)) 4096)
    refine ⟨u, _, ?_, by simp only [copyBlocks, List.find?, goldBlock, e, e']; rfl⟩
    rw [hu, ownRead, flashOut_regs, hv, ownNext_regs]
theorem copyBlocks_same (n : Nat) (g : Golden) (b op : Nat) (d : Bytes) : ∀ k i s,
    (copyBlocks n g b op none [] k i (List.replicate k ⟨d, d, [], .clean⟩) (List.replicate k d) s).2 = some false
  | 0, _, _ => rfl
  | k + 1, i, s => by
    obtain ⟨v, _, e⟩ := progPages_done n (copyFa (ownNext s n .copy 1 (goldFa g (b + i)) 4096) n g (b + i)) (op + 1 + 16 * i)
      (sliceZ d 0 4096) 16 0 (ownNext s n .copy 1 (goldFa g (b + i)) 4096)
    obtain ⟨u, x, _, e'⟩ := copyBlocks_done n g b op k (i + 1) (List.replicate k ⟨d, d, [], .clean⟩) (List.replicate k d)
      (ownRead v n 0 (copyFa v n g (b + i)) 4096)
    have h := copyBlocks_same n g b op d k (i + 1) (ownRead v n 0 (copyFa v n g (b + i)) 4096)
    rw [e'] at h
    simp only [Option.some.injEq] at h
    subst h
    simp only [copyBlocks, List.find?, goldBlock, List.replicate, List.headD, List.drop, e, e']
    simp
/-- No window of a port is verified. -/
def plainWins (s : State) (n : Nat) : Prop := ∀ d ∈ wins s n, d.verified = false
theorem plainWins_regs {s u : State} (n : Nat) (h : u.regs = s.regs) (p : plainWins s n) : plainWins u n := by
  have : wins u n = wins s n := by simp only [wins, rget, h]
  unfold plainWins
  rw [this]
  exact p
theorem goldenBlocks_plain {s : State} {n : Nat} (g : Golden) (h : plainWins s n) : goldenBlocks s n g = [] := by
  simp only [goldenBlocks, List.flatMap_eq_nil_iff]
  intro w _
  split
  · rfl
  · rename_i d hd
    rw [h d (List.mem_of_getElem? hd)]
    rfl
theorem copyPass_regs {s : State} {n : Nat} {g : Golden} {b op : Nat} {rs : List BlkRead} {rb : List Bytes} (h : plainWins s n) :
    (copyPass s n g b op none rs rb).1.regs = s.regs := by
  have p := plainWins_regs n (eraseUnit_regs s n g) h
  obtain ⟨u, x, hu, e⟩ := copyBlocks_done n g b op 16 0 rs rb (eraseUnit s n g)
  simp only [copyPass, reduceCtorEq, if_false, goldenBlocks_plain g p, e, hu, eraseUnit_regs]
theorem copyPass_same {s : State} {n : Nat} (g : Golden) (b op : Nat) (d : Bytes) (h : plainWins s n) :
    (copyPass s n g b op none (List.replicate 16 ⟨d, d, [], .clean⟩) (List.replicate 16 d)).2 = some false := by
  have p := plainWins_regs n (eraseUnit_regs s n g) h
  simp only [copyPass, reduceCtorEq, if_false, goldenBlocks_plain g p]
  exact copyBlocks_same n g b op d 16 0 _
theorem copyBlocks_differs (n : Nat) (g : Golden) (b op k i : Nat) (x : BlkRead) (l : List BlkRead) (s : State)
    (hd : sliceZ [] 0 4096 ≠ sliceZ x.d1 0 4096) : (copyBlocks n g b op none [] (k + 1) i (x :: l) [] s).2 = some true := by
  obtain ⟨v, _, e⟩ := progPages_done n (copyFa (ownNext s n .copy 1 (goldFa g (b + i)) 4096) n g (b + i)) (op + 1 + 16 * i)
    (sliceZ x.d1 0 4096) 16 0 (ownNext s n .copy 1 (goldFa g (b + i)) 4096)
  obtain ⟨u, y, _, e'⟩ := copyBlocks_done n g b op k (i + 1) l [] (ownRead v n 0 (copyFa v n g (b + i)) 4096)
  simp only [copyBlocks, List.find?, goldBlock, List.headD, List.drop, e, e']
  simp [hd]
theorem copyPass_differs {s : State} {n : Nat} (g : Golden) (b op : Nat) (x : BlkRead) (l : List BlkRead) (h : plainWins s n)
    (hd : sliceZ [] 0 4096 ≠ sliceZ x.d1 0 4096) : (copyPass s n g b op none (x :: l) []).2 = some true := by
  have p := plainWins_regs n (eraseUnit_regs s n g) h
  simp only [copyPass, reduceCtorEq, if_false, goldenBlocks_plain g p]
  exact copyBlocks_differs n g b op 15 0 x l _ hd
theorem ownClear_plain {s : State} {n : Nat} (k : Own) (h : plainWins s n) : plainWins (ownClear s n k) n := plainWins_regs n rfl h
theorem blk1_differs : sliceZ [] 0 4096 ≠ sliceZ blk1.d1 0 4096 := by
  intro h
  have := congrArg (List.head? ·) h
  revert this
  decide
theorem copy0_plain : plainWins copy0 0 := by unfold plainWins; decide
/-- Port 0 with a leaf of a one-leaf tree requested and its digest frame VALID. -/
def tree0 : State :=
  setFrame (setPort calm 0 { st := .running, leafReqs := [⟨0, 0, 0, 0⟩], trees := [⟨0, [], 1, 0, false, 8⟩] }) 8 { st := .valid, digest := true }
/-- Port 0 at the first block of a fill, its leaf cached. -/
def fill0 : State :=
  setPort (rset { r0 with timers := [] } (reg .fgpWin 0 0x108) 0x00040001) 0
    { st := .measuring, seq := .fill 0 0 false, cache := [⟨0, 0, zeros 64, []⟩] }
/-- A block just opened. -/
def empty0 : OpenBlk := ⟨0x1000, 0, 0, 1, [], 0, none⟩
/-- Port 0 with one block open and nothing of it present. -/
def open0 : State := setPort r0 0 { st := .running, blocks := [empty0] }
/-- A block buffer with its first `n` positions present. -/
def fullTo (n : Nat) : OpenBlk := ⟨0x1000, 0, 0, 1, (List.range n).map fun i => (i, some 0), 3968, none⟩
theorem get_full (p : Nat) : ∀ l : List Nat, p ∈ l → Tbl.get (fun _ => (none : Option Byte)) (l.map fun i => (i, some 0)) p = some 0
  | [], h => by simp at h
  | a :: t, h => by
    simp only [List.map_cons, Tbl.get]
    split
    · rfl
    · exact get_full p t ((List.mem_cons.mp h).resolve_left ‹_›)
theorem fullTo_has (n : Nat) : (fullTo n).has 0 n = true := by
  simp only [OpenBlk.has, OpenBlk.at, List.all_eq_true, List.mem_range]
  intro i hi
  show (Tbl.get _ ((List.range n).map fun i => (i, some 0)) (0 + i)).isSome = true
  rw [get_full _ _ (by simpa using hi)]
  rfl
theorem openAt_full (n : Nat) (p : Port) (h : p.blocks = [fullTo n]) : openAt p 0x1000 = some (fullTo n) := by
  simp [openAt, h, fullTo]
/-- Port 0 with a block open, every position of it present, and its leaf cached. -/
def full0 : State := setPort State.reset 0 { st := .running, blocks := [fullTo 4096], cache := [⟨0, 0, zeros 64, zeros 64⟩] }
theorem fullTo_hasAt (n lo k : Nat) (h : lo + k ≤ n) : (fullTo n).has lo k = true := by
  simp only [OpenBlk.has, OpenBlk.at, List.all_eq_true, List.mem_range]
  intro i hi
  show (Tbl.get _ ((List.range n).map fun i => (i, some 0)) (lo + i)).isSome = true
  rw [get_full _ _ (by simp; omega)]
  rfl
theorem hashNext_full : hashNext full0 = some 0 := by
  have h0 : chunkReady full0 0 = true := by
    simp only [chunkReady, show portOn full0 0 = true by decide, show (port full0 0).blocks = [fullTo 4096] from rfl, List.any,
      OpenBlk.ready, show (fullTo 4096).ptr = 3968 from rfl, fullTo_hasAt 4096 3968 128 (by omega)]
    rfl
  rw [hashNext, show (List.range 16).map (fun i => (full0.hashTurn + 1 + i) % 16) =
    [0, 1, 2, 3, 4, 5, 6, 7, 8, 9, 10, 11, 12, 13, 14, 15] by decide, List.find?, h0]
theorem segment_full : segmentEnd (fullTo 4096) 32 3968 = 4096 := by
  rw [segmentEnd, fullTo_hasAt 4096 3968 128 (by omega), if_pos ⟨by omega, rfl⟩, segmentEnd]
  simp
theorem empty_completing (p : Port) (h : p.blocks = [empty0]) : completing p = some empty0 := by
  have : empty0.has 0 4096 = false := by
    simp [OpenBlk.has, OpenBlk.at, empty0, Tbl.get]
    exact ⟨0, by decide⟩
  simp [completing, h, this]
/-- Port 0 with a frame to refill, its leaf cached. -/
def refill0 : State := setPort calm 0 { st := .running, refills := [5], cache := [⟨0, 0, zeros 64, []⟩] }
/-- The descriptor of a manifest check of port 0 with key slot 9. -/
def manDesc (mode : Nat) : Bytes := [0x1F, 0, 9, 0] ++ zeros 49 ++ BitVec.ofNat 8 mode :: zeros 10
/-- Its job, RUNNING without a unit. -/
def manJob (mode : Nat) : Job := { desc := manDesc mode, st := .running }
/-- A LIVE Ed25519 public key of Sage in slot 9, the job of tag 5, and port 0 expecting it. -/
def man0 (mode : Nat) : State :=
  setPort (setJob (setKslot { calm with reconciling := false } 9 { st := .live, ktype := 2, usage := 2, key := zeros 32 }) 5 (manJob mode)) 0
    { st := if mode = 0 then .measuring else if mode = 1 then .updateStaged else .recovering,
      seq := if mode = 1 then .idle else .waitJob }
/-- Its parameters. -/
def manP (mode : Nat) : ManParams := { port := 0, mode := mode, manifest := 0, pid := zeros 8, key := some (zeros 32) }
/-- A HASH descriptor of 8 bytes at 0x20000000 with its digest to 0x20002000. -/
def hash0 : Bytes :=
  [0x01, 0, 0xFF, 0xFF, 0xFF, 0xFF] ++ zeros 10 ++ [0, 0, 0, 0x20] ++ zeros 4 ++ [8, 0, 0, 0, 64, 0, 0, 0, 0, 0x20, 0, 0x20] ++
    zeros 28
/-- A SELF_TEST descriptor of lane 7. -/
def test0 : Bytes := 0x30 :: zeros 51 ++ [0, 7] ++ zeros 10
/-- A job of core queue 0 in tag 5, its context area at the base of core SRAM. -/
def job0 (st : JobSt) (d : Bytes) : State := setJob (withRegs [(reg .cje 0 0x088, 0x20000000)]) 5 { desc := d, st := st }
/-- A GCM_ENC job of core queue 0 that was pre-empted and keeps its save buffer. -/
def aesJob : Job := { desc := [0x18, 0, 9, 0] ++ zeros 60, st := .preempted, buf := true }
/-- It waits, its key LIVE in slot 9. -/
def aes0 : State := setJob (setKslot r0 9 { st := .live, ktype := 5, usage := 16, key := zeros 32 }) 5 aesJob
/-- The HASH descriptor with part `p`, its midstate at 0x20001000. -/
def hashP (p : Nat) : Bytes := hash0.take 40 ++ [0, 0x10, 0, 0x20] ++ zeros 4 ++ [80, 0, 0, 0] ++ BitVec.ofNat 8 p :: zeros 11
/-- A descriptor of type `ty` with param[0] `p` and no more. -/
def plain (ty p : Nat) : Bytes := BitVec.ofNat 8 ty :: zeros 51 ++ BitVec.ofNat 8 p :: zeros 11
/-- A KDF descriptor for a 256-bit Ed25519 key in slot 9, and a KEY_GEN of one. -/
def kdfD : Bytes := [0x03, 0, 8, 0, 9] ++ zeros 47 ++ [0, 1, 1, 1] ++ zeros 8
def genD : Bytes := [0x20, 0, 8, 0, 9] ++ zeros 47 ++ [1, 1] ++ zeros 10
def kdfS : Bytes := [0x03, 0, 8, 0, 9] ++ zeros 11 ++ [0, 0, 0, 0x20] ++ zeros 4 ++ [8, 0, 0, 0] ++ zeros 24 ++ [0, 1, 1, 1] ++ zeros 8
def kdfE : Bytes := [0x03, 0, 8, 0, 9] ++ zeros 47 ++ [0, 2, 1, 6] ++ zeros 8
/-- A KEY_INVALIDATE of slot 9, and an ED25519_SIGN of 16 bytes under slot 2. -/
def invD : Bytes := [0x25, 0, 9] ++ zeros 61
def signD : Bytes := [0x10, 0, 2] ++ zeros 13 ++ [0, 0, 0, 0x20, 0, 0, 0, 0, 16] ++ zeros 39
/-- A KEY_IMPORT of port 0's manifest key into slot 9. -/
def impD : Bytes := [0x22, 0, 0, 0, 9] ++ zeros 47 ++ [2, 2, 0, 0] ++ zeros 8
/-- A KEY_WRAP that took copies of slots 9 and 10, RUNNING. -/
def wrapJob : Job := { desc := 0x23 :: zeros 27 ++ [0xFF] ++ zeros 35, st := .running, copies := [(9, {}), (10, { usage := 32 })] }
def wrap0 : State := setJob r0 5 wrapJob
/-- A WMS_BUILD with nothing selected, RUNNING, after the Alias key exists. -/
def wmsJob : Job := { desc := 0x29 :: zeros 28 ++ [4] ++ zeros 34, st := .running }
def wms0 : State := setJob { withRegs [(reg .atu 0 0x040, 1)] with reconciling := false } 5 wmsJob
/-- DevID and the epoch root LIVE and a firmware record taken. -/
def alias0 : State :=
  { setKslot (setKslot (job0 .running (plain 0x2C 0)) 0 { st := .live }) 1 { st := .live } with fwRec := some (zeros 80) }
/-- Sage in the ROM after a POR, the counters reconciled. -/
def rom0 : State := { r0 with reconciling := false }
/-- ROOTED, banks 0 and 1 locked with their integrity words; and DECOMMISSIONED, with a bundle of zeros loaded. -/
def rooted0 : State :=
  { rom0 with fuseSh := [(192, 0xFF)], fuseR := [(63, 0xF81F07E0), (127, 0xF81F07E0), (196, 3)] }
def dec0 : State := { rom0 with fuseSh := [(192, 0xFFFFFF)] }
def dec1 : State := loadBundle (rsetf (romStep dec0 0x96) (reg .rom 0 0x100) 2 0 0) []
/-- What the ROM selects from. -/
def sel0 (s : State) (env : RomEnv) : RomRun :=
  let g := !rbit s (reg .rom 0 0x050) 3
  let x := romRun (rsetb s (reg .rom 0 0x100) 11 g) env 0
  if g then x else beforeSlots x env
/-- A sub-image header, and a bundle of 4,096 bytes signed with the key that encodes the neutral element: R is that element and S is 0. -/
def sub0 (t : Nat) : Bytes := ascii "WFSI" ++ [BitVec.ofNat 8 t] ++ zeros 27
def idKey : Bytes := 1 :: zeros 31
def bundle0 : Bytes :=
  ascii "WFWB" ++ [1, 0, 0, 2, 0, 0x10, 0, 0, 0, 0, 0, 0] ++ zeros 32 ++ [0, 0xFF, 0, 0] ++ zeros 4 ++ ones 4 ++ zeros 4 ++
  idKey ++ idKey ++ zeros 32 ++ [0xE8, 3, 0, 0, 1, 2] ++ zeros 90 ++
  [1, 0, 0, 0, 0, 2, 0, 0, 64, 0, 0, 0] ++ zeros 20 ++ [0x20, 0, 0, 0, 0x40, 2, 0, 0, 32, 0, 0, 0] ++ zeros 20 ++ zeros 192 ++
  sub0 1 ++ zeros 32 ++ sub0 0x20 ++ zeros 3488
/-- OWNED by that key, in a copy left under way, with the bundle as the Primary. -/
def own0 : State :=
  { rom0 with sage := .copying 0, fuseSh := (192, 0xFFFF) :: (List.range 16).map fun i => (256 + i, wordAtLe (sha512 idKey) i) }
def env0 : RomEnv := { primary := bundle0 }
def run0 : RomRun := runCopy (openRec (romRun own0 env0 0) env0) env0
theorem run0_selects : (selectSlot run0 env0 false).2 = some 1 := by decide +kernel
def own1 : State := { own0 with fuseSh := [] }
def run1 : RomRun := runCopy (openRec (romRun own1 {} 0) {}) {}
theorem pairOf {α β : Type} {p : α × β} {b : β} (h : p.2 = b) : p = (p.1, b) := by rw [← h]
/-- The self-test and the root step of a flow. -/
def test1 (s : State) (c : Bool) (env : RomEnv) : State × Option Nat :=
  romSelfTest (romFlash (romStep { s with hw := none } 0x3C) env.bfId) c env.kat
def root1 (s : State) (c : Bool) (env : RomEnv) : State × Option Nat := romRoot (romStep (test1 s c env).1 0x55) env
theorem test1_eq {s : State} {c : Bool} {env : RomEnv} {b : Option Nat} (h : (test1 s c env).2 = b) :
    romSelfTest (romFlash (romStep { s with hw := none } 0x3C) env.bfId) c env.kat = ((test1 s c env).1, b) := by
  unfold test1 at *; exact pairOf h
theorem root1_eq {s : State} {c : Bool} {env : RomEnv} {b : Option Nat} (h : (root1 s c env).2 = b) :
    romRoot (romStep (test1 s c env).1 0x55) env = ((root1 s c env).1, b) := by
  unfold root1 at *; exact pairOf h
/-- Handed over with the Sage debug part open. -/
def debug0 : State := withRegs [(reg .rom 0 0x054, 0x80000002)]
/-- A reset token of this device loaded. -/
def token0 : State := { withRegs [(reg .rom 0 0x064, 0x10000)] with token := zeros 176 }
/-- The boot flash address in the protected region, the buffer at the base of core SRAM. -/
def bf0 : State := withRegs [(reg .rom 0 0x120, 0x02001000), (reg .rom 0 0x124, 0x20000000)]
/-- The push window open with no owner. -/
def push0 : State := withRegs [(reg .rom 0 0x118, 1)]
/-- The same in RECOVERY with 64 bytes announced. -/
def push1 : State := { push0 with pushLen := 64, sage := .window true }
/-- Programming conditions hold and FUS_DATA is 5. -/
def fuse0 : State := withRegs [(reg .tem 0 0x0CC, 7000), (reg .tem 0 0x0DC, 5000), (reg .tem 0 0x0E0, 5000), (reg .tem 0 0x0E4, 5000),
  (reg .tem 0 0x0E8, 5000), (reg .fus 0 0x048, 5)]
/-- The first pulse on word 768 with bits 0 and 2 at STRICT. -/
def pulse0 : State := tset { fuse0 with fus := some { steps := [.prog 768 5 true] } } .fusPulse 1000
def pulse2 : State := tset { fuse0 with fus := some { steps := [.prog 768 5 true, .prog 769 6 false] } } .fusPulse 1000
/-- Sage's increment of counter 2 waits. -/
def ctr0 : State := { rom0 with cstOps := [⟨.core 0, false, 2, 0⟩] }
/-- A battery window with VBAT back in limits. -/
def batt0 : State := tset (tset { r0 with tem := { r0.tem with window := true, dipped := true } } .battWin 500) .battOk 100
/-- Seven VFs enabled. -/
def vfs0 : State := { r0 with vfEnable := true, numVfs := 7 }
/-- A HASH job of instance 3 that another node executes, its source at IVA 0x1000. -/
def atsJob : Job := { sub := .inst 3, desc := hash0.take 16 ++ [0, 0x10, 0, 0] ++ hash0.drop 20, st := .running, fwd := some 2 }
/-- A page request of instance 3 in flight under index 3, for a job of tag 5 that waits for it or for the queue. -/
def prg0 (t : Option Nat) : State :=
  { tset (setJob r0 5 { atsJob with fwd := none, st := .faultFetch }) (.prg 3) 7 with prgs := [⟨3, 3, t⟩] }
/-- Its translation leads to 0x5000, and ATS is on. -/
def ats0 : State :=
  { setJob (setPciFn (rset vfs0 (reg .itu 0 0x040) 1) 3 { ats := true }) 5 atsJob with itu := [⟨3, 1, false, 0x5007⟩] }
/-- The I3C target enabled with dynamic address 9. -/
def i3c0 : State := rset (rset r0 (reg .i3c 0 0x040) 1) (reg .i3c 0 0x044) (rget r0 (reg .i3c 0 0x044) ||| 0x89)
theorem succ_ne (w : Word) : w + 1 ≠ w := by bv_omega
/-- Seven VFs, slot 4 LIVE, and resources written for instance 3: 8 tags, rings of 16, 2 slots of context, key slots 16 to 19, two
counters from 68. -/
def slots0 : State :=
  rset (rset (rset (setKslot vfs0 4 { st := .live }) (reg .inst 3 0x08C) 0x00014008) (reg .inst 3 0x090) 0x00040010)
    (reg .inst 3 0x094) 0x00000244
/-- Instance 3 ACTIVE with a LIVE root. -/
def live0 : State := setKslot (setInst slots0 3 { st := .active }) 16 { st := .live, ownerKind := 1, owner := 3 }
/-- Instance 3 FROZEN, and one that waits for its blob. -/
def frozen0 : State := setInst slots0 3 { st := .frozen }
def await0 : State := setInst vfs0 3 { st := .awaitRestore }
/-- VF 3, and the PF. -/
def vf3 : Acc := ⟨0x13, true⟩
def pf0 : Acc := ⟨0x10, true⟩
/-- Node 0 with side E UP and its heartbeat due. -/
def ring0 : State := tset (setSide (rset r0 (reg .lms 1 0x044) 1) 1 { st := .up }) (.heartbeat 1) 7
/-- Node 5 with side E training, and with both sides UP. -/
def node5 : State := setSide (rset (rset r0 (reg .rom 0 0x050) 0x50) (reg .lms 1 0x044) 1) 1 { st := .training }
def both5 : State := setSide (setSide (rset node5 (reg .lms 0 0x044) 1) 1 { st := .up }) 0 { st := .up }
/-- The LINK_HELLO of node 2. -/
def hello17 : Frame17 := { type := 1, dst := 0xFF, src := 2, srcInc := 9, payload := [2, 0, 0, 0, 0, 0] }
/-- Frames of node 0 to node 5. -/
def rd17 : Frame17 := { type := 0x10, flags := 1, dst := 5, src := 0, payload := [0x40, 0x30, 0, 0, 1] }
def wr17 : Frame17 := { type := 0x11, flags := 1, dst := 5, src := 0, payload := [0x40, 0x30, 0, 0, 1, 0, 0, 0, 1, 2, 3, 4] }
def rsp17 : Frame17 := { type := 0x12, flags := 1, dst := 5, src := 0, payload := [0, 0, 0, 0, 1, 2, 3, 4] }
def ev17 : Frame17 := { type := 0x20, dst := 5, src := 0, payload := [9, 0, 0, 0, 1, 2, 3, 4, 0, 0, 0, 0] }
/-- A read of the aperture waits for node 0. -/
def wait17 : State := { both5 with raReqs := [⟨0, 0, false, 0, 0xC00040, none, 1⟩] }
/-- Instance 3 ACTIVE with its ring enabled and a descriptor waiting; a finished job of it. -/
def fetch3 : State :=
  { setInst (rset (rset (rset (rset (rset (rset vfs0 (reg .inst 3 0x058) 0x144) (reg .inst 3 0x08C) 0x00044002) (reg .doorbell 3 0x044) 1)
      (reg .itu 0 0x040) 1) (reg .inst 3 0x040) 0x1000) (reg .inst 3 0x048) 0x1000) 3 { st := .active } with itu := [⟨3, 1, false, 0x5007⟩] }
def doneJ3 : Job := { sub := .inst 3, desc := hash0, st := .running, done := some { status := 0x0C07 } }
def fetch3j : State := setJob fetch3 5 doneJ3
/-- A HASH of 2 KiB running on lane `m`, and all eight lanes busy while a chunk waits. -/
def hash9 : Bytes := hash0.take 24 ++ [0, 8, 0, 0] ++ hash0.drop 28
def laneJob (m : Nat) : Job := { desc := hash9, st := .running, unit := some (0, m) }
def busy8 : State := (List.range 8).foldl (fun s m => setJob s (100 + m) (laneJob m))
  (setPort r0 0 { st := .running, leafReqs := [⟨0, 0, 0, 0⟩] })
/-- A SELF_TEST of every unit. -/
def testA : Bytes := 0x30 :: zeros 51 ++ [6, 0] ++ zeros 10
def jobA : Job := { desc := testA, st := .running }
def endA : State × Job :=
  testAll (job0 .running testA) 0x80 jobA (((testTargets (job0 .running testA) testA).getD []).drop jobA.pos)
/-- 64 events wait. -/
def evfull : State := { both5 with evq := List.replicate 64 (1, 0, 0) }
theorem evfull_len : 64 ≤ (frameTaken evfull 1 ev17).evq.length := by
  have : (frameTaken evfull 1 ev17).evq = List.replicate 64 (1, 0, 0) := rfl
  simp [this]
/-- Node 5 executes remote jobs. -/
def exec5 : State := rset (rset both5 (reg .lms 0 0x084) 0x1000) (reg .cje 0 0x048) 0x00100000
def noexec5 : State := rset both5 (reg .lms 0 0x084) 0x0F32
/-- A HASH job forwarded by node 0. -/
def req17 : Frame17 := { type := 0x30, flags := 1, dst := 5, src := 0, payload := [3, 0, 2, 1] ++ hash0 }
def farJob : Job := { sub := .remote 0 3 2 1, desc := hash0, st := .running }
def far5 : State := setJob exec5 9 farJob
/-- Node 5's own job of instance 3, which node 0 executes. -/
def homeJ5 : Job := { atsJob with fwd := some 0 }
def home5 : State := { setJob both5 5 homeJ5 with itu := [⟨3, 1, false, 0x5007⟩, ⟨3, 0x20002, false, 0x6007⟩] }
def brd17 : Frame17 :=
  { type := 0x31, flags := 1, dst := 5, src := 0, dstInc := both5.incarnation, payload := [5, 0, 0, 0, 0, 0, 0, 0, 8, 0] }
def bwr17 : Frame17 := { brd17 with type := 0x33, payload := [5, 0, 0, 0, 0, 0, 0, 0, 0x7E] }
/-- The same without a translation held, and the read of it that finds none. -/
def home5x : State := setJob both5 5 homeJ5
def brdX : State × List (Nat × Nat) × List Walk × Option TrRes :=
  translateAll (inOrder home5x 1 brd17) 3 1 false 5 0 (pieces 0x1000 8) [⟨true, [], false, false⟩]
/-- An item of a job that instance 3 has no longer. -/
def old5 : State := { both5 with issued := [(3, 0, 0, 5)] }
def done17 : Frame17 := { brd17 with type := 0x34, payload := [5, 0, 0] ++ zeros 17 }
/-- Node 0 fetches 4 bytes from node 5. -/
def fetch0 : State :=
  { setBulk ring0 2 (some ⟨2, 5, false, 0, 0, 4, 0⟩) with raReqs := [⟨5, 0, false, 0, 0, some (2, 0), 1⟩] }
def frsp17 : Frame17 := { type := 0x12, flags := 1, dst := 0, src := 5, payload := [0, 0, 0, 0, 1, 2, 3, 4] }
/-- Node 5's push window is open to the ring. -/
def push5 : State := rset (rset { both5 with sage := .window true } (reg .rom 0 0x118) 1) (reg .lms 0 0x084) 0x2F32
def pd17 : Frame17 := { type := 0x40, flags := 1, dst := 5, src := 0, payload := [8, 0, 0, 0, 1, 2, 3, 4] }
def pc17 : Frame17 := { pd17 with type := 0x41, payload := [0, 0, 0, 0, 1, 0, 0xC3, 0xA5] }
/-- A channel of node 0 pushes to node 5. -/
def chan0 : State := setBulk ring0 2 (some ⟨1, 5, true, 0, 0, 8, 0⟩)
def pr17 : Frame17 := { type := 0x42, flags := 1, dst := 0, src := 5, payload := [7, 0x14, 0, 0] }
/-- Side A of a pair, standbywith its counters reconciled; and with claim 4 in force and driving. -/
def pair0 : State := { rset r0 (reg .rom 0 0x050) 2 with reconciling := false }
def claim0 : State := { pair0 with pair := { claim := 4, mayDrive := true, drove := true } }
/-- Node 5 on the ring as side A, standby, and as a witness. -/
def standby5 : State := { rset both5 (reg .rom 0 0x050) 0x52 with reconciling := false }
def witness5 : State := rset both5 (reg .pair 0 0x044) 0x40
def grant17 : Frame17 := { type := 0x50, flags := 1, dst := 5, src := 0, payload := 3 :: zeros 147 }
def beat17 : Frame17 := { type := 0x51, dst := 5, src := 0, payload := zeros 8 }
def mirror17 : Frame17 := { grant17 with payload := [4, 1, 16, 0, 0, 0, 0, 0, 8, 0, 0, 0, 0, 0, 0, 0, 3, 0, 0, 0, 0, 0, 0, 0] }
def quar17 : Frame17 := { grant17 with payload := [4, 2, 84, 0] ++ zeros 88 }
def firm17 : Frame17 := { grant17 with payload := [4, 0x13, 2, 0, 0, 0, 0, 0, 9, 9] }
def preq17 : Frame17 := { grant17 with payload := [1, 2] }
def preqIn : State :=
  irq { inOrder witness5 1 preq17 with pair := { (inOrder witness5 1 preq17).pair with win := [(0, preq17.payload)] } } .pair 0 7
def mirror17c : Frame17 := { grant17 with payload := [4, 1, 16, 0, 0, 0, 0, 0, 3, 0, 0, 0, 0, 0, 0, 0, 3, 0, 0, 0, 0, 0, 0, 0] }
/-- After reset with a fuse read waiting, and the state a step answers. -/
def queued0 : State := { r0 with pending := [.fuseRead sage 0x101] }
def nextOf : Host.Outcome State Fault Refusal → State
  | .next t => t
  | _ => r0
/-! ### The hypotheses of every clause are met -/

theorem wit_StepRunsTheFrontCommand_1 : ∃ (c : Instr) (rest : List Instr) (s : State), s.pending = c :: rest :=
  ⟨.reconcileDone [], [.romFlow {}], { r0 with pending := [.reconcileDone [], .romFlow {}] }, by decide⟩
theorem wit_StepRunsTheFrontCommand_2 : ∃ (s : State), s.pending = [] ∧ s.rst ≠ .por ∧ s.tbLoss = false ∧ ((s.jobs.all fun e => decide (e.2.st ≠ .squashing)) = true) :=
  ⟨r0, by decide⟩
theorem wit_StepRunsTheFrontCommand_3 : ∃ (s : State), s.pending = [] ∧ (s.rst = .por ∨ s.tbLoss = true) ∧ ((s.jobs.all fun e => decide (e.2.st ≠ .squashing)) = true) :=
  ⟨{ r0 with tbLoss := true }, by decide⟩
theorem wit_RegisterWriteRights_1 : ∃ (s : State) (a : Acc) (k : PageKind) (i o : Nat) (_w : Word), holds k o = true ∧ served s a k i o = true :=
  ⟨r0, sage, .pwr, 0, 0x050, 0xFFFFFFFF, by decide⟩
theorem wit_RegisterWriteRights_2 : ∃ (s : State) (a : Acc) (off size : Nat) (_w : Word) (c : Cause), silent s a = false ∧ (pwrState s = 0 ∨ (a.master ≠ 0x10 ∧ vfOf a = 0)) ∧ off < 0x1000000 ∧ writeCause s a off size = some c ∧ (c ≠ .rights ∨ (pageOf off ≠ .page .bwd 0 ∧ pageOf off ≠ .page .twd 0)) :=
  ⟨r0, ⟨1, true⟩, 0xFFFF, 1, 7, .reserved, by decide⟩
theorem wit_RegisterWriteRights_3 : ∃ (s : State) (a : Acc) (off _size : Nat) (_w : Word) (_inp : BusIn), (silent s a = true ∨ off ≥ 0x1000000) :=
  ⟨r0, sage, 0x1000000, 4, 7, {}, by decide⟩
theorem wit_RegisterWriteRights_4 : ∃ (s : State) (a : Acc) (src : Nat) (w : Word), src < 316 ∧ takes s a .evhRoute (src / 192) (0x100 + 4 * (src % 192)) w = true ∧ sourceAbsent s.part src = false ∧ pageLocked s .evhRoute (src / 192) = false :=
  ⟨r0, sage, 315, 0x1F1, by decide⟩
theorem wit_RegisterWriteRights_5 : ∃ (s : State) (a : Acc) (src : Nat) (w : Word), 316 ≤ src ∧ src < 576 ∧ takes s a .evhRoute (src / 192) (0x100 + 4 * (src % 192)) w = true ∧ sourceAbsent s.part src = false ∧ pageLocked s .evhRoute (src / 192) = false ∧ takenWord s .evhRoute (src / 192) (0x100 + 4 * (src % 192)) w &&& 0x7F00 = 0 :=
  ⟨r0, sage, 575, 0xF1, by decide⟩
theorem wit_RegisterWriteRights_6 : ∃ (s : State) (a : Acc), served s a .cap 0 0x084 = true :=
  ⟨withRegs [(reg .cap 0 0x080, 0x00010101)], sage, by decide⟩
theorem wit_RegisterWriteRights_7 : ∃ (s : State) (_a : Acc) (_write : Bool) (_off _size e n : Nat) (_w : Word) (_c : Cause), pageUp s .cap 0 = true ∧ e = rfld s (reg .cap 0 0x080) 11 8 ∧ n = rfld s (reg .cap 0 0x080) 4 0 :=
  ⟨withRegs [(reg .cap 0 0x080, 0xFFFF0F10)], ⟨0xBF, false⟩, true, 0xFFFFFF, 8, 15, 16, 0xFFFFFFFF, .busy, by decide⟩
theorem wit_PageHeaderCommands_1 : ∃ (s : State) (a : Acc) (k : PageKind) (i page : Nat) (_w : Word), served s a k i 0x010 = true ∧ (k ≠ .twd ∨ s.tbLoss = false) ∧ page * 4096 = reg k i 0 :=
  ⟨withRegs [(reg .fgpMb 15 0x010, 0x307)], sage, .fgpMb, 15, 0x7E, 0xFFFFFFFF, by decide⟩
theorem wit_PageHeaderCommands_2 : ∃ (s : State) (a : Acc) (k : PageKind) (i page : Nat) (_w : Word), served s a k i 0x018 = true ∧ (k ≠ .twd ∨ s.tbLoss = false) ∧ page * 4096 = reg k i 0 :=
  ⟨r0, sage, .fgpMb, 15, 0x7E, 0xFFFFFFFF, by decide⟩
theorem wit_PageHeaderCommands_3 : ∃ (s : State) (a : Acc) (k : PageKind) (i : Nat) (_w : Word), served s a k i 0x014 = true ∧ (k ≠ .twd ∨ s.tbLoss = false) :=
  ⟨r0, sage, .tem, 0, 0xFFFFFFFF, by decide⟩
theorem wit_PageHeaderCommands_4 : ∃ (s : State) (a : Acc) (k : PageKind) (i page : Nat), served s a k i 0x01C = true ∧ (k ≠ .twd ∨ s.tbLoss = false) ∧ page * 4096 = reg k i 0 :=
  ⟨r0, sage, .doorbell, 64, 0x140, by decide⟩
theorem wit_PageHeaderCommands_5 : ∃ (s : State) (a : Acc) (k : PageKind) (i page : Nat) (_w : Word), served s a k i 0x020 = true ∧ (k ≠ .twd ∨ s.tbLoss = false) ∧ page * 4096 = reg k i 0 :=
  ⟨withRegs [(reg .bwd 0 0x020, 0x80480501)], sage, .bwd, 0, 8, 0x80480501, by decide⟩
theorem wit_TimebaseCommands_1 : ∃ (s : State) (a : Acc), silent s a = false ∧ (pwrState s = 0 ∨ (a.master ≠ 0x10 ∧ vfOf a = 0)) ∧ pageUp s .tb 0 = true ∧ mayRead s a (.page .tb 0) = true :=
  ⟨{ r0 with tbTime := 2 ^ 64 - 1 }, sage, by decide⟩
theorem wit_TimebaseCommands_2 : ∃ (s : State) (a : Acc) (_w : Word), served s a .tb 0 0x050 = true ∧ s.dly = none :=
  ⟨r0, sage, 64, by decide⟩
theorem wit_TimebaseCommands_3 : ∃ (s : State) (a : Acc) (_w : Word), served s a .tb 0 0x050 = true ∧ s.dly ≠ none :=
  ⟨{ r0 with dly := some ⟨64, 0, false⟩ }, sage, 64, by decide⟩
theorem wit_TimebaseCommands_4 : ∃ (s : State) (r : DlyRun), running s .dlymon = true ∧ s.dly = some r ∧ r.spoiled = false :=
  ⟨{ tset (withRegs [(reg .tb 0 0x050, 0x40)]) .dlymon 7 with dly := some ⟨64, 0, false⟩ }, ⟨64, 0, false⟩, by decide⟩
theorem wit_TimebaseCommands_5 : ∃ (s : State) (r : DlyRun), running s .dlymon = true ∧ s.dly = some r ∧ r.spoiled = true :=
  ⟨{ tset (withRegs [(reg .tb 0 0x050, 0x40)]) .dlymon 7 with dly := some ⟨64, 0, true⟩ }, ⟨64, 0, true⟩, by decide⟩
theorem wit_TimebaseCommands_6 : ∃ (s : State) (_lost : Bool), s.rst ≠ .por ∧ s.tbLoss = false :=
  ⟨r0, true, by decide⟩
theorem wit_TimebaseCommands_7 : ∃ (s : State) (_lost : Bool), s.rst ≠ .por ∧ s.tbLoss = true :=
  ⟨{ r0 with tbLoss := true }, true, by decide⟩
theorem wit_TimebaseCommands_8 : ∃ (s : State), s.rst = .none ∧ s.tbLoss = true ∧ s.twdLate = [] ∧ s.svc.held = [] ∧ s.svc.stalled = false ∧ s.pair.grantWaits = none ∧ s.bf = none :=
  ⟨{ r0 with tbLoss := true }, by decide⟩
theorem wit_TimebaseCommands_9 : ∃ (s : State), s.rst = .none ∧ s.tbLoss = true ∧ s.tem.met.contains 0x41 = false :=
  ⟨{ r0 with tbLoss := true }, by decide⟩
theorem wit_PlatformReads_1 : ∃ (s t : State) (n : Nat) (op ext : Byte) (g addr len pa w : Nat) (inp : ReadIn) (d : WinDesc), accepts s n op ext (.read g) = true ∧ t = begun s n ∧ pa = readAddr t n op addr ∧ (port t n).st.deciding = true ∧ srcAt (port t n) pa = .resident w d ∧ inp.ready = true ∧ inp.ecc = [] ∧ wrapLen (port t n) op = none ∧ pa % 4096 + len ≤ 4096 ∧ (frame t (d.frm + (pa / 4096 - d.b))).st = .valid :=
  ⟨resident0, begun resident0 0, 0, 0x0B, 0, 0, 0x001004, 8, 0x1004, 0, ⟨[], true, none, []⟩, win0 0x00040001, by decide⟩
theorem wit_PlatformReads_2 : ∃ (s t : State) (n : Nat) (op ext : Byte) (g addr len pa w : Nat) (inp : ReadIn) (d : WinDesc), accepts s n op ext (.read g) = true ∧ t = begun s n ∧ pa = readAddr t n op addr ∧ (port t n).st.deciding = true ∧ srcAt (port t n) pa = .resident w d ∧ inp.ready = true ∧ wrapLen (port t n) op = none ∧ pa % 4096 + len ≤ 4096 ∧ (frame t (d.frm + (pa / 4096 - d.b))).st ≠ .valid :=
  ⟨running0 0x00040001, begun (running0 0x00040001) 0, 0, 0x0B, 0, 0, 0x001004, 8, 0x1004, 0, ⟨[], true, none, []⟩, win0 0x00040001, by decide⟩
theorem wit_PlatformReads_3 : ∃ (s t : State) (n : Nat) (op ext : Byte) (g addr len pa w f c : Nat) (inp : ReadIn) (d : WinDesc), accepts s n op ext (.read g) = true ∧ t = begun s n ∧ pa = readAddr t n op addr ∧ (port t n).st.deciding = true ∧ srcAt (port t n) pa = .resident w d ∧ inp.ready = true ∧ inp.ecc = [] ∧ wrapLen (port t n) op = none ∧ c = 4096 - pa % 4096 ∧ c < len ∧ len ≤ c + 4096 ∧ srcAt (port t n) ((pa / 4096 + 1) * 4096) = .resident w d ∧ f = d.frm + (pa / 4096 - d.b) ∧ (frame t f).st = .valid ∧ (frame t (d.frm + (pa / 4096 + 1 - d.b))).st = .valid :=
  ⟨setFrame resident0 4 { st := .valid, data := [1, 2, 3] }, begun (setFrame resident0 4 { st := .valid, data := [1, 2, 3] }) 0, 0, 0x0B, 0, 0, 0x001FFE, 6, 0x1FFE, 0, 3, 2, ⟨[], true, none, []⟩, win0 0x00040001, by decide⟩
theorem wit_PlatformReads_4 : ∃ (s t : State) (n : Nat) (op ext : Byte) (g addr len pa w c : Nat) (inp : ReadIn) (d : WinDesc), accepts s n op ext (.read g) = true ∧ t = begun s n ∧ pa = readAddr t n op addr ∧ (port t n).st.deciding = true ∧ srcAt (port t n) pa = .resident w d ∧ inp.ready = true ∧ inp.ecc = [] ∧ wrapLen (port t n) op = none ∧ c = 4096 - pa % 4096 ∧ c < len ∧ continues (port t n) (.resident w d) (srcAt (port t n) ((pa / 4096 + 1) * 4096)) (pa / 4096 + 1) = false ∧ (frame t (d.frm + (pa / 4096 - d.b))).st = .valid :=
  ⟨setFrame resident0 17 { st := .valid, data := [] }, begun (setFrame resident0 17 { st := .valid, data := [] }) 0, 0, 0x0B, 0, 0, 0x00FFFE, 6, 0xFFFE, 0, 2, ⟨[], true, none, []⟩, win0 0x00040001, by decide⟩
theorem wit_PlatformReads_5 : ∃ (s t : State) (n : Nat) (op ext : Byte) (g addr len pa w : Nat) (inp : ReadIn) (d : WinDesc), accepts s n op ext (.read g) = true ∧ t = begun s n ∧ pa = readAddr t n op addr ∧ (port t n).st.deciding = true ∧ srcAt (port t n) pa = .forward w d ∧ d.pol ≠ 2 ∧ inp.ready = true ∧ inp.under = none ∧ wrapLen (port t n) op = none ∧ pa % 4096 + len ≤ 4096 ∧ s.tbLoss = false ∧ (port t n).cs0Busy = false :=
  ⟨running0 3, begun (running0 3) 0, 0, 0x0C, 0, 0, 0x001004, 4, 0x1004, 0, ⟨[1, 2, 3, 4], true, none, []⟩, win0 3, by decide⟩
theorem wit_PlatformReads_6 : ∃ (s t : State) (n : Nat) (op ext : Byte) (g addr _len pa w : Nat) (_inp : ReadIn) (d : WinDesc), accepts s n op ext (.read g) = true ∧ t = begun s n ∧ pa = readAddr t n op addr ∧ (port t n).st.deciding = true ∧ srcAt (port t n) pa = .forward w d ∧ s.tbLoss = true :=
  ⟨{ running0 3 with tbLoss := true }, begun { running0 3 with tbLoss := true } 0, 0, 0x0C, 0, 0, 0x001004, 4, 0x1004, 0, ⟨[1, 2, 3, 4], true, none, []⟩, win0 3, by decide⟩
theorem wit_PlatformReads_7 : ∃ (s t : State) (n : Nat) (op ext : Byte) (g addr _len pa w : Nat) (_inp : ReadIn) (d : WinDesc), accepts s n op ext (.read g) = true ∧ t = begun s n ∧ pa = readAddr t n op addr ∧ (port t n).st.deciding = true ∧ srcAt (port t n) pa = .forward w d ∧ s.tbLoss = false ∧ (port t n).cs0Busy = true :=
  ⟨modPort (running0 3) 0 (fun p => { p with cs0Busy := true }), begun (modPort (running0 3) 0 (fun p => { p with cs0Busy := true })) 0, 0, 0x0C, 0, 0, 0x001004, 4, 0x1004, 0, ⟨[1, 2, 3, 4], true, none, []⟩, win0 3, by decide⟩
theorem wit_PlatformReads_8 : ∃ (s t : State) (n : Nat) (op ext : Byte) (g addr len pa w : Nat) (inp : ReadIn) (d : WinDesc) (r : State × Nat), accepts s n op ext (.read g) = true ∧ t = begun s n ∧ pa = readAddr t n op addr ∧ (port t n).st.deciding = true ∧ srcAt (port t n) pa = .forward w d ∧ d.pol = 2 ∧ inp.ready = true ∧ inp.under = none ∧ wrapLen (port t n) op = none ∧ pa % 4096 + len ≤ 4096 ∧ s.tbLoss = false ∧ (port t n).cs0Busy = false ∧ (r = tapPiece (forwardRead t n pa len false) n ⟨platFa (port t n) (pa / 4096 * 4096), w, d.img, d.lf + (pa / 4096 - d.b), [], 0, none⟩ ((List.range len).map fun i => (pa % 4096 + i, inp.data.getD i 0xFF))) :=
  ⟨running0 2, begun (running0 2) 0, 0, 0x0C, 0, 0, 0x001004, 4, 0x1004, 0, ⟨[1, 2, 3, 4], true, none, []⟩, win0 2, tapPiece (forwardRead (begun (running0 2) 0) 0 0x1004 4 false) 0 ⟨0x1000, 0, 0, 1, [], 0, none⟩ [(4, 1), (5, 2), (6, 3), (7, 4)], by decide⟩
theorem wit_PlatformReads_9 : ∃ (s t : State) (n : Nat) (op ext : Byte) (g addr len pa w : Nat) (inp : ReadIn) (d : WinDesc), accepts s n op ext (.read g) = true ∧ t = begun s n ∧ pa = readAddr t n op addr ∧ (port t n).st.deciding = true ∧ srcAt (port t n) pa = .mailbox w d ∧ inp.ready = true ∧ wrapLen (port t n) op = none ∧ pa % 4096 + len ≤ 4096 :=
  ⟨running0 6, begun (running0 6) 0, 0, 0x0C, 0, 0, 0x001204, 4, 0x1204, 0, ⟨[], true, none, []⟩, win0 6, by decide⟩
theorem wit_PlatformReads_10 : ∃ (s t : State) (n : Nat) (op ext : Byte) (g addr _len pa w : Nat) (inp : ReadIn) (d : WinDesc), accepts s n op ext (.read g) = true ∧ t = begun s n ∧ pa = readAddr t n op addr ∧ (port t n).st.deciding = true ∧ (srcAt (port t n) pa = .resident w d ∨ srcAt (port t n) pa = .mailbox w d) ∧ inp.ready = false :=
  ⟨resident0, begun resident0 0, 0, 0x0B, 0, 0, 0x001004, 8, 0x1004, 0, ⟨[], false, none, []⟩, win0 0x00040001, by decide⟩
theorem wit_PlatformReads_11 : ∃ (s t : State) (n : Nat) (op ext : Byte) (g addr _len r : Nat) (_inp : ReadIn) (w : Option Nat), accepts s n op ext (.read g) = true ∧ t = begun s n ∧ (port t n).st.deciding = true ∧ srcAt (port t n) (readAddr t n op addr) = .denied r w :=
  ⟨running0 3, begun (running0 3) 0, 0, 0x0C, 0, 0, 0x100000, 4, 1, ⟨[], true, none, []⟩, none, by decide⟩
theorem wit_PlatformReads_12 : ∃ (s t : State) (n : Nat) (op ext : Byte) (g _addr _len : Nat) (_inp : ReadIn), accepts s n op ext (.read g) = true ∧ t = begun s n ∧ (port t n).st.deciding = false :=
  ⟨r0, begun r0 0, 0, 0x0C, 0, 0, 0x100000, 4, ⟨[], true, none, []⟩, by decide⟩
theorem wit_PlatformReads_13 : ∃ (s t : State) (n : Nat) (op : Byte) (addr len pa w : Nat) (_slow : Bool) (inp : ReadIn) (d : WinDesc), (op = 0x03 ∨ op = 0x13) ∧ accepts s n op 0 (.read 0) = true ∧ t = begun s n ∧ pa = readAddr t n op addr ∧ (port t n).st.deciding = true ∧ srcAt (port t n) pa = .resident w d ∧ inp.ready = true ∧ inp.ecc = [] ∧ pa % 4096 + len ≤ 4096 ∧ (frame t (d.frm + (pa / 4096 - d.b))).st = .valid :=
  ⟨resident0, begun resident0 0, 0, 0x03, 0x001004, 8, 0x1004, 0, false, ⟨[], true, none, []⟩, win0 0x00040001, by decide⟩
theorem wit_PlatformReads_14 : ∃ (s : State) (n : Nat) (op : Byte) (_addr _len : Nat) (_slow : Bool) (_inp : ReadIn), (op = 0x03 ∨ op = 0x13) ∧ accepts s n op 0 (.read 0) = true :=
  ⟨resident0, 0, 0x13, 0x001004, 8, true, ⟨[], true, none, []⟩, by decide⟩
theorem wit_PlatformReads_15 : ∃ (s : State) (n _addr _len : Nat) (ext : Byte), accepts s n 0x5A ext .other = true ∧ (port s n).mode = .m1s :=
  ⟨r0, 0, 0, 16, 0, by decide⟩
theorem wit_PlatformReads_16 : ∃ (s : State) (n _addr _len : Nat) (ext : Byte), accepts s n 0x5A ext .other = true ∧ (port s n).mode = .m1s :=
  ⟨r0, 0, 0, 16, 0, by decide⟩
theorem wit_PlatformReads_17 : ∃ (s : State) (n _addr _len : Nat) (ext : Byte) (_ready : Bool), accepts s n 0x5A ext .other = true ∧ (port s n).mode ≠ .m1s :=
  ⟨setPort r0 0 { mode := .m8d }, 0, 0x31, 16, 0xA5, true, by decide⟩
theorem wit_PlatformReads_18 : ∃ (s : State) (n _len : Nat) (ext : Byte), accepts s n 0x9F ext .other = true :=
  ⟨r0, 1, 6, 0, by decide⟩
theorem wit_PlatformReads_19 : ∃ (s : State) (n _len : Nat) (u : Bool), accepts s n (if u then 0x4B else 0x48) 0 .other = true ∧ (port s n).mode.octal = false :=
  ⟨r0, 0, 8, true, by decide⟩
theorem wit_PlatformWrites_1 : ∃ (s t : State) (n : Nat) (op ext : Byte) (addr pa w : Nat) (data : Bytes) (d : WinDesc), accepts s n op ext .program = true ∧ t = begunWrite s n ∧ (port t n).wel = true ∧ pa = platAddr (port t n) op addr ∧ (¬ ((port t n).mode = .m8d ∧ (pa % 2 = 1 ∨ data.length % 2 = 1))) ∧ (port t n).st.deciding = true ∧ srcAt (port t n) pa = .forward w d ∧ d.pol ≠ 2 ∧ d.progOk = true ∧ (d.pol = 4 → bit (arms t n) w = true) ∧ lastReasons t n = none :=
  ⟨running0 0x13, begunWrite (running0 0x13) 0, 0, 0x12, 0, 0x2000, 0x2000, 0, [0xAB], win0 0x13, by decide⟩
theorem wit_PlatformWrites_2 : ∃ (s t : State) (n : Nat) (op ext : Byte) (addr pa w : Nat) (data : Bytes) (d : WinDesc), accepts s n op ext .program = true ∧ t = begunWrite s n ∧ (port t n).wel = true ∧ pa = platAddr (port t n) op addr ∧ (¬ ((port t n).mode = .m8d ∧ (pa % 2 = 1 ∨ data.length % 2 = 1))) ∧ (port t n).st.deciding = true ∧ srcAt (port t n) pa = .resident w d :=
  ⟨running0 0x11, begunWrite (running0 0x11) 0, 0, 0x12, 0, 0x2000, 0x2000, 0, [0xAB], win0 0x11, by decide⟩
theorem wit_PlatformWrites_3 : ∃ (s t : State) (n : Nat) (op ext : Byte) (addr pa w r : Nat) (data : Bytes) (d : WinDesc), accepts s n op ext .program = true ∧ t = begunWrite s n ∧ (port t n).wel = true ∧ pa = platAddr (port t n) op addr ∧ (¬ ((port t n).mode = .m8d ∧ (pa % 2 = 1 ∨ data.length % 2 = 1))) ∧ (port t n).st.deciding = true ∧ srcAt (port t n) pa = .forward w d ∧ r = (if d.pol = 2 then 3 else if !d.progOk then 5 else if d.pol = 4 ∧ !bit (arms t n) w then 4 else (lastReasons t n).getD 0) ∧ r ≠ 0 :=
  ⟨running0 3, begunWrite (running0 3) 0, 0, 0x12, 0, 0x2000, 0x2000, 0, 5, [0xAB], win0 3, by decide⟩
theorem wit_PlatformWrites_4 : ∃ (s t : State) (n : Nat) (op ext : Byte) (addr pa w : Nat) (data : Bytes) (d : WinDesc), accepts s n op ext .program = true ∧ t = begunWrite s n ∧ (port t n).wel = true ∧ pa = platAddr (port t n) op addr ∧ (port t n).mode = .m8d ∧ (pa % 2 = 1 ∨ data.length % 2 = 1) ∧ (port t n).st.deciding = true ∧ srcAt (port t n) pa = .forward w d :=
  ⟨modPort (running0 0x13) 0 (fun p => { p with mode := .m8d }), begunWrite (modPort (running0 0x13) 0 (fun p => { p with mode := .m8d })) 0, 0, 0x12, 0xED, 0x2000, 0x2000, 0, [0xAB], win0 0x13, by decide⟩
theorem wit_PlatformWrites_5 : ∃ (s t : State) (n : Nat) (op ext : Byte) (addr pa : Nat) (data : Bytes) (win : Option Nat), accepts s n op ext .program = true ∧ t = begunWrite s n ∧ (port t n).wel = true ∧ pa = platAddr (port t n) op addr ∧ (¬ ((port t n).mode = .m8d ∧ (pa % 2 = 1 ∨ data.length % 2 = 1))) ∧ (port t n).st.deciding = true ∧ srcAt (port t n) pa = .denied 1 win :=
  ⟨running0 3, begunWrite (running0 3) 0, 0, 0x12, 0, 0x200000, 0x200000, [0xAB], none, by decide⟩
theorem wit_PlatformWrites_6 : ∃ (s t : State) (n : Nat) (op ext : Byte) (addr pa : Nat) (data : Bytes), accepts s n op ext .program = true ∧ t = begunWrite s n ∧ (port t n).wel = true ∧ pa = platAddr (port t n) op addr ∧ (¬ ((port t n).mode = .m8d ∧ (pa % 2 = 1 ∨ data.length % 2 = 1))) ∧ (port t n).st.deciding = false :=
  ⟨setPort r0 0 { wel := true }, begunWrite (setPort r0 0 { wel := true }) 0, 0, 0x02, 0, 0x2000, 0x2000, [0xAB], by decide⟩
theorem wit_PlatformWrites_7 : ∃ (s t : State) (n : Nat) (op ext : Byte) (addr pa w : Nat) (data : Bytes) (d : WinDesc), accepts s n op ext .program = true ∧ t = begunWrite s n ∧ (port t n).wel = true ∧ pa = platAddr (port t n) op addr ∧ (¬ ((port t n).mode = .m8d ∧ (pa % 2 = 1 ∨ data.length % 2 = 1))) ∧ (port t n).st.deciding = true ∧ srcAt (port t n) pa = .mailbox w d ∧ pa = d.b * 4096 + 0x300 ∧ (port t n).mbState ≠ 1 ∧ data.length = 4 ∧ 1 ≤ fld (wordAtLe data 0) 16 8 ∧ fld (wordAtLe data 0) 16 8 ≤ 256 :=
  ⟨modPort (running0 6) 0 (fun p => { p with wel := true }), begunWrite (modPort (running0 6) 0 (fun p => { p with wel := true })) 0, 0, 0x12, 0, 0x300, 0x300, 0, [7, 1, 0, 0], win0 6, by decide⟩
theorem wit_PlatformWrites_8 : ∃ (s : State) (n : Nat) (op ext : Byte) (_addr : Nat) (_data : Bytes), accepts s n op ext .program = true ∧ (port (begun s n) n).wel = false :=
  ⟨r0, 0, 0x02, 0, 0x2000, [0xAB], by decide⟩
theorem wit_PlatformWrites_9 : ∃ (s t : State) (n : Nat) (b : Bool) (op ext : Byte) (addr pa w : Nat) (d : WinDesc), op = (if b then 0x21 else 0x20) ∧ accepts s n op ext (.erase 4) = true ∧ t = begunWrite s n ∧ (port t n).wel = true ∧ pa = platAddr (port t n) op addr ∧ (port t n).st.deciding = true ∧ srcAt (port t n) pa = .forward w d ∧ d.pol ≠ 2 ∧ d.eraseOk 4 = true ∧ d.b ≤ pa / 4096 ∧ pa / 4096 ≤ d.l ∧ (d.pol = 4 → bit (arms t n) w = true) ∧ lastReasons t n = none :=
  ⟨running0 0xF3, begunWrite (running0 0xF3) 0, 0, true, 0x21, 0, 0x2000, 0x2000, 0, win0 0xF3, by decide⟩
theorem wit_PlatformWrites_10 : ∃ (s t : State) (n : Nat) (b : Bool) (op ext : Byte) (_addr : Nat), op = (if b then 0x21 else 0x20) ∧ accepts s n op ext (.erase 4) = true ∧ t = begunWrite s n ∧ (port t n).wel = true ∧ (port t n).st.deciding = false :=
  ⟨setPort r0 0 { wel := true }, begunWrite (setPort r0 0 { wel := true }) 0, 0, false, 0x20, 0, 0x2000, by decide⟩
theorem wit_PlatformWrites_11 : ∃ (s t : State) (n : Nat) (b : Bool) (op ext : Byte) (addr pa w r : Nat) (d : WinDesc), op = (if b then 0x21 else 0x20) ∧ accepts s n op ext (.erase 4) = true ∧ t = begunWrite s n ∧ (port t n).wel = true ∧ pa = platAddr (port t n) op addr ∧ (port t n).st.deciding = true ∧ srcAt (port t n) pa = .forward w d ∧ (r = (if d.pol = 2 then 3 else if !d.eraseOk 4 then 6 else if pa / 4096 < d.b ∨ d.l < pa / 4096 then 7 else if d.pol = 4 ∧ !bit (arms t n) w then 4 else (lastReasons t n).getD 0)) ∧ r ≠ 0 :=
  ⟨running0 3, begunWrite (running0 3) 0, 0, true, 0x21, 0, 0x2000, 0x2000, 0, 6, win0 3, by decide⟩
theorem wit_PlatformWrites_12 : ∃ (s t : State) (n : Nat) (b : Bool) (op ext : Byte) (addr pa w : Nat) (d : WinDesc), op = (if b then 0x5C else 0x52) ∧ accepts s n op ext (.erase 32) = true ∧ t = begunWrite s n ∧ (port t n).wel = true ∧ pa = platAddr (port t n) op addr ∧ (port t n).st.deciding = true ∧ srcAt (port t n) pa = .forward w d ∧ d.pol ≠ 2 ∧ d.eraseOk 32 = true ∧ d.b ≤ pa / 4096 / 8 * 8 ∧ pa / 4096 / 8 * 8 + 7 ≤ d.l ∧ (d.pol = 4 → bit (arms t n) w = true) ∧ lastReasons t n = none :=
  ⟨running0 0xF3, begunWrite (running0 0xF3) 0, 0, false, 0x52, 0, 0xA000, 0xA000, 0, win0 0xF3, by decide⟩
theorem wit_PlatformWrites_13 : ∃ (s t : State) (n : Nat) (b : Bool) (op ext : Byte) (addr pa w : Nat) (d : WinDesc), op = (if b then 0xDC else 0xD8) ∧ accepts s n op ext (.erase 64) = true ∧ t = begunWrite s n ∧ (port t n).wel = true ∧ pa = platAddr (port t n) op addr ∧ (port t n).st.deciding = true ∧ srcAt (port t n) pa = .forward w d ∧ d.pol ≠ 2 ∧ d.eraseOk 64 = true ∧ d.b ≤ pa / 4096 / 16 * 16 ∧ pa / 4096 / 16 * 16 + 15 ≤ d.l ∧ (d.pol = 4 → bit (arms t n) w = true) ∧ lastReasons t n = none :=
  ⟨running0 0xF3, begunWrite (running0 0xF3) 0, 0, true, 0xDC, 0, 0xF000, 0xF000, 0, win0 0xF3, by decide⟩
theorem wit_PlatformWrites_14 : ∃ (s t : State) (n : Nat) (b : Bool) (op ext : Byte), op = (if b then 0xC7 else 0x60) ∧ accepts s n op ext .latchWrite = true ∧ t = begunWrite s n ∧ (port t n).wel = true :=
  ⟨running0 3, begunWrite (running0 3) 0, 0, true, 0xC7, 0, by decide⟩
theorem wit_PlatformWrites_15 : ∃ (s t : State) (n : Nat) (op : Byte), (op = 0x42 ∨ op = 0x44 ∨ op = 0x36 ∨ op = 0x39 ∨ op = 0x7E ∨ op = 0x98) ∧ accepts s n op 0 .latchWrite = true ∧ t = begunWrite s n ∧ (port t n).wel = true :=
  ⟨running0 3, begunWrite (running0 3) 0, 0, 0x98, by decide⟩
theorem wit_PlatformWrites_16 : ∃ (s : State) (n : Nat) (ext : Byte) (_data : Bytes), accepts s n 0x01 ext .latchWrite = true ∧ (s.locked = false ∨ (port (begun s n) n).wel = false) :=
  ⟨running0 3, 0, 0, [0x40], by decide⟩
theorem wit_PlatformWrites_17 : ∃ (s t : State) (n : Nat) (ext : Byte) (_data : Bytes), accepts s n 0x01 ext .latchWrite = true ∧ t = begunWrite s n ∧ (port t n).wel = true ∧ s.locked = true :=
  ⟨{ running0 3 with locked := true }, begunWrite { running0 3 with locked := true } 0, 0, 0, [0x40], by decide⟩
theorem wit_PlatformWrites_18 : ∃ (s : State) (n : Nat) (b : Bool) (op ext : Byte), op = (if b then 0xC7 else 0x60) ∧ accepts s n op ext .latchWrite = true ∧ (port (begun s n) n).wel = false :=
  ⟨r0, 0, true, 0xC7, 0, by decide⟩
theorem wit_PlatformStateCommands_1 : ∃ (s : State) (n : Nat) (ext : Byte), accepts s n 0x06 ext .other = true :=
  ⟨r0, 0, 0, by decide⟩
theorem wit_PlatformStateCommands_2 : ∃ (s : State) (n : Nat) (ext : Byte), accepts s n 0x04 ext .other = true :=
  ⟨running0 3, 0, 0, by decide⟩
theorem wit_PlatformStateCommands_3 : ∃ (s : State) (n : Nat) (ext : Byte), accepts s n 0x05 ext .other = true :=
  ⟨running0 3, 0, 0, by decide⟩
theorem wit_PlatformStateCommands_4 : ∃ (s : State) (n : Nat) (ext : Byte), accepts s n 0x70 ext .other = true :=
  ⟨running0 3, 0, 0, by decide⟩
theorem wit_PlatformStateCommands_5 : ∃ (s : State) (n : Nat) (ext : Byte), accepts s n 0x35 ext .other = true :=
  ⟨running0 3, 0, 0, by decide⟩
theorem wit_PlatformStateCommands_6 : ∃ (s : State) (n : Nat) (ext : Byte), accepts s n 0x15 ext .other = true :=
  ⟨running0 3, 0, 0, by decide⟩
theorem wit_PlatformStateCommands_7 : ∃ (s : State) (n : Nat) (ext : Byte), accepts s n 0x85 ext .other = true :=
  ⟨running0 3, 0, 0, by decide⟩
theorem wit_PlatformStateCommands_8 : ∃ (s : State) (n addr : Nat) (ext b : Byte) (m : PMode), accepts s n 0x81 ext .latchWrite = true ∧ (port (begun s n) n).wel = true ∧ s.locked = false ∧ rbit s (reg .fgpCtl n 0x040) 5 = true ∧ platAddr (port s n) 0x81 addr = 0 ∧ PMode.ofByte b = some m ∧ (protoSet s n).permits m.code = true :=
  ⟨rset (running0 3) (reg .fgpCtl 0 0x040) 0x1F000020, 0, 0, 0, PMode.m8d.byte, .m8d, by decide⟩
theorem wit_PlatformStateCommands_9 : ∃ (s : State) (n : Nat) (_b : Byte), accepts s n 0x77 0 .other = true ∧ (port s n).mode.octal = false ∧ rbit s (reg .fgpCtl n 0x040) 22 = true :=
  ⟨withRegs [(reg .fgpCtl 0 0x040, 0x400000)], 0, 0x60, by decide⟩
theorem wit_PlatformStateCommands_10 : ∃ (s : State) (n : Nat), accepts s n 0xB7 0 .other = true :=
  ⟨r0, 0, by decide⟩
theorem wit_PlatformStateCommands_11 : ∃ (s : State) (n : Nat), accepts s n 0xE9 0 .other = true :=
  ⟨r0, 0, by decide⟩
theorem wit_PlatformStateCommands_12 : ∃ (s : State) (n : Nat) (ext : Byte), accepts s n 0x66 ext .other = true :=
  ⟨r0, 0, 0, by decide⟩
theorem wit_PlatformStateCommands_13 : ∃ (s : State) (n : Nat) (ext : Byte), accepts s n 0x99 ext .other = true ∧ (port s n).rstEn = true :=
  ⟨setPort r0 0 { rstEn := true, addr4 := true, wel := true }, 0, 0, by decide⟩
theorem wit_PlatformStateCommands_14 : ∃ (s : State) (n : Nat) (op ext : Byte), op ∈ ([0x75, 0x7A, 0xB0, 0x30, 0xB9, 0xAB] : Bytes) ∧ accepts s n op ext .other = true :=
  ⟨r0, 0, 0xAB, 0, by decide⟩
theorem wit_PlatformStateCommands_15 : ∃ (s : State) (n : Nat) (op ext : Byte), portOn s n = true ∧ opClass (port s n).mode op = none ∧ ((port s n).mode.octal = false ∨ extOk s n op ext = true) :=
  ⟨r0, 0, 0xFF, 0, by decide⟩
theorem wit_FlashSideEvents_1 : ∃ (s : State) (n : Nat) (c : LiveCmd), portOn s n = true ∧ (port s n).live = some c ∧ c.writes = false ∧ (port s n).pub = none ∧ (port s n).seq ≠ .raising [] :=
  ⟨setPort r0 0 { live := some { clearsWel := true }, wel := true }, 0, { clearsWel := true }, by decide⟩
theorem wit_FlashSideEvents_2 : ∃ (s : State) (n : Nat) (c : LiveCmd), portOn s n = true ∧ (port s n).live = some c ∧ c.writes = true ∧ (port s n).pub = none ∧ (port s n).seq ≠ .raising [] :=
  ⟨setPort r0 0 { live := some { clearsWel := true, writes := true }, wel := true }, 0, { clearsWel := true, writes := true }, by decide⟩
theorem wit_FlashSideEvents_3 : ∃ (s : State) (n q len : Nat), portOn s n = true ∧ (port s n).live = none ∧ (port s n).pub = some (q, len) ∧ (port s n).seq ≠ .raising [] :=
  ⟨setPort r0 0 { pub := some (3, 8) }, 0, 3, 8, by decide⟩
theorem wit_FlashSideEvents_4 : ∃ (s : State) (n : Nat), portOn s n = true ∧ (port s n).live = none ∧ (port s n).pub = none ∧ (port s n).act = true ∧ (port s n).seq = .raising [] :=
  ⟨setPort r0 0 { act := true, seq := .raising [] }, 0, by decide⟩
theorem wit_FlashSideEvents_5 : ∃ (s : State) (n : Nat), portOn s n = true ∧ (port s n).cs0Busy = true ∧ (port s n).live.any (·.forwards) = false ∧ running s (.busyPoll n) = true :=
  ⟨tset (setPort r0 0 { cs0Busy := true }) (.busyPoll 0) 200, 0, by decide⟩
theorem wit_FlashSideEvents_6 : ∃ (s : State) (n : Nat), portOn s n = true ∧ (port s n).cs0Busy = true ∧ (port s n).live.any (·.forwards) = false ∧ running s (.busyPoll n) = true :=
  ⟨tset (setPort r0 0 { cs0Busy := true }) (.busyPoll 0) 200, 0, by decide⟩
theorem wit_FlashSideEvents_7 : ∃ (s : State) (n : Nat), portOn s n = true ∧ (port s n).cs0Busy = true ∧ running s (.busyMax n) = true :=
  ⟨tset (setPort r0 0 { cs0Busy := true }) (.busyMax 0) (ms 5), 0, by decide⟩
theorem wit_FlashSideEvents_8 : ∃ (s : State) (n : Nat), portOn s n = true ∧ running s (.rstPulse n) = true :=
  ⟨tset r0 (.rstPulse 0) 1000, 0, by decide⟩
theorem wit_FlashSideEvents_9 : ∃ (s : State) (n : Nat), portOn s n = true ∧ running s (.rstQuiet n) = true :=
  ⟨tset r0 (.rstQuiet 0) 5000, 0, by decide⟩
theorem wit_PortCommands_1 : ∃ (s : State) (a : Acc) (n : Nat), takes s a .fgpCtl n 0x084 1 = true ∧ cmdBusy s n = false ∧ s.locked = false ∧ (port s n).st = .held ∧ startBad s n false = none :=
  ⟨ready0, sage, 0, by decide⟩
theorem wit_PortCommands_2 : ∃ (s : State) (a : Acc) (n : Nat), takes s a .fgpCtl n 0x084 2 = true ∧ cmdBusy s n = false ∧ s.locked = false ∧ (port s n).st = .releasePending ∧ fld (checkNow s n) 15 0 ≠ 0x0E15 ∧ fld (checkNow s n) 15 0 ≠ 0x0E17 :=
  ⟨setPort ready0 0 { st := .releasePending }, sage, 0, by decide⟩
theorem wit_PortCommands_3 : ∃ (s : State) (a : Acc) (n : Nat), takes s a .fgpCtl n 0x084 2 = true ∧ cmdBusy s n = false ∧ s.locked = false ∧ (port s n).st = .updateStaged :=
  ⟨setPort r0 0 { st := .updateStaged }, sage, 0, by decide⟩
theorem wit_PortCommands_4 : ∃ (s : State) (a : Acc) (n : Nat), takes s a .fgpCtl n 0x084 3 = true ∧ cmdBusy s n = false ∧ (port s n).st ≠ .held ∧ (port s n).st ≠ .quarantined ∧ (port s n).st ≠ .recovering ∧ (port s n).seq ≠ .copy ∧ (port s n).act = false :=
  ⟨setPort r0 0 { st := .running, prst := true }, sage, 0, by decide⟩
theorem wit_PortCommands_5 : ∃ (s : State) (a : Acc) (n : Nat), takes s a .fgpCtl n 0x084 3 = true ∧ cmdBusy s n = true ∧ (port s n).st ≠ .held ∧ (port s n).st ≠ .quarantined ∧ (port s n).act = true ∧ (port s n).seq = .treeLoad :=
  ⟨setPort (withRegs [(reg .fgpCtl 0 0x088, 0x00150000)]) 0 { st := .updateStaged, act := true, seq := .treeLoad }, sage, 0, by decide⟩
theorem wit_PortCommands_6 : ∃ (s : State) (a : Acc) (n : Nat), takes s a .fgpCtl n 0x084 3 = true ∧ cmdBusy s n = false ∧ (port s n).st = .held :=
  ⟨r0, sage, 0, by decide⟩
theorem wit_PortCommands_7 : ∃ (s : State) (a : Acc) (n : Nat), takes s a .fgpCtl n 0x084 4 = true ∧ cmdBusy s n = false ∧ s.locked = false ∧ (port s n).st = .running :=
  ⟨setPort r0 0 { st := .running }, sage, 0, by decide⟩
theorem wit_PortCommands_8 : ∃ (s : State) (a : Acc) (n : Nat) (m : Manifest), takes s a .fgpCtl n 0x084 5 = true ∧ cmdBusy s n = false ∧ s.locked = false ∧ (port s n).st = .updateStaged ∧ (port s n).staged = some m :=
  ⟨setPort r0 0 { st := .updateStaged, staged := some default }, sage, 0, default, by decide⟩
theorem wit_PortCommands_9 : ∃ (s : State) (a : Acc) (n : Nat), takes s a .fgpCtl n 0x084 5 = true ∧ cmdBusy s n = false ∧ s.locked = false ∧ (port s n).st = .updateStaged ∧ (port s n).staged = none :=
  ⟨setPort r0 0 { st := .updateStaged }, sage, 0, by decide⟩
theorem wit_PortCommands_10 : ∃ (s : State) (a : Acc) (n : Nat), takes s a .fgpCtl n 0x084 6 = true ∧ cmdBusy s n = false ∧ s.locked = false ∧ (port s n).st = .held ∧ startBad s n true = none :=
  ⟨rsetf ready0 (reg .fgpCtl 0 0x04C) 3 3 1, sage, 0, by decide⟩
theorem wit_PortCommands_11 : ∃ (s : State) (a : Acc) (n : Nat), takes s a .fgpCtl n 0x084 6 = true ∧ cmdBusy s n = false ∧ s.locked = false ∧ (port s n).st = .quarantined ∧ startBad s n true = none :=
  ⟨setPort (rsetf ready0 (reg .fgpCtl 0 0x04C) 3 3 1) 0 { st := .quarantined }, sage, 0, by decide⟩
theorem wit_PortCommands_12 : ∃ (s : State) (a : Acc) (n : Nat), takes s a .fgpCtl n 0x084 7 = true ∧ cmdBusy s n = false ∧ s.locked = false ∧ (port s n).st = .quarantined :=
  ⟨setPort r0 0 { st := .quarantined }, sage, 0, by decide⟩
theorem wit_PortCommands_13 : ∃ (s : State) (a : Acc) (n c : Nat), takes s a .fgpCtl n 0x084 (BitVec.ofNat 32 c) = true ∧ c < 16 ∧ (c = 0 ∨ 7 < c) :=
  ⟨r0, sage, 0, 9, by decide⟩
theorem wit_PortCommands_14 : ∃ (s : State) (a : Acc) (n c : Nat), takes s a .fgpCtl n 0x084 (BitVec.ofNat 32 c) = true ∧ 1 ≤ c ∧ c ≤ 7 ∧ c ≠ 3 ∧ cmdBusy s n = true :=
  ⟨withRegs [(reg .fgpCtl 0 0x088, 0x00150000)], sage, 0, 4, by decide⟩
theorem wit_PortCommands_15 : ∃ (s : State) (a : Acc) (n c : Nat), takes s a .fgpCtl n 0x084 (BitVec.ofNat 32 c) = true ∧ 1 ≤ c ∧ c ≤ 7 ∧ c ≠ 3 ∧ cmdBusy s n = false ∧ s.locked = true :=
  ⟨{ r0 with locked := true }, sage, 0, 4, by decide⟩
theorem wit_PortCommands_16 : ∃ (s : State) (a : Acc) (n c : Nat), takes s a .fgpCtl n 0x084 (BitVec.ofNat 32 c) = true ∧ 1 ≤ c ∧ c ≤ 7 ∧ cmdBusy s n = false ∧ s.locked = false ∧ (c, (port s n).st) ∉ [(1, PortSt.held), (2, .releasePending), (2, .updateStaged), (4, .running), (5, .updateStaged), (6, .held), (6, .quarantined), (7, .quarantined)] ∧ (c = 3 → (port s n).st = .quarantined) :=
  ⟨r0, sage, 0, 4, by decide⟩
theorem wit_PortCommands_17 : ∃ (s : State) (a : Acc) (n code : Nat), takes s a .fgpCtl n 0x084 1 = true ∧ cmdBusy s n = false ∧ s.locked = false ∧ (port s n).st = .held ∧ startBad s n false = some code :=
  ⟨withRegs [(reg .fgpWin 0 0x040, 0x0E11)], sage, 0, 0x0E11, by decide⟩
theorem wit_PortConfigurationWrites_1 : ∃ (s : State) (a : Acc) (k : PageKind) (n o : Nat) (r : LatchedReg) (d : Word), latchedOff n r = reg k n o ∧ (k = .fgpCtl ∨ k = .fgpWin) ∧ takes s a k n o d = true ∧ (port s n).st = .held :=
  ⟨r0, sage, .fgpWin, 0, 0x2F4, .winLimit 31, 0x1000, by decide⟩
theorem wit_PortConfigurationWrites_2 : ∃ (s : State) (a : Acc) (k : PageKind) (n o : Nat) (r : LatchedReg) (d : Word), latchedOff n r = reg k n o ∧ (k = .fgpCtl ∨ k = .fgpWin) ∧ takes s a k n o d = true ∧ (port s n).st ≠ .held :=
  ⟨running0 3, sage, .fgpCtl, 0, 0x09C, .frameRange, 0x10000, by decide⟩
theorem wit_PortConfigurationWrites_3 : ∃ (s : State) (a : Acc) (n o : Nat) (r : ProtoReg) (d : Word), protoOff n r = reg .fgpCtl n o ∧ takes s a .fgpCtl n o d = true ∧ (port s n).st ≠ .held :=
  ⟨running0 3, sage, 0, 0x050, .flashRdop, 0x0C, by decide⟩
theorem wit_PortConfigurationWrites_4 : ∃ (s : State) (a : Acc) (n : Nat) (d : Word), takes s a .fgpCtl n 0x044 d = true ∧ (port s n).st = .held ∧ pageLocked s .fgpCtl n = false :=
  ⟨r0, sage, 0, 0x8, by decide⟩
theorem wit_PortConfigurationWrites_5 : ∃ (s t : State) (a : Acc) (n : Nat) (d v : Word), takes s a .fgpCtl n 0x040 d = true ∧ (port s n).st = .held ∧ pageLocked s .fgpCtl n = false ∧ v = takenWord s .fgpCtl n 0x040 d ∧ protoCfgBad v = none ∧ t = recheck (rset s (reg .fgpCtl n 0x040) v) n ∧ lineRateOk (protoSet t n) = true ∧ dummyOk (protoSet t n) = true :=
  ⟨ready0, recheck (rset ready0 (reg .fgpCtl 0 0x040) 0x01051680) 0, sage, 0, 0x01051680, 0x01051680, by decide⟩
theorem wit_PortConfigurationWrites_6 : ∃ (s : State) (a : Acc) (n code : Nat) (d : Word), takes s a .fgpCtl n 0x040 d = true ∧ (port s n).st = .held ∧ pageLocked s .fgpCtl n = false ∧ protoCfgBad (takenWord s .fgpCtl n 0x040 d) = some code :=
  ⟨r0, sage, 0, 0x0E03, 5, by decide⟩
theorem wit_PortConfigurationWrites_7 : ∃ (s t : State) (a : Acc) (n : Nat) (d v : Word), takes s a .fgpCtl n 0x04C d = true ∧ (port s n).st = .held ∧ pageLocked s .fgpCtl n = false ∧ v = takenWord s .fgpCtl n 0x04C d ∧ flashCfgBad (protoSet s n).m v = none ∧ t = rset s (reg .fgpCtl n 0x04C) v ∧ lineRateOk (protoSet t n) = true ∧ dummyOk (protoSet t n) = true :=
  ⟨ready0, rset ready0 (reg .fgpCtl 0 0x04C) 0x4402, sage, 0, 0x4402, 0x4402, by decide⟩
theorem wit_PortConfigurationWrites_8 : ∃ (s t : State) (a : Acc) (n : Nat) (d v : Word), takes s a .fgpCtl n 0x054 d = true ∧ (port s n).st = .held ∧ pageLocked s .fgpCtl n = false ∧ v = takenWord s .fgpCtl n 0x054 d ∧ fsckBad (protoSet s n).flashMode v = none ∧ t = rset s (reg .fgpCtl n 0x054) v ∧ lineRateOk (protoSet t n) = true ∧ dummyOk (protoSet t n) = true :=
  ⟨ready0, rset ready0 (reg .fgpCtl 0 0x054) 5, sage, 0, 5, 5, by decide⟩
theorem wit_PortConfigurationWrites_9 : ∃ (s t : State) (a : Acc) (n : Nat) (d v : Word), takes s a .fgpCtl n 0x050 d = true ∧ (port s n).st = .held ∧ pageLocked s .fgpCtl n = false ∧ v = takenWord s .fgpCtl n 0x050 d ∧ t = rset s (reg .fgpCtl n 0x050) v ∧ dummyOk (protoSet t n) = true :=
  ⟨ready0, rset ready0 (reg .fgpCtl 0 0x050) 0x01080B0C, sage, 0, 0x01080B0C, 0x01080B0C, by decide⟩
theorem wit_PortConfigurationWrites_10 : ∃ (s : State) (a : Acc) (n : Nat) (d v : Word), takes s a .fgpWin n 0x044 d = true ∧ v = takenWord s .fgpWin n 0x044 d &&& armable s n ∧ v ≠ 0 ∧ takenWord s .fgpWin n 0x044 d &&& ~~~armable s n = 0 :=
  ⟨rset (running0 0x14) (reg .fgpWin 0 0x048) 1, sage, 0, 1, 1, by decide⟩
theorem wit_PortConfigurationWrites_11 : ∃ (s : State) (a : Acc) (n : Nat) (d v : Word), takes s a .fgpWin n 0x044 d = true ∧ takenWord s .fgpWin n 0x044 d &&& armable s n = 0 ∧ v = takenWord s .fgpWin n 0x044 d :=
  ⟨rset (running0 0x14) (reg .fgpWin 0 0x048) 1, sage, 0, 2, 2, by decide⟩
theorem wit_PortConfigurationWrites_12 : ∃ (s : State) (a : Acc) (n : Nat) (d : Word), takes s a .fgpMb n 0x04C d = true ∧ bit d 31 = true ∧ fld d 16 8 ≤ 256 ∧ (port s n).mbState = 1 ∧ (port s n).live.isSome = true :=
  ⟨setPort r0 0 { mbState := 1, live := some {} }, sage, 0, 0x80000805, by decide⟩
theorem wit_PortConfigurationWrites_13 : ∃ (s : State) (a : Acc) (n : Nat) (d : Word), takes s a .fgpMb n 0x04C d = true ∧ bit d 31 = true ∧ fld d 16 8 ≤ 256 ∧ (port s n).mbState = 1 ∧ (port s n).live = none :=
  ⟨setPort r0 0 { mbState := 1 }, sage, 0, 0x80000805, by decide⟩
theorem wit_PortConfigurationWrites_14 : ∃ (s : State) (a : Acc) (n : Nat) (d : Word), takes s a .fgpMb n 0x04C d = true ∧ bit d 31 = true ∧ (256 < fld d 16 8 ∨ (port s n).mbState ≠ 1) :=
  ⟨r0, sage, 0, 0x80000805, by decide⟩
theorem wit_PortConfigurationWrites_15 : ∃ (s : State) (n q len : Nat), portOn s n = true ∧ (port s n).live = none ∧ (port s n).pub = some (q, len) :=
  ⟨setPort r0 0 { mbState := 1, pub := some (5, 8) }, 0, 5, 8, by decide⟩
theorem wit_PortSequences_1 : ∃ (s : State) (n cs : Nat) (ds : List Bytes), (port s n).seq = .treeLoad ∧ cs = (if (port s n).st = .recovering then 1 else 0) ∧ ownEnds s n cs .tree = true ∧ treesBad (treesToLoad s n) ds = none :=
  ⟨setPort calm 0 { st := .recovering, seq := .treeLoad }, 0, 1, [], by decide⟩
theorem wit_PortSequences_2 : ∃ (s : State) (n cs code : Nat) (ds : List Bytes), portOn s n = true ∧ (port s n).seq = .treeLoad ∧ cs = (if (port s n).st = .recovering then 1 else 0) ∧ ownEnds s n cs .tree = true ∧ treesBad (treesToLoad s n) ds = some code :=
  ⟨setPort (withRegs [(reg .fgpWin 0 0x108, 0x00040001)]) 0 { st := .measuring, seq := .treeLoad, trees := [⟨0, [], 1, 0, false, 0⟩], own := [(.tree, 1, 0)] }, 0, 0, 0x1001, [], by decide⟩
theorem wit_PortSequences_3 : ∃ (s : State) (n : Nat), portOn s n = true ∧ s.locked = false ∧ (port s n).seq = .relD1 ∧ running s (.relD1 n) = true :=
  ⟨tset (setPort r0 0 { st := .running, seq := .relD1 }) (.relD1 0) 101, 0, by decide⟩
theorem wit_PortSequences_4 : ∃ (s : State) (n : Nat), portOn s n = true ∧ s.locked = false ∧ (port s n).seq = .relD2 ∧ (port s n).act = false ∧ running s (.relD2 n) = true :=
  ⟨tset (setPort r0 0 { st := .running, seq := .relD2 }) (.relD2 0) 101, 0, by decide⟩
theorem wit_PortSequences_5 : ∃ (s : State) (n : Nat), portOn s n = true ∧ s.locked = false ∧ (port s n).seq = .relD2 ∧ (port s n).act = true ∧ running s (.relD2 n) = true :=
  ⟨tset (setPort r0 0 { st := .updateStaged, seq := .relD2, act := true }) (.relD2 0) 101, 0, by decide⟩
theorem wit_PortSequences_6 : ∃ (s : State) (n : Nat) (m : Manifest), portOn s n = true ∧ (port s n).seq = .actQuiesce ∧ (port s n).live = none ∧ (port s n).blocks = [] ∧ s.locked = false ∧ (port s n).next = some m ∧ m.entries ≠ [] ∧ (s.cstOps.any (fun o => o.req == .port n) = false) :=
  ⟨setPort r0 0 { st := .updateStaged, seq := .actQuiesce, act := true, next := some ⟨[], [], [entry0]⟩ }, 0, ⟨[], [], [entry0]⟩, by decide⟩
theorem wit_PortSequences_7 : ∃ (s : State) (n : Nat) (g : Golden) (bs : List BlkRead), (port s n).seq = .goldenVerify ∧ ownEnds s n 1 .verify = true ∧ (port s n).golden = some g ∧ (goldenBlocks s n g).length ≤ bs.length ∧ (goldVerify n g (goldenBlocks s n g) bs s).2 = true :=
  ⟨setPort calm 0 { st := .recovering, seq := .goldenVerify, golden := some default }, 0, default, [], by decide⟩
theorem wit_PortSequences_8 : ∃ (s : State) (n : Nat) (g : Golden) (bs : List BlkRead), (port s n).seq = .goldenVerify ∧ ownEnds s n 1 .verify = true ∧ (port s n).golden = some g ∧ (goldenBlocks s n g).length ≤ bs.length ∧ (goldVerify n g (goldenBlocks s n g) bs s).2 = false :=
  ⟨setPort (rset calm (reg .fgpWin 0 0x108) 0x00040001) 0 { st := .recovering, seq := .goldenVerify, golden := some ⟨0, 0, 64, []⟩, own := [(.verify, 9, 0)] }, 0, ⟨0, 0, 64, []⟩, [⟨[], [], [], .clean⟩], by decide⟩
theorem wit_PortSequences_9 : ∃ (s t : State) (n b : Nat) (g : Golden) (bs _again : List BlkRead) (r1 _r2 : List Bytes) (busyAt : Option Nat), (port s n).seq = .copy ∧ (port s n).unitOn = true ∧ bs.length = 16 ∧ flashFree s n = true ∧ ownEnds s n 1 .copy = true ∧ (port s n).golden = some g ∧ b = rfld s (reg .fgpCtl n 0x0A8) 15 0 ∧ (copyPass s n g b 0 busyAt bs r1).2 = some false ∧ t = ownClear (rsetf (copyPass s n g b 0 busyAt bs r1).1 (reg .fgpCtl n 0x0A8) 15 0 (b + 16)) n .copy :=
  ⟨copy0, ownClear (rsetf (copyPass copy0 0 ⟨0, 0, 64, []⟩ 0 0 none (List.replicate 16 ⟨[1], [1], [], .clean⟩) (List.replicate 16 [1])).1 (reg .fgpCtl 0 0x0A8) 15 0 16) 0 .copy, 0, 0, ⟨0, 0, 64, []⟩, List.replicate 16 ⟨[1], [1], [], .clean⟩, [], List.replicate 16 [1], [], none, ⟨by decide, by decide, by decide, by decide, by decide, by decide, by decide, copyPass_same _ 0 0 [1] copy0_plain, rfl⟩⟩
theorem wit_PortSequences_10 : ∃ (s t : State) (n b : Nat) (g : Golden) (bs again : List BlkRead) (r1 r2 : List Bytes) (busyAt : Option Nat), (port s n).seq = .copy ∧ (port s n).unitOn = true ∧ bs.length = 16 ∧ flashFree s n = true ∧ ownEnds s n 1 .copy = true ∧ (port s n).golden = some g ∧ b = rfld s (reg .fgpCtl n 0x0A8) 15 0 ∧ (copyPass s n g b 0 busyAt bs r1).2 = some true ∧ t = ownClear (copyPass s n g b 0 busyAt bs r1).1 n .copy ∧ (copyPass t n g b 257 busyAt again r2).2 = some true :=
  ⟨copy0, ownClear (copyPass copy0 0 ⟨0, 0, 64, []⟩ 0 0 none (blk1 :: List.replicate 15 blk1) []).1 0 .copy, 0, 0, ⟨0, 0, 64, []⟩, blk1 :: List.replicate 15 blk1, [blk1], [], [], none, ⟨by decide, by decide, by decide, by decide, by decide, by decide, by decide, copyPass_differs _ 0 0 blk1 _ copy0_plain blk1_differs, rfl, copyPass_differs _ 0 257 blk1 _ (ownClear_plain .copy (plainWins_regs 0 (copyPass_regs copy0_plain) copy0_plain)) blk1_differs⟩⟩
theorem wit_PortSequences_11 : ∃ (s : State) (n b : Nat) (g : Golden) (bs _again : List BlkRead) (r1 _r2 : List Bytes) (busyAt : Option Nat), (port s n).seq = .copy ∧ (port s n).unitOn = true ∧ bs.length = 16 ∧ flashFree s n = true ∧ ownEnds s n 1 .copy = true ∧ (port s n).golden = some g ∧ b = rfld s (reg .fgpCtl n 0x0A8) 15 0 ∧ (copyPass s n g b 0 busyAt bs r1).2 = none :=
  ⟨copy0, 0, 0, ⟨0, 0, 64, []⟩, List.replicate 16 ⟨[1], [1], [], .clean⟩, [], [], [], some 0, by decide⟩
theorem wit_VerifiedStoreEvents_1 : ∃ (s t : State) (n cs : Nat) (_data : Bytes) (r : LeafReq) (rest : List LeafReq) (c : TreeCtx), ownReads s n .leaf ≠ [] ∧ cs = (if (port s n).st = .recovering then 1 else 0) ∧ ownEnds s n cs .leaf = true ∧ t = flashHash (ownWhole s n .leaf) 2 ∧ (port t n).leafReqs = r :: rest ∧ treeOf (port t n) r.image = some c ∧ (frame t (c.first + r.leaf / 2 / 64)).st = .valid :=
  ⟨tree0, flashHash (ownWhole tree0 0 .leaf) 2, 0, 0, zeros 64, ⟨0, 0, 0, 0⟩, [], ⟨0, [], 1, 0, false, 8⟩, by decide⟩
theorem wit_VerifiedStoreEvents_2 : ∃ (s t : State) (n cs : Nat) (_data : Bytes) (e : EccRes) (r : LeafReq) (rest : List LeafReq) (c : TreeCtx), ownReads s n .leaf ≠ [] ∧ cs = (if (port s n).st = .recovering then 1 else 0) ∧ ownEnds s n cs .leaf = true ∧ t = flashHash (ownWhole s n .leaf) 2 ∧ (port t n).leafReqs = r :: rest ∧ treeOf (port t n) r.image = some c ∧ (frame t (c.first + r.leaf / 2 / 64)).st ≠ .valid ∧ e = .clean :=
  ⟨setFrame tree0 8 {}, flashHash (ownWhole (setFrame tree0 8 {}) 0 .leaf) 2, 0, 0, zeros 64, .clean, ⟨0, 0, 0, 0⟩, [], ⟨0, [], 1, 0, false, 8⟩, by decide⟩
theorem wit_VerifiedStoreEvents_3 : ∃ (s t : State) (n w b : Nat) (again : Bool) (data leaf x : Bytes) (d : WinDesc) (r : LeafReq), ownEnds s n 0 .fill = true ∧ t = flashHash (ownWhole s n .fill) 33 ∧ (port t n).seq = .fill w b again ∧ (wins t n)[w]? = some d ∧ r = fillReq t n w b d ∧ cachedLeaf (port t n) r.image r.leaf = some leaf ∧ x = sliceZ data 0 4096 :=
  ⟨fill0, flashHash (ownWhole fill0 0 .fill) 33, 0, 0, 0, false, [1], zeros 64, sliceZ [1] 0 4096, (wins fill0 0).getD 0 ⟨0, 0, 0, 0⟩, fillReq (flashHash (ownWhole fill0 0 .fill) 33) 0 0 0 ((wins fill0 0).getD 0 ⟨0, 0, 0, 0⟩), ⟨by decide, rfl, by decide, by decide, rfl, by decide, rfl⟩⟩
theorem wit_VerifiedStoreEvents_4 : ∃ (s t : State) (n w b : Nat) (again : Bool) (_data : Bytes) (d : WinDesc), ownEnds s n 0 .fill = true ∧ t = flashHash (ownWhole s n .fill) 33 ∧ (port t n).seq = .fill w b again ∧ (wins t n)[w]? = some d ∧ cachedLeaf (port t n) (fillReq t n w b d).image (fillReq t n w b d).leaf = none :=
  ⟨modPort fill0 0 fun p => { p with cache := [] }, (let s := modPort fill0 0 fun p => { p with cache := [] }; flashHash (ownWhole s 0 .fill) 33), 0, 0, 0, false, [1], (wins fill0 0).getD 0 ⟨0, 0, 0, 0⟩, by decide⟩
theorem wit_VerifiedStoreEvents_5 : ∃ (s t : State) (n f : Nat) (rest : List Nat) (data leaf x : Bytes) (fr : Frame), ownReads s n .refill ≠ [] ∧ ownEnds s n 0 .refill = true ∧ t = flashHash (ownWhole s n .refill) 33 ∧ (port t n).refills = f :: rest ∧ (port t n).st.refills = true ∧ (port t n).filling = false ∧ fr = frame t f ∧ cachedLeaf (port t n) fr.image fr.leaf = some leaf ∧ x = sliceZ data 0 4096 :=
  ⟨refill0, flashHash (ownWhole refill0 0 .refill) 33, 0, 5, [], [1], zeros 64, sliceZ [1] 0 4096, {}, ⟨by decide, by decide, rfl, by decide, by decide, by decide, by decide, by decide, rfl⟩⟩
theorem wit_VerifiedStoreEvents_6 : ∃ (s : State) (n fa lane p : Nat) (b : OpenBlk), hashNext s = some n ∧ lane < s.part.lanes ∧ laneTakes s lane = true ∧ openAt (port s n) fa = some b ∧ (p = segmentEnd b (if (List.range 16).any (fun m => decide (m ≠ n) && chunkReady s m) then 1 else 32) b.ptr) ∧ p ≠ b.ptr :=
  ⟨full0, 0, 0x1000, 7, 4096, fullTo 4096, hashNext_full, by decide, by decide, openAt_full 4096 _ rfl, segment_full.symm, (by omega : (4096 : Nat) ≠ 3968)⟩
theorem wit_VerifiedStoreEvents_7 : ∃ (s : State) (n fa : Nat) (b : OpenBlk) (leaf : Bytes), portOn s n = true ∧ openAt (port s n) fa = some b ∧ b.has 0 4096 = true ∧ 3968 ≤ b.ptr ∧ cachedLeaf (port s n) b.image b.leaf = some leaf :=
  ⟨full0, 0, 0x1000, fullTo 4096, zeros 64, by rfl, openAt_full 4096 _ rfl, fullTo_has 4096, Nat.le_refl _, by rfl⟩
theorem wit_VerifiedStoreEvents_8 : ∃ (s : State) (n fa : Nat) (b : OpenBlk), portOn s n = true ∧ openAt (port s n) fa = some b ∧ running s (.defer n (fa / 4096 * 4096)) = true :=
  ⟨tset open0 (.defer 0 0x1000) 101, 0, 0x1000, empty0, by decide⟩
theorem wit_VerifiedStoreEvents_9 : ∃ (s u : State) (n i got cs a l m : Nat) (data : Bytes) (k : Own) (f : Nat), flashQuiet s n = true ∧ driving s = true ∧ Own.all.find? (ownPending s n) = some k ∧ (k = .leaf ∨ k = .tree ∨ completing (port s n) = none) ∧ k ≠ .copy ∧ ownAt (port s n) k = (i, got) ∧ (ownReads s n k)[i]? = some (cs, a, l) ∧ ownSide s n cs = true ∧ m = min l (got + data.length) ∧ u = ownPut (ownRead s n cs (a + got) (l - got)) n k (if m = l then (i + 1, 0) else (i, m)) ∧ f = (port s n).refills.headD 0 :=
  ⟨tree0, ownPut (ownRead tree0 0 0 128 64) 0 .leaf (1, 0), 0, 0, 0, 0, 128, 64, 64, zeros 64, .leaf, 0, by decide⟩
theorem wit_VerifiedStoreEvents_10 : ∃ (s : State) (n at_ : Nat) (_data : Bytes) (b : OpenBlk), flashFree s n = true ∧ driving s = true ∧ ownPending s n .leaf = false ∧ ownPending s n .tree = false ∧ completing (port s n) = some b ∧ at_ = b.comp.getD b.ptr :=
  ⟨setPort calm 0 { st := .running, blocks := [empty0] }, 0, 0, [1], empty0, by decide, by decide, by decide, by decide, empty_completing _ rfl, rfl⟩
theorem wit_VerifiedStoreEvents_11 : ∃ (s u v : State) (n i got cs a l m : Nat) (data : Bytes) (g : Golden), flashFree s n = true ∧ driving s = true ∧ Own.all.find? (ownPending s n) = some .copy ∧ completing (port s n) = none ∧ (port s n).golden = some g ∧ u = eraseUnit s n g ∧ ownAt (port u n) .copy = (i, got) ∧ (ownReads u n .copy)[i]? = some (cs, a, l) ∧ ownSide u n cs = true ∧ m = min l (got + data.length) ∧ v = ownPut (ownRead u n cs (a + got) (l - got)) n .copy (if m = l then (i + 1, 0) else (i, m)) :=
  ⟨copy0, eraseUnit copy0 0 ⟨0, 0, 64, []⟩, ownPut (ownRead (eraseUnit copy0 0 ⟨0, 0, 64, []⟩) 0 1 0 4096) 0 .copy (0, 1), 0, 0, 0, 1, 0, 4096, 1, [1], ⟨0, 0, 64, []⟩, by decide⟩
theorem wit_ScrubAndDiagnosticReads_1 : ∃ (s : State) (k : Nat), pageOn s .vstBank k = true ∧ rbit s (reg .vst 0 0x040) 0 = true ∧ running s (.scrub k) = true ∧ rfld s (reg .vstBank k 0x048) 15 0 + 1 < s.part.framesPerBank :=
  ⟨tset (rset r0 (reg .vst 0 0x040) 0x641) (.scrub 0) 10000, 0, by decide⟩
theorem wit_ScrubAndDiagnosticReads_2 : ∃ (s : State) (k : Nat), pageOn s .vstBank k = true ∧ rbit s (reg .vst 0 0x040) 0 = true ∧ running s (.scrub k) = true ∧ rfld s (reg .vstBank k 0x048) 15 0 + 1 = s.part.framesPerBank :=
  ⟨rset (tset (rset r0 (reg .vst 0 0x040) 0x641) (.scrub 0) 10000) (reg .vstBank 0 0x048) (BitVec.ofNat 32 (r0.part.framesPerBank - 1)), 0, by decide⟩
theorem wit_ScrubAndDiagnosticReads_3 : ∃ (s : State) (k w : Nat), pageOn s .vstBank k = true ∧ rbit s (reg .vst 0 0x040) 0 = true ∧ running s (.scrub k) = true ∧ (frame s (k * s.part.framesPerBank + rfld s (reg .vstBank k 0x048) 15 0)).st = .valid ∧ w < 512 :=
  ⟨setFrame (tset (rset r0 (reg .vst 0 0x040) 0x641) (.scrub 0) 10000) 0 { st := .valid }, 0, 511, by decide⟩
theorem wit_ScrubAndDiagnosticReads_5 : ∃ (s : State) (a : Acc) (f w : Nat), silent s a = false ∧ (pwrState s = 0 ∨ (a.master ≠ 0x10 ∧ vfOf a = 0)) ∧ pageUp s .vst 0 = true ∧ mayRead s a (.page .vst 0) = true ∧ f = rfld s (reg .vst 0 0x054) 14 0 ∧ w = rfld s (reg .vst 0 0x05C) 11 2 ∧ f < s.part.frames ∧ (frame s f).st = .valid :=
  ⟨setFrame (withRegs [(reg .vst 0 0x054, 7)]) 7 { st := .valid, data := [1, 2, 3, 4] }, sage, 7, 0, by decide⟩
theorem wit_ManifestChecks_1 : ∃ (s c t : State) (tag : Nat) (man : Bytes) (j : Job) (p : ManParams), job? s tag = some j ∧ j.st = .running ∧ j.done = none ∧ j.early = 0 ∧ laneLost s j = false ∧ dType j.desc = 0x1F ∧ fieldLe j.desc 0x35 1 = 0 ∧ s.reconciling = false ∧ manParams s j = some p ∧ manifestCan s p man [] = true ∧ c = countUnit (if p.key.isNone then (chainCheck s (dKey j.desc)).1 else s) j 0 (manExtent man) ∧ jobExpected c p = true ∧ (t = manifestRead (modPort c p.port fun q => { q with manAt := (jobFa c p p.manifest, manExtent man) }) p man) :=
  ⟨man0 0, countUnit (man0 0) (manJob 0) 0 64, (let c := countUnit (man0 0) (manJob 0) 0 64; manifestRead (modPort c 0 fun q => { q with manAt := (jobFa c (manP 0) 0, 64) }) (manP 0) []), 5, [], manJob 0, manP 0, by decide⟩
theorem wit_ManifestChecks_2 : ∃ (s c t : State) (tag : Nat) (man : Bytes) (dtts : List Bytes) (j : Job) (p : ManParams), job? s tag = some j ∧ j.st = .running ∧ j.done = none ∧ j.early = 0 ∧ laneLost s j = false ∧ dType j.desc = 0x1F ∧ fieldLe j.desc 0x35 1 = 1 ∧ s.reconciling = false ∧ manParams s j = some p ∧ manifestCan s p man dtts = true ∧ c = countUnit (if p.key.isNone then (chainCheck s (dKey j.desc)).1 else s) j 0 (manExtent man) ∧ jobExpected c p = true ∧ (t = manifestRead (modPort c p.port fun q => { q with manAt := (jobFa c p p.manifest, manExtent man) }) p man) :=
  ⟨man0 1, countUnit (man0 1) (manJob 1) 0 64, (let c := countUnit (man0 1) (manJob 1) 0 64; manifestRead (modPort c 0 fun q => { q with manAt := (jobFa c (manP 1) 0, 64) }) (manP 1) []), 5, [], [], manJob 1, manP 1, by decide⟩
theorem wit_ManifestChecks_3 : ∃ (s c t : State) (tag : Nat) (man : Bytes) (j : Job) (p : ManParams), job? s tag = some j ∧ j.st = .running ∧ j.done = none ∧ j.early = 0 ∧ laneLost s j = false ∧ dType j.desc = 0x1F ∧ fieldLe j.desc 0x35 1 = 2 ∧ s.reconciling = false ∧ manParams s j = some p ∧ manifestCan s p man [] = true ∧ c = countUnit (if p.key.isNone then (chainCheck s (dKey j.desc)).1 else s) j 0 (manExtent man) ∧ jobExpected c p = true ∧ (t = manifestRead (modPort c p.port fun q => { q with recBase := p.cs1Base }) p man) :=
  ⟨man0 2, countUnit (man0 2) (manJob 2) 0 64, (let c := countUnit (man0 2) (manJob 2) 0 64; manifestRead (modPort c 0 fun q => { q with recBase := 0 }) (manP 2) []), 5, [], manJob 2, manP 2, by decide⟩
theorem wit_ManifestChecks_4 : ∃ (s c : State) (tag mode : Nat) (man : Bytes) (dtts : List Bytes) (j : Job) (p : ManParams), job? s tag = some j ∧ j.st = .running ∧ j.done = none ∧ j.early = 0 ∧ laneLost s j = false ∧ dType j.desc = 0x1F ∧ fieldLe j.desc 0x35 1 = mode ∧ (mode = 1 ∨ dtts = []) ∧ s.reconciling = false ∧ manParams s j = some p ∧ manifestCan s p man dtts = true ∧ c = countUnit (if p.key.isNone then (chainCheck s (dKey j.desc)).1 else s) j 0 (manExtent man) ∧ jobExpected c p = false :=
  ⟨setPort (man0 0) 0 {}, countUnit (setPort (man0 0) 0 {}) (manJob 0) 0 64, 5, 0, [], [], manJob 0, manP 0, by decide⟩
theorem wit_ManifestChecks_5 : ∃ (s : State) (tag mode : Nat) (_man : Bytes) (_dtts : List Bytes) (j : Job), job? s tag = some j ∧ j.st = .running ∧ j.done = none ∧ j.early ≠ 0 ∧ laneLost s j = false ∧ dType j.desc = 0x1F ∧ fieldLe j.desc 0x35 1 = mode ∧ s.reconciling = false :=
  ⟨setJob (man0 1) 5 { manJob 1 with early := 0x0E38 }, 5, 1, [], [], { manJob 1 with early := 0x0E38 }, by decide⟩
theorem wit_RingCommands_1 : ∃ (s : State) (a : Acc) (q : Nat) (d w : Word), q < 4 ∧ takes s a .cje 0 (0x08C + 32 * q) (d ||| 0x100) = true ∧ w = takenWord s .cje 0 (0x08C + 32 * q) (d ||| 0x100) ∧ bit (shown s .cje 0 (0x08C + 32 * q)) 8 = false ∧ 4 ≤ fld w 3 0 ∧ fld w 3 0 ≤ 12 ∧ 4 ≤ fld w 7 4 ∧ fld w 7 4 ≤ 12 ∧ sramOk (sqBase s (.core q)) (64 * 2 ^ fld w 3 0) = true ∧ sramOk (cqBase s (.core q)) (32 * 2 ^ fld w 7 4) = true :=
  ⟨withRegs [(reg .cje 0 0x080, 0x20000000), (reg .cje 0 0x084, 0x20001000)], ⟨0, true⟩, 0, 0x44, 0x144, by decide⟩
theorem wit_RingCommands_2 : ∃ (s : State) (a : Acc) (i : Nat) (d w : Word), takes s a .inst i 0x058 (d ||| 0x100) = true ∧ w = takenWord s .inst i 0x058 (d ||| 0x100) ∧ bit (shown s .inst i 0x058) 8 = false ∧ 4 ≤ fld w 3 0 ∧ fld w 3 0 ≤ min 12 (rfld s (reg .inst i 0x08C) 15 12) ∧ 4 ≤ fld w 7 4 ∧ fld w 7 4 ≤ min 12 (rfld s (reg .inst i 0x08C) 15 12) ∧ (fld w 17 16 < rfld s (reg .inst i 0x08C) 18 16 ∨ fld w 17 16 = 0) :=
  ⟨setInst (withRegs [(reg .inst 1 0x08C, 0x00044002)]) 1 { st := .active }, sage, 1, 0x44, 0x144, by decide⟩
theorem wit_RingCommands_3 : ∃ (s : State) (a : Acc) (q : Nat) (d w : Word), q < 4 ∧ takes s a .cje 0 (0x08C + 32 * q) (d ||| 0x100) = true ∧ w = takenWord s .cje 0 (0x08C + 32 * q) (d ||| 0x100) ∧ bit (shown s .cje 0 (0x08C + 32 * q)) 8 = false ∧ (fld w 3 0 < 4 ∨ 12 < fld w 3 0 ∨ fld w 7 4 < 4 ∨ 12 < fld w 7 4) :=
  ⟨r0, ⟨3, true⟩, 3, 0x43, 0x143, by decide⟩
theorem wit_RingCommands_4 : ∃ (s : State) (a : Acc) (q : Nat) (d w : Word), q < 4 ∧ takes s a .cje 0 (0x08C + 32 * q) (d ||| 0x100) = true ∧ w = takenWord s .cje 0 (0x08C + 32 * q) (d ||| 0x100) ∧ bit (shown s .cje 0 (0x08C + 32 * q)) 8 = false ∧ 4 ≤ fld w 3 0 ∧ fld w 3 0 ≤ 12 ∧ 4 ≤ fld w 7 4 ∧ fld w 7 4 ≤ 12 ∧ (sramOk (sqBase s (.core q)) (64 * 2 ^ fld w 3 0) = false ∨ sramOk (cqBase s (.core q)) (32 * 2 ^ fld w 7 4) = false) :=
  ⟨r0, sage, 0, 0x44, 0x144, by decide⟩
theorem wit_RingCommands_5 : ∃ (s t : State) (a : Acc) (q : Nat) (d v : Word) (l : List (Nat × Bytes)), q < 4 ∧ t = coreStores s { sram := l } ∧ takes t a .cje 0 (0x090 + 32 * q) d = true ∧ v = takenWord t .cje 0 (0x090 + 32 * q) d :=
  ⟨withRegs [(reg .cje 0 0x08C, 0x144)], coreStores (withRegs [(reg .cje 0 0x08C, 0x144)]) { sram := [(0x20000000, [1])] }, sage, 0, 15, 15, [(0x20000000, [1])], by decide⟩
theorem wit_RingCommands_6 : ∃ (s t : State) (a : Acc) (i : Nat) (d v : Word) (l : List (Nat × Bytes)), t = coreStores s { sram := l } ∧ takes t a .doorbell i 0x044 d = true ∧ v = takenWord t .doorbell i 0x044 d :=
  ⟨setInst (withRegs [(reg .inst 1 0x058, 0x144), (reg .inst 1 0x08C, 0x00044002)]) 1 { st := .active }, setInst (withRegs [(reg .inst 1 0x058, 0x144), (reg .inst 1 0x08C, 0x00044002)]) 1 { st := .active }, ⟨0x11, true⟩, 1, 3, 3, [], by decide⟩
theorem wit_RingCommands_7 : ∃ (s : State) (a : Acc) (q : Nat) (d v : Word), q < 4 ∧ takes s a .cje 0 (0x094 + 32 * q) d = true ∧ v = takenWord s .cje 0 (0x094 + 32 * q) d :=
  ⟨withRegs [(reg .cje 0 0x08C, 0x144)], sage, 0, 15, 15, by decide⟩
theorem wit_RingCommands_8 : ∃ (s : State) (a : Acc) (i : Nat) (d v : Word), takes s a .doorbell i 0x048 d = true ∧ v = takenWord s .doorbell i 0x048 d :=
  ⟨setInst (withRegs [(reg .inst 1 0x058, 0x144), (reg .inst 1 0x08C, 0x00044002)]) 1 { st := .active }, ⟨0x11, true⟩, 1, 3, 3, by decide⟩
theorem wit_RingCommands_9 : ∃ (s : State) (a : Acc) (m : Nat) (d : Word), takes s a .lane m 0x040 d = true ∧ (bit (takenWord s .lane m 0x040 d) 0 = true ∨ needsReserved s = false) :=
  ⟨r0, sage, 3, 1, by decide⟩
theorem wit_RingCommands_10 : ∃ (s : State) (q tag : Nat) (_desc : Bytes) (_w : Walk), ringFetches s (.core q) = true ∧ tag < 1024 ∧ job? s tag = none ∧ quotaLeft s (.core q) = true ∧ 10 ≤ saveFree s :=
  ⟨withRegs [(reg .cje 0 0x080, 0x20000000), (reg .cje 0 0x08C, 0x144), (reg .cje 0 0x090, 1)], 0, 5, [], ⟨false, [], false, false⟩, by decide⟩
theorem wit_RingCommands_11 : ∃ (s t : State) (i tag : Nat) (_desc : Bytes) (w : Walk) (r : TrRes), ringFetches s (.inst i) = true ∧ tag < 1024 ∧ job? s tag = none ∧ quotaLeft s (.inst i) = true ∧ 10 ≤ saveFree s ∧ translate s i (sqBase s (.inst i) + 64 * rfld s (ringSqHead (.inst i)) 11 0) 5 false none (inst s i).gen w = (t, r) :=
  ⟨fetch3, (translate fetch3 3 0x1000 5 false none 0 ⟨false, [], false, false⟩).1, 3, 5, [], ⟨false, [], false, false⟩, (translate fetch3 3 0x1000 5 false none 0 ⟨false, [], false, false⟩).2, by decide⟩
theorem wit_JobScheduling_1 : ∃ (s : State) (tag _unit _lane code : Nat) (_ws : List Walk) (j : Job), job? s tag = some j ∧ j.st = .queued ∧ j.done = none ∧ fenced s j = false ∧ refusal s j.sub j.slot j.desc = some code :=
  ⟨job0 .queued (plain 0x77 0), 5, 7, 0, 0x0C01, [], { desc := plain 0x77 0, st := .queued }, by decide⟩
theorem wit_JobScheduling_2 : ∃ (s t : State) (tag _unit _lane code : Nat) (_ws : List Walk) (j : Job) (cs : List (Nat × KSlot)), job? s tag = some j ∧ j.st = .queued ∧ j.done = none ∧ fenced s j = false ∧ refusal s j.sub j.slot j.desc = none ∧ forwards s j = none ∧ keyRefusal s j.sub j.desc = (t, some code, cs) :=
  ⟨job0 .queued kdfS, (keyRefusal (job0 .queued kdfS) (.core 0) kdfS).1, 5, 7, 0, 0x0C05, [], { desc := kdfS, st := .queued }, (keyRefusal (job0 .queued kdfS) (.core 0) kdfS).2.2, by decide⟩
theorem wit_JobScheduling_3 : ∃ (s t : State) (tag unit lane k : Nat) (_ws : List Walk) (j : Job) (cs : List (Nat × KSlot)) (us : List (Nat × Nat)) (ap : Bool), job? s tag = some j ∧ j.st = .queued ∧ j.done = none ∧ fenced s j = false ∧ refusal s j.sub j.slot j.desc = none ∧ forwards s j = none ∧ keyRefusal s j.sub j.desc = (t, none, cs) ∧ unitKind t j.desc = some k ∧ unitFree t k unit = true ∧ (needsLane j.desc = false ∨ unitFree t 0 lane = true) ∧ us = (k, unit) :: (if needsLane j.desc then [(0, lane)] else []) ∧ mayStart t j us = true ∧ ((j.onLane = false ∧ j.onAes = false) ∨ 10 ≤ saveFree t) ∧ ((katBits j.desc k unit lane).all (fun b => !katFail t b) = true) ∧ ap = (approvedService j.desc && (katBits j.desc k unit lane).all (katPass t)) ∧ ((dFlags j.desc).testBit 2 = true → ap = true) :=
  ⟨job0 .queued hash0, job0 .queued hash0, 5, 7, 0, 0, [], { desc := hash0, st := .queued }, [], [(0, 7)], katPass (job0 .queued hash0) 7, by decide⟩
theorem wit_JobScheduling_4 : ∃ (s : State) (tag _unit _lane : Nat) (_ws : List Walk) (j : Job), job? s tag = some j ∧ j.st = .queued ∧ j.done = none ∧ fenced s j = false ∧ refusal s j.sub j.slot j.desc = none ∧ forwards s j = none ∧ dType j.desc = 0x00 ∧ (dFlags j.desc).testBit 2 = false :=
  ⟨job0 .queued (zeros 64), 5, 7, 0, [], { desc := zeros 64, st := .queued }, by decide⟩
theorem wit_JobScheduling_5 : ∃ (s : State) (tag unit _lane : Nat) (_ws : List Walk) (j : Job) (bs : List Nat), job? s tag = some j ∧ j.st = .queued ∧ j.done = none ∧ fenced s j = false ∧ refusal s j.sub j.slot j.desc = none ∧ forwards s j = none ∧ dType j.desc = 0x30 ∧ (dFlags j.desc).testBit 2 = false ∧ testTargets s j.desc = some bs ∧ testFree s j.desc unit = true :=
  ⟨job0 .queued test0, 5, 7, 0, [], { desc := test0, st := .queued }, [7], by decide⟩
theorem wit_JobScheduling_6 : ∃ (s : State) (tag _unit _lane i node : Nat) (_ws : List Walk) (j : Job), job? s tag = some j ∧ j.st = .queued ∧ j.done = none ∧ fenced s j = false ∧ refusal s j.sub j.slot j.desc = none ∧ j.sub = .inst i ∧ forwards s j = some node :=
  ⟨setJob (rset vfs0 (reg .inst 3 0x098) 0x102) 5 { sub := .inst 3, desc := hash0 }, 5, 7, 0, 3, 2, [], { sub := .inst 3, desc := hash0 }, by decide⟩
theorem wit_JobScheduling_7 : ∃ (s : State) (tag lane _b : Nat) (_io : JobIO) (j : Job), unitJob s 0 lane = some (tag, j) ∧ j.st = .running ∧ j.onRes = false ∧ (laneReserved s lane = true ∨ testWaits s lane = true) :=
  ⟨rset (setJob r0 5 { desc := hash0, st := .running, unit := some (0, 7) }) (reg .lane 7 0x040) 1, 5, 7, 1, ⟨[], [], []⟩, { desc := hash0, st := .running, unit := some (0, 7) }, by decide⟩
theorem wit_JobScheduling_8 : ∃ (s : State) (tag lane _b : Nat) (_io : JobIO) (j : Job) (hs : List (Nat × Job)), unitJob s 0 lane = some (tag, j) ∧ j.st = .running ∧ j.onRes = false ∧ (List.range 16).any (flashPending s) = true ∧ flashLane s = none ∧ schedulerHeld s = false ∧ (hs = s.jobs.filter (fun e => (List.range 8).any e.2.holdsLane && !e.2.onRes)) ∧ (j.cls = 0 → hs.all (fun e => decide (e.2.cls = 0)) = true) :=
  ⟨busy8, 107, 7, 1, ⟨[], [], []⟩, laneJob 7, busy8.jobs, by decide⟩
theorem wit_JobScheduling_9 : ∃ (s : State) (tag lane b : Nat) (_io : JobIO) (j : Job), unitJob s 0 lane = some (tag, j) ∧ j.st = .running ∧ j.onLane = true ∧ 0 < rfld s (reg .cje 0 0x040) 7 0 ∧ 8 * rfld s (reg .cje 0 0x040) 7 0 ≤ min (128 * b) (dSrcLen j.desc - j.pos) / 128 ∧ (s.jobs.any (fun e => waitsFor s e.2 0 lane && (decide (e.2.cls = 0) || decide (j.cls ≠ 0))) = true) :=
  ⟨rset (setJob (setJob r0 5 { desc := hash9, st := .running, unit := some (0, 7) }) 6 { desc := hash0 }) (reg .cje 0 0x040) 1, 5, 7, 8, ⟨[], [], []⟩, { desc := hash9, st := .running, unit := some (0, 7) }, by decide⟩
theorem wit_JobScheduling_10 : ∃ (s t : State) (tag unit k : Nat) (_r : Bytes) (_ws : List Walk) (j : Job) (cs : List (Nat × KSlot)) (l : Option Nat), job? s tag = some j ∧ j.st = .preempted ∧ (s.locked = false ∨ usesSlot j.desc = false) ∧ (j.recSaved = true ∨ j.buf = true ∨ forwards s j = none) ∧ dType j.desc ≠ 0x30 ∧ unitKind s j.desc = some k ∧ (j.onLane = false ∨ j.recSaved = false) ∧ l = (if needsLane j.desc then (List.range s.part.lanes).find? (unitFree s 0) else none) ∧ (needsLane j.desc = true → l.isSome = true) ∧ unitFree s k unit = true ∧ (mayStart s j ((k, unit) :: l.toList.map fun m => (0, m)) = true) ∧ ((j.onLane = false ∧ j.onAes = false) ∨ 10 ≤ saveFree s) ∧ (j.gens.all (fun g => decide ((kslot s g.1).gen = g.2)) = true) ∧ takeKeys s j.sub (keysOf s j.sub j.desc) = (t, none, cs) :=
  ⟨aes0, aes0, 5, 0, 2, [], [], aesJob, [(9, kslot aes0 9)], none, by decide⟩
theorem wit_JobScheduling_11 : ∃ (s : State) (q tag unit : Nat) (r _rec : Bytes) (_ws : List Walk) (j : Job), job? s tag = some j ∧ j.st = .preempted ∧ j.sub = .core q ∧ dType j.desc = 0x01 ∧ j.recSaved = true ∧ (j.gens.all (fun g => decide ((kslot s g.1).gen = g.2)) = true) ∧ unitFree s 0 unit = true ∧ mayStart s j [(0, unit)] = true ∧ 10 ≤ saveFree s ∧ r = sramRead s (ctxBase s (.core q) + 256 * j.slot) 256 :=
  ⟨setJob r0 5 { desc := hash0, st := .preempted, recSaved := true }, 0, 5, 7, sramRead r0 0 256, [], [], { desc := hash0, st := .preempted, recSaved := true }, by decide, by decide, by decide, by decide, by decide, by decide, by decide, by decide, by decide, rfl⟩
theorem wit_JobScheduling_12 : ∃ (s : State) (tag _unit : Nat) (_r : Bytes) (_ws : List Walk) (j : Job), job? s tag = some j ∧ j.st = .preempted ∧ s.locked = true ∧ usesSlot j.desc = true :=
  ⟨{ aes0 with locked := true }, 5, 0, [], [], aesJob, by decide⟩
theorem wit_JobScheduling_13 : ∃ (s : State) (tag : Nat) (_ws : List Walk), running s (.job tag) = true ∧ (job? s tag).isSome = true :=
  ⟨tset (job0 .running hash0) (.job 5) 100, 5, [], by decide⟩
theorem wit_JobScheduling_14 : ∃ (s : State) (tag : Nat), running s (.selfTest tag) = true ∧ (job? s tag).isSome = true :=
  ⟨tset (job0 .running hash0) (.selfTest 5) 100, 5, by decide⟩
theorem wit_JobScheduling_15 : ∃ (s : State) (tag : Nat) (_bad : Word) (j : Job) (bs : List Nat), job? s tag = some j ∧ j.st = .running ∧ j.done = none ∧ dType j.desc = 0x30 ∧ testTargets s j.desc = some bs ∧ dParam j.desc 0 ≠ 6 ∧ (j.onRes = false ∨ (List.range 16).any (chunkReady s) = false) :=
  ⟨job0 .running test0, 5, 0x80, { desc := test0, st := .running }, [7], by decide⟩
theorem wit_JobScheduling_16 : ∃ (s t : State) (tag : Nat) (bad : Word) (j x : Job) (bs : List Nat), job? s tag = some j ∧ j.st = .running ∧ j.done = none ∧ dType j.desc = 0x30 ∧ testTargets s j.desc = some bs ∧ dParam j.desc 0 = 6 ∧ testAll s bad j (bs.drop j.pos) = (t, x) :=
  ⟨job0 .running testA, endA.1, 5, 0x80, jobA, endA.2, (testTargets (job0 .running testA) testA).getD [], by decide, by decide, by decide, by decide, by decide, by decide, by rw [endA]⟩
theorem wit_CompletionEntries_1 : ∃ (s t : State) (q tag ad : Nat) (_ws : List Walk) (j : Job) (x : JobRes), job? s tag = some j ∧ j.st = .running ∧ j.done = some x ∧ j.sub = .core q ∧ q < 4 ∧ (t = x.outs.foldl (fun s o => sramWrite s o.1 o.2) s) ∧ cqRoom s (.core q) = true ∧ ad = cqBase s (.core q) + 32 * rfld s (ringCqTail (.core q)) 11 0 ∧ sramOk ad 32 = true :=
  ⟨setJob (withRegs [(reg .cje 0 0x084, 0x20001000), (reg .cje 0 0x08C, 0x144), (reg .cje 0 0x09C, 15), (reg .cje 0 0x094, 3)]) 5 { desc := hash0, st := .running, done := some { status := 0x0C07 } }, setJob (withRegs [(reg .cje 0 0x084, 0x20001000), (reg .cje 0 0x08C, 0x144), (reg .cje 0 0x09C, 15), (reg .cje 0 0x094, 3)]) 5 { desc := hash0, st := .running, done := some { status := 0x0C07 } }, 0, 5, 0x200011E0, [], { desc := hash0, st := .running, done := some { status := 0x0C07 } }, { status := 0x0C07 }, by decide⟩
theorem wit_CompletionEntries_2 : ∃ (s t : State) (i tag p : Nat) (ws : List Walk) (j : Job) (x : JobRes), job? s tag = some j ∧ j.st = .running ∧ j.done = some x ∧ j.sub = .inst i ∧ x.outs = [] ∧ cqRoom s (.inst i) = true ∧ translate (setJob s tag j) i (cqBase s (.inst i) + 32 * rfld s (ringCqTail (.inst i)) 11 0) 4 true (some tag) j.gen (nextWalk ws) = (t, .ok p) :=
  ⟨fetch3j, (translate (setJob fetch3j 5 doneJ3) 3 0x1000 4 true (some 5) 0 ⟨true, [], false, false⟩).1, 3, 5, 0x5000, [⟨true, [], false, false⟩], doneJ3, { status := 0x0C07 }, by decide⟩
theorem wit_CompletionEntries_3 : ∃ (s : State) (tag : Nat) (io : JobIO) (ws : List Walk) (t : State) (j : Job), runs s tag j io t ws = true ∧ dType j.desc = 0x00 :=
  ⟨job0 .running (zeros 64), 5, ⟨[], [], []⟩, [], job0 .running (zeros 64), { desc := zeros 64, st := .running }, by decide⟩
theorem wit_HashAndCurveJobs_1 : ∃ (s t : State) (tag : Nat) (io : JobIO) (ws : List Walk) (j : Job), runs s tag j io t ws = true ∧ dType j.desc = 0x01 ∧ dParam j.desc 0 = 0 ∧ j.pos = 0 ∧ j.mid = [] :=
  ⟨job0 .running hash0, job0 .running hash0, 5, ⟨[], [], []⟩, [], { desc := hash0, st := .running }, by decide⟩
theorem wit_HashAndCurveJobs_2 : ∃ (s t : State) (tag : Nat) (io : JobIO) (ws : List Walk) (j : Job), runs s tag j io t ws = true ∧ dType j.desc = 0x01 ∧ dParam j.desc 0 ≠ 1 ∧ dParam j.desc 0 ≠ 2 :=
  ⟨job0 .running (hashP 3), job0 .running (hashP 3), 5, ⟨[], [], []⟩, [], { desc := hashP 3, st := .running }, by decide⟩
theorem wit_HashAndCurveJobs_3 : ∃ (s t : State) (tag : Nat) (io : JobIO) (ws : List Walk) (j : Job), runs s tag j io t ws = true ∧ dType j.desc = 0x01 ∧ (dParam j.desc 0 = 1 ∨ dParam j.desc 0 = 2) :=
  ⟨job0 .running (hashP 1), job0 .running (hashP 1), 5, ⟨[], [], []⟩, [], { desc := hashP 1, st := .running }, by decide⟩
theorem wit_HashAndCurveJobs_4 : ∃ (s t : State) (tag : Nat) (io : JobIO) (ws : List Walk) (j : Job), runs s tag j io t ws = true ∧ dType j.desc = 0x02 ∧ dParam j.desc 0 = 0 :=
  ⟨job0 .running (plain 0x02 0), job0 .running (plain 0x02 0), 5, ⟨[], [], []⟩, [], { desc := plain 0x02 0, st := .running }, by decide⟩
theorem wit_HashAndCurveJobs_5 : ∃ (s t : State) (tag : Nat) (io : JobIO) (ws : List Walk) (j : Job), runs s tag j io t ws = true ∧ dType j.desc = 0x02 ∧ dParam j.desc 0 = 1 :=
  ⟨job0 .running (plain 0x02 1), job0 .running (plain 0x02 1), 5, ⟨[], [], []⟩, [], { desc := plain 0x02 1, st := .running }, by decide⟩
theorem wit_HashAndCurveJobs_6 : ∃ (s t : State) (tag : Nat) (io : JobIO) (ws : List Walk) (j : Job) (ty us : Nat), runs s tag j io t ws = true ∧ dType j.desc = 0x03 ∧ dParam16 j.desc 0 = 256 ∧ keySpec (dParam16 j.desc 2) 5 [1, 3, 5] = some (ty, us) :=
  ⟨job0 .running kdfD, job0 .running kdfD, 5, ⟨[], [], []⟩, [], { desc := kdfD, st := .running }, 1, 1, by decide⟩
theorem wit_HashAndCurveJobs_7 : ∃ (s t : State) (tag : Nat) (io : JobIO) (ws : List Walk) (j : Job) (ty us : Nat), runs s tag j io t ws = true ∧ dType j.desc = 0x03 ∧ dParam16 j.desc 0 ≠ 256 ∧ keySpec (dParam16 j.desc 2) 6 [6] = some (ty, us) :=
  ⟨job0 .running kdfE, job0 .running kdfE, 5, ⟨[], [], []⟩, [], { desc := kdfE, st := .running }, 6, 1, by decide⟩
theorem wit_HashAndCurveJobs_8 : ∃ (s t : State) (tag : Nat) (io : JobIO) (ws : List Walk) (j : Job) (b : Bool), runs s tag j io t ws = true ∧ dType j.desc = 0x03 ∧ b = decide (dParam16 j.desc 0 = 256) ∧ keySpec (dParam16 j.desc 2) (if b then 5 else 6) (if b then [1, 3, 5] else [6]) = none :=
  ⟨job0 .running (plain 0x03 7), job0 .running (plain 0x03 7), 5, ⟨[], [], []⟩, [], { desc := plain 0x03 7, st := .running }, false, by decide⟩
theorem wit_HashAndCurveJobs_9 : ∃ (s t : State) (tag : Nat) (io : JobIO) (ws : List Walk) (j : Job), runs s tag j io t ws = true ∧ dType j.desc = 0x04 ∧ katFail t 16 = false :=
  ⟨job0 .running (plain 0x04 0), job0 .running (plain 0x04 0), 5, ⟨[], [], []⟩, [], { desc := plain 0x04 0, st := .running }, by decide⟩
theorem wit_HashAndCurveJobs_10 : ∃ (s t : State) (tag : Nat) (io : JobIO) (ws : List Walk) (j : Job), runs s tag j io t ws = true ∧ dType j.desc = 0x04 ∧ katFail t 16 = true :=
  ⟨rsetb (job0 .running (plain 0x04 0)) (reg .cje 0 0x054) 16 true, rsetb (job0 .running (plain 0x04 0)) (reg .cje 0 0x054) 16 true, 5, ⟨[], [], []⟩, [], { desc := plain 0x04 0, st := .running }, by decide⟩
theorem wit_HashAndCurveJobs_11 : ∃ (s t : State) (tag : Nat) (io : JobIO) (ws : List Walk) (j : Job), runs s tag j io t ws = true ∧ dType j.desc = 0x10 ∧ (dKey j.desc ≠ 2 ∨ (jobSrc t j io).take 16 ≠ wmsDomain) :=
  ⟨job0 .running (plain 0x10 0), job0 .running (plain 0x10 0), 5, ⟨[], [], []⟩, [], { desc := plain 0x10 0, st := .running }, by decide⟩
theorem wit_HashAndCurveJobs_12 : ∃ (s t : State) (tag : Nat) (io : JobIO) (ws : List Walk) (j : Job), runs s tag j io t ws = true ∧ dType j.desc = 0x10 ∧ dKey j.desc = 2 ∧ (jobSrc t j io).take 16 = wmsDomain :=
  ⟨{ job0 .running signD with sram := memWrite [] 0 wmsDomain }, { job0 .running signD with sram := memWrite [] 0 wmsDomain }, 5, ⟨[], [], []⟩, [], { desc := signD, st := .running }, by decide⟩
theorem wit_HashAndCurveJobs_13 : ∃ (s t : State) (tag : Nat) (io : JobIO) (ws : List Walk) (j : Job) (pub sig : Bytes), runs s tag j io t ws = true ∧ dType j.desc = 0x11 ∧ pub = (if dKey j.desc = 0xFFFF then sliceZ (jobAux t j io) 64 32 else j.key.key) ∧ sig = sliceZ (jobAux t j io) 0 64 :=
  ⟨job0 .running (plain 0x11 0), job0 .running (plain 0x11 0), 5, ⟨[], [], []⟩, [], { desc := plain 0x11 0, st := .running }, [], zeros 64, by decide⟩
theorem wit_HashAndCurveJobs_14 : ∃ (s t : State) (tag : Nat) (io : JobIO) (ws : List Walk) (j : Job) (us : Nat) (z : Bytes), runs s tag j io t ws = true ∧ dType j.desc = 0x12 ∧ keySpec (dParam16 j.desc 0) 5 [5] = some (5, us) ∧ z = x25519 j.key.key (sliceZ (jobSrc t j io) 0 32) :=
  ⟨job0 .running (plain 0x12 16), job0 .running (plain 0x12 16), 5, ⟨[], [], []⟩, [], { desc := plain 0x12 16, st := .running }, 16, x25519 [] (sliceZ [] 0 32), by decide, by decide, by decide, rfl⟩
theorem wit_HashAndCurveJobs_15 : ∃ (s t : State) (tag : Nat) (io : JobIO) (ws : List Walk) (j : Job), runs s tag j io t ws = true ∧ dType j.desc = 0x12 ∧ keySpec (dParam16 j.desc 0) 5 [5] = none :=
  ⟨job0 .running (plain 0x12 1), job0 .running (plain 0x12 1), 5, ⟨[], [], []⟩, [], { desc := plain 0x12 1, st := .running }, by decide⟩
theorem wit_HashAndCurveJobs_16 : ∃ (s t : State) (tag : Nat) (io : JobIO) (ws : List Walk) (j : Job) (c : Bytes × Bytes), runs s tag j io t ws = true ∧ dType j.desc = 0x18 ∧ (dFlags j.desc).testBit 3 = false ∧ c = gcmEnc j.key.key (sliceZ j.desc 0x34 12) (jobAux t j io) (jobSrc t j io) :=
  ⟨job0 .running (plain 0x18 0), job0 .running (plain 0x18 0), 5, ⟨[], [], []⟩, [], { desc := plain 0x18 0, st := .running }, gcmEnc [] (sliceZ (plain 0x18 0) 0x34 12) [] [], by decide, by decide, by decide, rfl⟩
theorem wit_HashAndCurveJobs_17 : ∃ (s t : State) (tag : Nat) (io : JobIO) (ws : List Walk) (j : Job), runs s tag j io t ws = true ∧ dType j.desc = 0x18 ∧ (dFlags j.desc).testBit 3 = true ∧ drbgTested s = false ∧ katFail t 16 = false :=
  ⟨job0 .running ([0x18, 8] ++ zeros 62), job0 .running ([0x18, 8] ++ zeros 62), 5, ⟨[], [], []⟩, [], { desc := [0x18, 8] ++ zeros 62, st := .running }, by decide⟩
theorem wit_HashAndCurveJobs_18 : ∃ (s t : State) (tag : Nat) (io : JobIO) (ws : List Walk) (j : Job), runs s tag j io t ws = true ∧ dType j.desc = 0x18 ∧ (dFlags j.desc).testBit 3 = true ∧ drbgTested s = false ∧ katFail t 16 = true :=
  ⟨rsetb (job0 .running ([0x18, 8] ++ zeros 62)) (reg .cje 0 0x054) 16 true, rsetb (job0 .running ([0x18, 8] ++ zeros 62)) (reg .cje 0 0x054) 16 true, 5, ⟨[], [], []⟩, [], { desc := [0x18, 8] ++ zeros 62, st := .running }, by decide⟩
theorem wit_HashAndCurveJobs_19 : ∃ (s t : State) (tag : Nat) (io : JobIO) (ws : List Walk) (j : Job) (n : Nat), runs s tag j io t ws = true ∧ dType j.desc = 0x19 ∧ n = (jobSrc t j io).length - 16 :=
  ⟨job0 .running (plain 0x19 0), job0 .running (plain 0x19 0), 5, ⟨[], [], []⟩, [], { desc := plain 0x19 0, st := .running }, 0, by decide⟩
theorem wit_KeyJobs_1 : ∃ (s t : State) (tag : Nat) (io : JobIO) (ws : List Walk) (j : Job) (ty us : Nat), runs s tag j io t ws = true ∧ dType j.desc = 0x20 ∧ keySpec (dParam16 j.desc 0) 0 [1, 3, 5] = some (ty, us) :=
  ⟨job0 .running genD, job0 .running genD, 5, ⟨[], [], []⟩, [], { desc := genD, st := .running }, 1, 1, by decide⟩
theorem wit_KeyJobs_2 : ∃ (s t : State) (tag : Nat) (io : JobIO) (ws : List Walk) (j : Job), runs s tag j io t ws = true ∧ dType j.desc = 0x20 ∧ keySpec (dParam16 j.desc 0) 0 [1, 3, 5] = none :=
  ⟨job0 .running (plain 0x20 0), job0 .running (plain 0x20 0), 5, ⟨[], [], []⟩, [], { desc := plain 0x20 0, st := .running }, by decide⟩
theorem wit_KeyJobs_3 : ∃ (s t : State) (tag : Nat) (io : JobIO) (ws : List Walk) (j : Job), runs s tag j io t ws = true ∧ dType j.desc = 0x21 :=
  ⟨job0 .running (plain 0x21 0), job0 .running (plain 0x21 0), 5, ⟨[], [], []⟩, [], { desc := plain 0x21 0, st := .running }, by decide⟩
theorem wit_KeyJobs_4 : ∃ (s t : State) (tag : Nat) (io : JobIO) (ws : List Walk) (j : Job) (k : Bytes) (q : Option Nat), runs s tag j io t ws = true ∧ dType j.desc = 0x22 ∧ k = jobSrc t j io ∧ q = (if dParam j.desc 3 = 0xFF then none else some (dParam j.desc 3)) :=
  ⟨job0 .running impD, job0 .running impD, 5, ⟨[], [], []⟩, [], { desc := impD, st := .running }, [], some 0, by decide⟩
theorem wit_KeyJobs_5 : ∃ (s t : State) (tag : Nat) (io : JobIO) (ws : List Walk) (j : Job) (a b : Nat) (w k : KSlot) (h : Bytes), runs s tag j io t ws = true ∧ dType j.desc = 0x23 ∧ j.copies = [(a, w), (b, k)] ∧ h = blobHeader (k.usage + 256 * k.ktype) :=
  ⟨wrap0, wrap0, 5, ⟨[], [], []⟩, [], wrapJob, 9, 10, {}, { usage := 32 }, blobHeader 32, by decide⟩
theorem wit_KeyJobs_6 : ∃ (s t : State) (tag : Nat) (io : JobIO) (ws : List Walk) (j : Job) (n : Nat) (src : Bytes), runs s tag j io t ws = true ∧ dType j.desc = 0x24 ∧ src = jobSrc t j io ∧ n = src.length - 44 :=
  ⟨job0 .running (plain 0x24 0), job0 .running (plain 0x24 0), 5, ⟨[], [], []⟩, [], { desc := plain 0x24 0, st := .running }, 0, [], by decide⟩
theorem wit_KeyJobs_7 : ∃ (s u : State) (tag : Nat) (_io : JobIO) (j : Job) (x : KSlot), job? s tag = some j ∧ j.st = .running ∧ j.done = none ∧ dType j.desc = 0x25 ∧ j.gens = [] ∧ x = kslot s (dKey j.desc) ∧ (x.st = .live ∨ x.st = .orphaned) ∧ u = setJob (endSlot s (dKey j.desc)) tag { j with gens := [(dKey j.desc, x.gen)] } :=
  ⟨setKslot (job0 .running invD) 9 { st := .live }, setJob (endSlot (setKslot (job0 .running invD) 9 { st := .live }) 9) 5 { desc := invD, st := .running, gens := [(9, 0)] }, 5, ⟨[], [], []⟩, { desc := invD, st := .running }, { st := .live }, by decide⟩
theorem wit_KeyJobs_8 : ∃ (s : State) (tag : Nat) (_io : JobIO) (j : Job), job? s tag = some j ∧ j.st = .running ∧ j.done = none ∧ dType j.desc = 0x25 ∧ j.gens ≠ [] ∧ (s.jobs.any (fun e => e.2.copies.any fun c => j.gens.contains (c.1, c.2.gen)) = false) :=
  ⟨setJob r0 5 { desc := invD, st := .running, gens := [(9, 0)] }, 5, ⟨[], [], []⟩, { desc := invD, st := .running, gens := [(9, 0)] }, by decide⟩
theorem wit_KeyJobs_9 : ∃ (s : State), s.scrubDirty = true :=
  ⟨{ setKslot r0 9 { st := .orphaned } with scrubDirty := true }, by decide⟩
theorem wit_KeyJobs_10 : ∃ (s : State) (sub : Sub) (k : Nat) (f : Fill), fillBad s sub k false f.ownerKey = none ∧ f.parent = none ∧ sub.cls = 0 ∧ f.port = none :=
  ⟨r0, .core 1, 9, ⟨1, 1, none, false, none, [1]⟩, by decide⟩
theorem wit_AttestationJobs_1 : ∃ (s t : State) (tag : Nat) (io : JobIO) (ws : List Walk) (j : Job), runs s tag j io t ws = true ∧ dType j.desc = 0x28 :=
  ⟨job0 .running (plain 0x28 7), job0 .running (plain 0x28 7), 5, ⟨[], [], []⟩, [], { desc := plain 0x28 7, st := .running }, by decide⟩
theorem wit_AttestationJobs_2 : ∃ (s t : State) (tag dev cnt : Nat) (io : JobIO) (ws : List Walk) (j : Job) (n x w : Bytes), runs s tag j io t ws = true ∧ dType j.desc = 0x29 ∧ s.reconciling = false ∧ n = jobSrc t j io ∧ x = jobAux t j io ∧ dev = dParam16 j.desc 0 ∧ cnt = dParam j.desc 2 ∧ wmsBad t j.sub ⟨n, dev, cnt, x⟩ = none ∧ w = wmsBuild t j.sub ⟨n, dev, cnt, x⟩ :=
  ⟨wms0, wms0, 5, 0, 0, ⟨[], [], []⟩, [], wmsJob, jobSrc wms0 wmsJob ⟨[], [], []⟩, [], wmsBuild wms0 (.core 0) ⟨jobSrc wms0 wmsJob ⟨[], [], []⟩, 0, 0, []⟩, by decide, by decide, by decide, rfl, rfl, by decide, by decide, by decide, rfl⟩
theorem wit_AttestationJobs_3 : ∃ (s t : State) (tag code : Nat) (io : JobIO) (ws : List Walk) (j : Job), runs s tag j io t ws = true ∧ dType j.desc = 0x29 ∧ s.reconciling = false ∧ wmsBad t j.sub ⟨jobSrc t j io, dParam16 j.desc 0, dParam j.desc 2, jobAux t j io⟩ = some code :=
  ⟨{ wms0 with regs := r0.regs }, { wms0 with regs := r0.regs }, 5, 0x0B03, ⟨[], [], []⟩, [], wmsJob, by decide⟩
theorem wit_AttestationJobs_4 : ∃ (s t : State) (tag : Nat) (io : JobIO) (ws : List Walk) (j : Job), runs s tag j io t ws = true ∧ dType j.desc = 0x2A ∧ rbit t (reg .atu 0 0x040) 1 = false :=
  ⟨job0 .running (plain 0x2A 0), job0 .running (plain 0x2A 0), 5, ⟨[], [], []⟩, [], { desc := plain 0x2A 0, st := .running }, by decide⟩
theorem wit_AttestationJobs_5 : ∃ (s t : State) (tag : Nat) (io : JobIO) (ws : List Walk) (j : Job), runs s tag j io t ws = true ∧ dType j.desc = 0x2A ∧ rbit t (reg .atu 0 0x040) 1 = true :=
  ⟨rset (job0 .running (plain 0x2A 0)) (reg .atu 0 0x040) 2, rset (job0 .running (plain 0x2A 0)) (reg .atu 0 0x040) 2, 5, ⟨[], [], []⟩, [], { desc := plain 0x2A 0, st := .running }, by decide⟩
theorem wit_AttestationJobs_6 : ∃ (s t : State) (tag : Nat) (io : JobIO) (ws : List Walk) (j : Job), runs s tag j io t ws = true ∧ dType j.desc = 0x2B ∧ handover t = false ∧ allZero (sliceZ (jobSrc t j io) 73 7) = true :=
  ⟨job0 .running (plain 0x2B 0), job0 .running (plain 0x2B 0), 5, ⟨[], [], []⟩, [], { desc := plain 0x2B 0, st := .running }, by decide⟩
theorem wit_AttestationJobs_7 : ∃ (s t : State) (tag : Nat) (io : JobIO) (ws : List Walk) (j : Job), runs s tag j io t ws = true ∧ dType j.desc = 0x2B ∧ handover t = true :=
  ⟨setJob debug0 5 { desc := plain 0x2B 0, st := .running }, setJob debug0 5 { desc := plain 0x2B 0, st := .running }, 5, ⟨[], [], []⟩, [], { desc := plain 0x2B 0, st := .running }, by decide⟩
theorem wit_AttestationJobs_8 : ∃ (s t : State) (tag : Nat) (io : JobIO) (ws : List Walk) (j : Job) (r : Bytes), runs s tag j io t ws = true ∧ dType j.desc = 0x2C ∧ handover t = false ∧ (kslot t 0).st = .live ∧ (kslot t 1).st = .live ∧ rbit t (reg .atu 0 0x040) 0 = false ∧ rbit t (reg .atu 0 0x040) 2 = false ∧ t.fwRec = some r :=
  ⟨alias0, alias0, 5, ⟨[], [], []⟩, [], { desc := plain 0x2C 0, st := .running }, zeros 80, by decide⟩
theorem wit_AttestationJobs_9 : ∃ (s t : State) (tag : Nat) (io : JobIO) (ws : List Walk) (j : Job), runs s tag j io t ws = true ∧ dType j.desc = 0x2C ∧ handover t = true :=
  ⟨setJob debug0 5 { desc := plain 0x2C 0, st := .running }, setJob debug0 5 { desc := plain 0x2C 0, st := .running }, 5, ⟨[], [], []⟩, [], { desc := plain 0x2C 0, st := .running }, by decide⟩
theorem wit_ChipResets_1 : ∃ (s : State) (rail _tear : Nat) (_r _t : Word), s.rst ≠ .por ∧ rail ≤ 8 :=
  ⟨rset r0 (reg .cje 0 0x050) 7, 3, 0, 0, 0, by decide⟩
theorem wit_ChipResets_2 : ∃ (s : State) (_x : Bool) (_pins : Word), s.rst = .por :=
  ⟨{ r0 with rst := .por, regs := [], timers := [] }, true, 8, by decide⟩
theorem wit_ChipResets_3 : ∃ (s : State) (_x : Bool) (_pins _a _i : Word) (_c : Bytes) (_l : Bool), s.rst = .por :=
  ⟨{ r0 with rst := .por, regs := [], timers := [] }, true, 8, 0, 1, zeros 32, true, by decide⟩
theorem wit_ChipResets_4 : ∃ (s : State) (_inp : RstIn), s.rst = .none ∧ higherPhase s = false :=
  ⟨rset r0 (reg .cje 0 0x050) 7, ⟨8, 0, 0⟩, by decide⟩
theorem wit_ChipResets_5 : ∃ (s t : State) (_inp : RstIn), s.rst = .device ∧ t = rset (afterDevice s .device) (reg .rom 0 0x040) (rget s (reg .rom 0 0x040)) :=
  ⟨{ r0 with rst := .device }, rset (afterDevice { r0 with rst := .device } .device) (reg .rom 0 0x040) (rget r0 (reg .rom 0 0x040)), ⟨8, 0, 0⟩, rfl, rfl⟩
theorem wit_ChipResets_6 : ∃ (s : State) (a : Acc) (d : Word) (_inp : RstIn), takes s a .rom 0 0x044 (withField d 3 0 1) = true ∧ fld d 31 16 = 0xA5C3 :=
  ⟨r0, sage, 0xA5C30000, ⟨8, 0, 0⟩, by decide⟩
theorem wit_ChipResets_7 : ∃ (s : State) (_inp : RstIn), (s.rst ≠ .none ∨ higherPhase s = true) :=
  ⟨{ r0 with hw := some (.device, 20000) }, ⟨8, 0, 0⟩, by decide⟩
theorem wit_ChipResets_8 : ∃ (s : State) (a : Acc) (d : Word) (_inp : RstIn) (n : Nat), takes s a .rom 0 0x044 (withField d 3 0 3) = true ∧ fld d 31 16 = 0xA5C3 ∧ n = fld d 11 8 ∧ n < s.part.ports :=
  ⟨r0, sage, 0xA5C30200, ⟨8, 0, 0⟩, 2, by decide⟩
theorem wit_ChipResets_9 : ∃ (s : State) (a : Acc) (d : Word) (_inp : RstIn), takes s a .rom 0 0x044 (withField d 3 0 1) = true ∧ fld d 31 16 ≠ 0xA5C3 :=
  ⟨r0, sage, 0xA5C20000, ⟨8, 0, 0⟩, by decide⟩
theorem wit_ControlResetTriggers_1 : ∃ (s : State) (a : Acc) (d : Word) (_inp : RstIn), takes s a .rom 0 0x044 (withField d 3 0 2) = true ∧ fld d 31 16 = 0xA5C3 :=
  ⟨r0, sage, 0xA5C30000, ⟨8, 0, 0⟩, by decide⟩
theorem wit_ControlResetTriggers_3 : ∃ (s : State) (_inp : RstIn), debugOpen s 1 = true :=
  ⟨debug0, ⟨8, 0, 0⟩, by decide⟩
theorem wit_ControlResetTriggers_4 : ∃ (s : State) (_inp : RstIn), handover s = false ∧ s.sage ≠ .stop :=
  ⟨r0, ⟨8, 0, 0⟩, by decide⟩
theorem wit_ControlResetTriggers_5 : ∃ (s : State) (_inp : RstIn), running s .bwd = true ∧ s.sage ≠ .window true ∧ s.sage ≠ .window false :=
  ⟨r0, ⟨8, 0, 0⟩, by decide⟩
theorem wit_ControlResetTriggers_6 : ∃ (s : State) (_inp : RstIn), running s .bwd = true ∧ (s.sage = .window true ∨ s.sage = .window false) :=
  ⟨{ r0 with sage := .window true }, ⟨8, 0, 0⟩, by decide⟩
theorem wit_ControlResetTriggers_7 : ∃ (s : State) (_inp : RstIn), running s .twdGrace = true :=
  ⟨tset r0 .twdGrace 5, ⟨8, 0, 0⟩, by decide⟩
theorem wit_ControlResetTriggers_8 : ∃ (s t : State) (_inp : RstIn), s.rst ≠ .por ∧ tokenResetOk s = true ∧ t = emit { tapScan s 0x0B with fresh := s.fresh + 1 } (.tapBit ((Config.freeByte s.fresh).getLsbD 0)) :=
  ⟨token0, emit { tapScan token0 0x0B with fresh := token0.fresh + 1 } (.tapBit ((Config.freeByte token0.fresh).getLsbD 0)), ⟨8, 0, 0⟩, by decide, by decide +kernel, rfl⟩
theorem wit_ControlResetTriggers_9 : ∃ (s u : State) (c : Nat) (inp : RstIn), s.rst = .none ∧ s.hw = none ∧ c < 16 ∧ u = controlReset s c inp :=
  ⟨r0, controlReset r0 5 ⟨8, 0, 0⟩, 5, ⟨8, 0, 0⟩, by decide, by decide, by decide, rfl⟩
theorem wit_ControlResetTriggers_10 : ∃ (s : State) (_c n : Nat) (_inp : RstIn), s.rst = .none ∧ s.hw = some (.control, n) :=
  ⟨{ r0 with hw := some (.control, 20000) }, 5, 20000, ⟨8, 0, 0⟩, by decide⟩
theorem wit_ControlResetTriggers_11 : ∃ (s : State) (_c : Nat) (_inp : RstIn), (s.rst ≠ .none ∨ higherPhase s = true) :=
  ⟨{ r0 with hw := some (.device, 20000) }, 5, ⟨8, 0, 0⟩, by decide⟩
theorem wit_DeviceStartCommands_1 : ∃ (s : State) (a : Acc) (d : Word), takes s a .rom 0 0x054 d = true :=
  ⟨r0, sage, 1, by decide⟩
theorem wit_DeviceStartCommands_2 : ∃ (s : State) (a : Acc) (d : Word) (q len : Nat), takes s a .rom 0 0x058 d = true ∧ q < 3 ∧ fld d 2 0 = 2 ^ q ∧ dillRuns s q = false ∧ len = (rget s (reg .rom 0 (0x068 + 4 * q))).toNat ∧ len ≠ 0 ∧ len % 4 = 0 ∧ len ≤ 196608 ∧ domOn s 24 = true ∧ allZero (rbytes s (reg .rom 0 (0x600 + 64 * q)) 16) = false :=
  ⟨withRegs [(reg .rom 0 0x06C, 8), (reg .rom 0 0x640, 1)], sage, 2, 1, 8, by decide⟩
theorem wit_DeviceStartCommands_3 : ∃ (s : State) (a : Acc) (d : Word) (_inp : RstIn), takes s a .rom 0 0x05C (d ||| 1) = true ∧ fld d 31 16 = 0xA5C3 :=
  ⟨r0, sage, 0xA5C30000, ⟨8, 0, 0⟩, by decide⟩
theorem wit_DeviceStartCommands_4 : ∃ (s : State) (a : Acc) (d : Word), takes s a .rom 0 0x114 (d ||| 1) = true ∧ fld d 31 16 = 0xA5C3 ∧ rbit s (reg .rom 0 0x100) 3 = true ∧ bwdState s = 0x55 :=
  ⟨withRegs [(reg .rom 0 0x100, 8), (reg .bwd 0 0x040, 0x55)], sage, 0xA5C30000, by decide⟩
theorem wit_DeviceStartCommands_5 : ∃ (s : State) (a : Acc) (d : Word), takes s a .rom 0 0x114 (d ||| 1) = true ∧ fld d 31 16 ≠ 0xA5C3 :=
  ⟨r0, sage, 0xA5C20000, by decide⟩
theorem wit_RomFlowEnds_1 : ∃ (s p : State) (env : RomEnv) (c : Bool) (code : Nat), s.sage = .rom c ∧ s.rst = .none ∧ s.reconciling = false ∧ s.tbLoss = false ∧ romSelfTest (romFlash (romStep { s with hw := none } 0x3C) env.bfId) c env.kat = (p, some code) :=
  ⟨rom0, (test1 rom0 false { kat := 0xFF }).1, { kat := 0xFF }, false, 0x0120, by decide, by decide, by decide, by decide, test1_eq (by decide +kernel)⟩
theorem wit_RomFlowEnds_2 : ∃ (s p q : State) (env : RomEnv) (c : Bool) (code : Nat), s.sage = .rom c ∧ s.rst = .none ∧ s.reconciling = false ∧ s.tbLoss = false ∧ romSelfTest (romFlash (romStep { s with hw := none } 0x3C) env.bfId) c env.kat = (p, none) ∧ romRoot (romStep p 0x55) env = (q, some code) :=
  ⟨rom0, (test1 rom0 false {}).1, (root1 rom0 false {}).1, {}, false, 0x0A0C, by decide, by decide, by decide, by decide, test1_eq (by decide +kernel), root1_eq (by decide +kernel)⟩
theorem wit_RomFlowEnds_3 : ∃ (s p q : State) (env : RomEnv) (c : Bool), s.sage = .rom c ∧ s.rst = .none ∧ s.reconciling = false ∧ s.tbLoss = false ∧ romSelfTest (romFlash (romStep { s with hw := none } 0x3C) env.bfId) c env.kat = (p, none) ∧ romRoot (romStep p 0x55) env = (q, none) :=
  ⟨rooted0, (test1 rooted0 false {}).1, (root1 rooted0 false {}).1, {}, false, by decide, by decide, by decide, by decide, test1_eq (by decide +kernel), root1_eq (by decide +kernel)⟩
theorem wit_RomFlowEnds_4 : ∃ (s : State) (env : RomEnv) (x y : RomRun) (g : Bool) (sel : Option Nat), rbit s (reg .rom 0 0x050) 0 = false ∧ g = !rbit s (reg .rom 0 0x050) 3 ∧ x = romRun (rsetb s (reg .rom 0 0x100) 11 g) env 0 ∧ (if g then x else beforeSlots x env).halted = none ∧ selectSlot (if g then x else beforeSlots x env) env g = (y, sel) :=
  ⟨rom0, {}, romRun (rsetb rom0 (reg .rom 0 0x100) 11 (!rbit rom0 (reg .rom 0 0x050) 3)) {} 0, (selectSlot (sel0 rom0 {}) {} (!rbit rom0 (reg .rom 0 0x050) 3)).1, !rbit rom0 (reg .rom 0 0x050) 3, none, by decide, rfl, rfl, by decide, pairOf (by decide)⟩
theorem wit_RomFlowEnds_5 : ∃ (s : State) (_env : RomEnv), rbit s (reg .rom 0 0x050) 0 = true :=
  ⟨rset rom0 (reg .rom 0 0x050) 9, {}, by decide⟩
theorem wit_RomFlowEnds_6 : ∃ (s : State) (env : RomEnv) (v k : Nat) (x y : RomRun), s.sage = .copying v ∧ s.rst = .none ∧ s.tbLoss = false ∧ x = runCopy (openRec (romRun s env v) env) env ∧ x.halted = none ∧ selectSlot x env false = (y, some k) :=
  ⟨own0, env0, 0, 1, run0, (selectSlot run0 env0 false).1, by decide, by decide, by decide, rfl, by decide, pairOf run0_selects⟩
theorem wit_RomFlowEnds_7 : ∃ (s : State) (env : RomEnv) (v : Nat) (x y : RomRun), s.sage = .copying v ∧ s.rst = .none ∧ s.tbLoss = false ∧ x = runCopy (openRec (romRun s env v) env) env ∧ x.halted = none ∧ selectSlot x env false = (y, none) :=
  ⟨own1, {}, 0, run1, (selectSlot run1 {} false).1, by decide, by decide, by decide, rfl, by decide, pairOf (by decide)⟩
theorem wit_RomFlowEnds_8 : ∃ (x : RomRun) (env : RomEnv) (b : Bytes) (k : Nat) (wr tr d : Bool) (s t v w : State), s = loadBundle (rsetf (romStep x.s 0x96) (reg .rom 0 0x100) 2 0 k) b ∧ t = romStep (let s := if tr then fwFlag s 3 else s; if regionOn s then settingsStore { x with s := s } env b wr else s) 0x33 ∧ d = decide ((lifeCycle t).1 = 3) ∧ ((if d ∨ t.locked then (t, none) else romOwner t b) = (v, none)) ∧ (if d then (romStep v 0x99, none) else romMeasure (romStep v 0x99) b k) = (w, none) :=
  ⟨{ s := dec0 }, {}, [], 0, false, false, true, dec1, romStep dec1 0x33, romStep dec1 0x33, romStep (romStep dec1 0x33) 0x99, rfl, (by show _ = romStep (if regionOn dec1 then _ else dec1) _; rw [if_neg (by decide +kernel)]), by decide +kernel, if_pos (Or.inl rfl), if_pos rfl⟩
theorem wit_RomFlowEnds_9 : ∃ (s : State) (_env : RomEnv) (c : Bool), s.sage = .rom c ∧ s.rst = .none ∧ s.reconciling = false ∧ s.tbLoss = false :=
  ⟨rom0, {}, false, by decide⟩
theorem wit_TapInstructions_1 : ∃ (s : State) (_c _p : Bytes), s.rst ≠ .por ∧ debugOpen s 0 = true :=
  ⟨withRegs [(reg .rom 0 0x054, 0x80000001)], [1], [2], by decide⟩
theorem wit_TapInstructions_2 : ∃ (s : State) (_c _p : Bytes), s.rst ≠ .por ∧ debugOpen s 0 = false :=
  ⟨r0, [1], [2], by decide⟩
theorem wit_TapInstructions_3 : ∃ (s : State) (_c _p : Bytes), s.rst ≠ .por :=
  ⟨r0, [1], [2], by decide⟩
theorem wit_TapInstructions_4 : ∃ (s : State), s.rst ≠ .por :=
  ⟨r0, by decide⟩
theorem wit_TapInstructions_5 : ∃ (s : State), s.rst ≠ .por :=
  ⟨r0, by decide⟩
theorem wit_TapInstructions_6 : ∃ (s : State) (t : Bytes), s.rst = .none ∧ t.length = 176 :=
  ⟨r0, zeros 176, by decide, List.length_replicate⟩
theorem wit_TapInstructions_7 : ∃ (s : State) (t : Bytes), s.rst ≠ .por ∧ (s.rst ≠ .none ∨ t.length ≠ 176) :=
  ⟨r0, [], by decide⟩
theorem wit_TapInstructions_8 : ∃ (s : State), s.rst ≠ .por :=
  ⟨r0, by decide⟩
theorem wit_TapInstructions_9 : ∃ (s : State), s.rst ≠ .por :=
  ⟨r0, by decide⟩
theorem wit_TapInstructions_10 : ∃ (s : State), s.rst ≠ .por :=
  ⟨r0, by decide⟩
theorem wit_TapInstructions_12 : ∃ (s t : State) (c : Nat) (_inp : BusIn), s.rst ≠ .por ∧ c < 4 ∧ debugOpen s (if c = 0 then 1 else 2) = true ∧ t = emit { s with tapIr := 0x11 } (.tapIr 1) :=
  ⟨withRegs [(reg .rom 0 0x054, 0x80000004)], emit { withRegs [(reg .rom 0 0x054, 0x80000004)] with tapIr := 0x11 } (.tapIr 1), 3, {}, by decide⟩
theorem wit_TapInstructions_13 : ∃ (s t : State) (_inp : BusIn) (_op : DmiOp), s.rst ≠ .por ∧ debugOpen s 1 = false ∧ debugOpen s 2 = false ∧ debugOpen s 3 = false ∧ t = emit { s with tapIr := 0x11 } (.tapIr 1) :=
  ⟨r0, emit { r0 with tapIr := 0x11 } (.tapIr 1), {}, .other, by decide⟩
theorem wit_TapInstructions_14 : ∃ (s t : State) (_off _size : Nat) (_w : Word) (_inp : BusIn), s.rst ≠ .por ∧ debugOpen s 3 = true ∧ t = emit { s with tapIr := 0x11 } (.tapIr 1) :=
  ⟨withRegs [(reg .rom 0 0x054, 0x80000008)], emit { withRegs [(reg .rom 0 0x054, 0x80000008)] with tapIr := 0x11 } (.tapIr 1), reg .pwr 0 0x050, 4, 5, {}, by decide⟩
theorem wit_TapInstructions_15 : ∃ (s : State), s.rst = .por :=
  ⟨{ r0 with rst := .por }, by decide⟩
theorem wit_BootFlashCommands_1 : ∃ (s : State) (a : Acc) (d : Word) (ad b n : Nat), takes s a .rom 0 0x128 (withField d 3 0 1) = true ∧ rbit s (reg .rom 0 0x12C) 0 = false ∧ ad = (rget s (reg .rom 0 0x120)).toNat ∧ b = (rget s (reg .rom 0 0x124)).toNat ∧ n = fld d 28 16 ∧ bfBad s 1 ad b n = false :=
  ⟨bf0, sage, 0x00100000, 0x02001000, 0x20000000, 16, by decide⟩
theorem wit_BootFlashCommands_2 : ∃ (s : State) (a : Acc) (d : Word) (ad b n : Nat), takes s a .rom 0 0x128 (withField d 3 0 2) = true ∧ rbit s (reg .rom 0 0x12C) 0 = false ∧ ad = (rget s (reg .rom 0 0x120)).toNat ∧ b = (rget s (reg .rom 0 0x124)).toNat ∧ n = fld d 28 16 ∧ bfBad s 2 ad b n = false :=
  ⟨bf0, sage, 0x00100000, 0x02001000, 0x20000000, 16, by decide⟩
theorem wit_BootFlashCommands_3 : ∃ (s : State) (a : Acc) (d : Word) (ad b n : Nat), takes s a .rom 0 0x128 (withField d 3 0 3) = true ∧ rbit s (reg .rom 0 0x12C) 0 = false ∧ ad = (rget s (reg .rom 0 0x120)).toNat ∧ b = (rget s (reg .rom 0 0x124)).toNat ∧ n = fld d 28 16 ∧ bfBad s 3 ad b n = false :=
  ⟨bf0, sage, 0, 0x02001000, 0x20000000, 0, by decide⟩
theorem wit_BootFlashCommands_4 : ∃ (s : State) (a : Acc) (d : Word) (ad b n : Nat), takes s a .rom 0 0x128 (withField d 3 0 4) = true ∧ rbit s (reg .rom 0 0x12C) 0 = false ∧ ad = (rget s (reg .rom 0 0x120)).toNat ∧ b = (rget s (reg .rom 0 0x124)).toNat ∧ n = fld d 28 16 ∧ bfBad s 4 ad b n = false :=
  ⟨bf0, sage, 0, 0x02001000, 0x20000000, 0, by decide⟩
theorem wit_BootFlashCommands_5 : ∃ (s t : State) (a : Acc) (d : Word) (op ad b n : Nat), takes s a .rom 0 0x128 (withField d 3 0 op) = true ∧ op < 16 ∧ rbit s (reg .rom 0 0x12C) 0 = false ∧ ad = (rget s (reg .rom 0 0x120)).toNat ∧ b = (rget s (reg .rom 0 0x124)).toNat ∧ n = fld d 28 16 ∧ bfBad s op ad b n = true ∧ t = tstop (tstop (rset { s with bf := none } (reg .rom 0 0x12C) 0x013C0000) .bfPoll) .bfMax :=
  ⟨r0, tstop (tstop (rset r0 (reg .rom 0 0x12C) 0x013C0000) .bfPoll) .bfMax, sage, 0, 1, 0, 0, 0, by decide⟩
theorem wit_BootFlashCommands_6 : ∃ (s : State) (b : BfRun), running s .bfPoll = true ∧ s.bf = some b :=
  ⟨tset { r0 with bf := some ⟨3, 0x02001000, 0, 0, false, true⟩ } .bfPoll 200, ⟨3, 0x02001000, 0, 0, false, true⟩, by decide⟩
theorem wit_BootFlashCommands_7 : ∃ (s : State) (b : BfRun), running s .bfPoll = true ∧ s.bf = some b :=
  ⟨tset { r0 with bf := some ⟨3, 0x02001000, 0, 0, false, true⟩ } .bfPoll 200, ⟨3, 0x02001000, 0, 0, false, true⟩, by decide⟩
theorem wit_BootFlashCommands_8 : ∃ (s : State), running s .bfMax = true :=
  ⟨tset { r0 with bf := some ⟨3, 0x02001000, 0, 0, false, true⟩ } .bfMax 200, by decide⟩
theorem wit_BootFlashCommands_9 : ∃ (s : State) (_data : Bytes) (b : BfRun), s.bf = some b ∧ s.tbLoss = false ∧ b.op = 1 :=
  ⟨{ bf0 with bf := some ⟨1, 0, 0x20000000, 4, false, true⟩ }, [1, 2, 3, 4], ⟨1, 0, 0x20000000, 4, false, true⟩, by decide⟩
theorem wit_BootFlashCommands_10 : ∃ (s : State) (_data : Bytes) (b : BfRun), s.bf = some b ∧ s.tbLoss = false ∧ b.op ≠ 1 ∧ b.ready = true :=
  ⟨{ bf0 with bf := some ⟨3, 0x02001000, 0, 0, true, true⟩ }, [], ⟨3, 0x02001000, 0, 0, true, true⟩, by decide⟩
theorem wit_BootFlashCommands_11 : ∃ (s : State) (_data : Bytes) (b : BfRun), s.bf = some b ∧ s.tbLoss = false ∧ (b.op = 1 ∨ b.ready = true) :=
  ⟨{ bf0 with bf := some ⟨3, 0x02001000, 0, 0, true, true⟩ }, [], ⟨3, 0x02001000, 0, 0, true, true⟩, by decide⟩
theorem wit_PushWindow_1 : ∃ (s t : State) (off : Nat) (bs : List (Option Byte)), pciUp s = true ∧ t = wakeFor s 2 ∧ mayPush t 1 = true ∧ off + bs.length ≤ 0x400000 :=
  ⟨push0, push0, 0x3FFFFE, [some 1, none], by decide⟩
theorem wit_PushWindow_2 : ∃ (s t : State) (bs : List (Option Byte)), pciUp s = true ∧ t = wakeFor s 2 ∧ mayPush t 1 = true ∧ 0 < bs.length ∧ bs.length ≤ 8 :=
  ⟨push0, push0, [some 0x40, some 0, some 0, some 0], by decide⟩
theorem wit_PushWindow_3 : ∃ (s t : State) (off : Nat) (bs : List (Option Byte)), pciUp s = true ∧ t = wakeFor s 2 ∧ mayPush t 1 = false ∧ off ≠ 0x400004 ∧ off < 0x400008 ∧ off + bs.length ≤ 0x400008 :=
  ⟨r0, r0, 0, [some 1], by decide⟩
theorem wit_PushWindow_4 : ∃ (s t : State) (bs : List (Option Byte)) (w : Word), pciUp s = true ∧ t = wakeFor s 2 ∧ bs.length = 4 ∧ w = BitVec.ofNat 32 (leNat (bs.map (·.getD 0))) ∧ w ≠ rget t (reg .rom 0 0x118) :=
  ⟨push0, push0, [some 2, some 0, some 0, some 0], 2, by decide⟩
theorem wit_PushWindow_5 : ∃ (s : State) (_d : Word) (_env : RomEnv), pageOn s .pci 0 = true ∧ mayPush s 1 = false :=
  ⟨r0, 0xA5C30001, {}, by decide⟩
theorem wit_PushWindow_6 : ∃ (s : State) (d : Word) (_env : RomEnv), pageOn s .pci 0 = true ∧ mayPush s 1 = true ∧ (fld d 31 16 ≠ 0xA5C3 ∨ bit d 0 = false) :=
  ⟨push0, 0xA5C30000, {}, by decide⟩
theorem wit_PushWindow_7 : ∃ (s : State) (d : Word) (_env : RomEnv) (len : Nat), pageOn s .pci 0 = true ∧ mayPush s 1 = true ∧ fld d 31 16 = 0xA5C3 ∧ bit d 0 = true ∧ len = s.pushLen.toNat ∧ (len = 0 ∨ len > 0x400000 ∨ len % 64 ≠ 0) :=
  ⟨push0, 0xA5C30001, {}, 0, by decide⟩
theorem wit_PushWindow_8 : ∃ (s t : State) (d : Word) (env : RomEnv) (len : Nat) (b : Bytes) (x : RomRun), pageOn s .pci 0 = true ∧ mayPush s 1 = true ∧ fld d 31 16 = 0xA5C3 ∧ bit d 0 = true ∧ len = s.pushLen.toNat ∧ 0 < len ∧ len ≤ 0x400000 ∧ len % 64 = 0 ∧ s.sage = .window true ∧ t = rset (rsetf s (reg .rom 0 0x118) 4 3 1) (reg .rom 0 0x11C) s.pushLen ∧ b = memRead s.bootSram 0 len ∧ x = peekRec (romRun t env 0) env :=
  ⟨push1, rset (rsetf push1 (reg .rom 0 0x118) 4 3 1) (reg .rom 0 0x11C) 64, 0xA5C30001, {}, 64, memRead [] 0 64, peekRec (romRun (rset (rsetf push1 (reg .rom 0 0x118) 4 3 1) (reg .rom 0 0x11C) 64) {} 0) {}, by decide, by decide, by decide, by decide, by decide, by decide, by decide, by decide, by decide, rfl, rfl, rfl⟩
theorem wit_FuseCommands_1 : ∃ (s : State) (a : Acc) (d : Word) (w : Nat), takes s a .fus 0 0x044 (withField d 3 0 1) = true ∧ s.fus = none ∧ w = fld d 14 5 ∧ fusBad s (withField d 3 0 1) = none ∧ fuseUnsure s w = 0 :=
  ⟨r0, sage, 0xA5C31000, 128, by decide⟩
theorem wit_FuseCommands_2 : ∃ (s : State) (a : Acc) (d : Word) (w : Nat), takes s a .fus 0 0x044 (withField d 3 0 1) = true ∧ s.fus = none ∧ w = fld d 14 5 ∧ fusBad s (withField d 3 0 1) = none :=
  ⟨{ r0 with fuseU := [(128, 1)] }, sage, 0xA5C31000, 128, by decide⟩
theorem wit_FuseCommands_3 : ∃ (s : State) (a : Acc) (d bits : Word) (w : Nat), takes s a .fus 0 0x044 (withField d 3 0 2) = true ∧ s.fus = none ∧ w = fld d 14 5 ∧ fusBad s (withField d 3 0 2) = none ∧ bits = rget s (reg .fus 0 0x048) :=
  ⟨fuse0, sage, 0xA5C36000, 5, 768, by decide⟩
theorem wit_FuseCommands_4 : ∃ (s : State) (a : Acc) (d bits : Word) (w : Nat), takes s a .fus 0 0x044 (withField d 3 0 3) = true ∧ s.fus = none ∧ w = fld d 14 5 ∧ fusBad s (withField d 3 0 3) = none ∧ bits = fuseRead s w &&& ~~~fuseStrict s w :=
  ⟨setFuse fuse0 768 3 1, sage, 0xA5C36000, 2, 768, by decide⟩
theorem wit_FuseCommands_5 : ∃ (s t : State) (a : Acc) (d : Word) (b : Nat), takes s a .fus 0 0x044 (withField d 3 0 4) = true ∧ s.fus = none ∧ b = fld d 14 5 / 64 ∧ fusBad s (withField d 3 0 4) = none ∧ t = strictCheck s b :=
  ⟨fuse0, strictCheck fuse0 2, sage, 0xA5C31000, 2, by decide⟩
theorem wit_FuseCommands_6 : ∃ (s : State) (a : Acc) (d : Word), takes s a .fus 0 0x044 (withField d 3 0 5) = true ∧ s.fus = none ∧ fusBad s (withField d 3 0 5) = none :=
  ⟨fuse0, sage, 0xA5C30000, by decide⟩
theorem wit_FuseCommands_7 : ∃ (s : State) (a : Acc) (d : Word) (w : Nat), takes s a .fus 0 0x044 (withField d 3 0 6) = true ∧ s.fus = none ∧ w = fld d 14 5 ∧ fusBad s (withField d 3 0 6) = none ∧ ((s.fuseU.any fun e => e.1 / 64 == w / 64) = false) :=
  ⟨r0, sage, 0xA5C31000, 128, by decide⟩
theorem wit_FuseCommands_8 : ∃ (s : State) (a : Acc) (d : Word) (w : Nat), takes s a .fus 0 0x044 (withField d 3 0 6) = true ∧ s.fus = none ∧ w = fld d 14 5 ∧ fusBad s (withField d 3 0 6) = none :=
  ⟨{ r0 with fuseU := [(128, 1)] }, sage, 0xA5C31000, 128, by decide⟩
theorem wit_FuseCommands_9 : ∃ (s t : State) (a : Acc) (d : Word) (op code : Nat), takes s a .fus 0 0x044 (withField d 3 0 op) = true ∧ op < 16 ∧ s.fus = none ∧ fusBad s (withField d 3 0 op) = some code ∧ t = fusEnd s code 0 (fld d 14 5) :=
  ⟨r0, fusEnd r0 0x080B 0 768, sage, 0xA5C26000, 2, 0x080B, by decide⟩
theorem wit_FuseCommands_10 : ∃ (_s : State) (_d : Word) (op : Nat), 1 ≤ op ∧ op ≤ 6 :=
  ⟨r0, 0, 1, by decide⟩
theorem wit_FuseCommands_11 : ∃ (s : State) (d : Word) (w : Nat), fld d 31 16 = 0xA5C3 ∧ s.locked = false ∧ w = fld d 14 5 :=
  ⟨r0, 0xA5C30000, 0, by decide⟩
theorem wit_FuseCommands_12 : ∃ (s : State) (a : Acc) (d : Word) (r : FusRun), takes s a .fus 0 0x044 (withField d 3 0 2) = true ∧ s.fus = some r :=
  ⟨pulse0, sage, 0xA5C36000, { steps := [.prog 768 5 true] }, by decide⟩
theorem wit_FusePulses_1 : ∃ (s : State) (w k : Nat) (b _r n t : Word) (st : Bool), running s .fusPulse = true ∧ s.fus = some ⟨[.prog w b st], k⟩ ∧ b &&& ~~~(fuseStrict s w ||| (t &&& b) ||| (if st then 0 else n &&& b)) = 0 :=
  ⟨pulse0, 768, 0, 5, 5, 5, 5, true, by decide⟩
theorem wit_FusePulses_2 : ∃ (s : State) (w w' k : Nat) (b b' r n t : Word) (st st' : Bool) (rest : List FusStep) (q : State), running s .fusPulse = true ∧ s.fus = some ⟨.prog w b st :: .prog w' b' st' :: rest, k⟩ ∧ b &&& ~~~(fuseStrict s w ||| (t &&& b) ||| (if st then 0 else n &&& b)) = 0 ∧ b' ≠ 0 ∧ q = { pulsed (expired s .fusPulse) w b (r ||| n ||| t) t (if st then t else n ||| t) with fus := some { steps := .prog w' b' st' :: rest } } :=
  ⟨pulse2, 768, 769, 0, 5, 6, 5, 5, 5, true, false, [], { pulsed (expired pulse2 .fusPulse) 768 5 5 5 5 with fus := some { steps := [.prog 769 6 false] } }, by decide⟩
theorem wit_FusePulses_3 : ∃ (s : State) (w k : Nat) (b _r n t f : Word) (st : Bool) (rest : List FusStep), running s .fusPulse = true ∧ s.fus = some ⟨.prog w b st :: rest, k⟩ ∧ f = b &&& ~~~(fuseStrict s w ||| (t &&& b) ||| (if st then 0 else n &&& b)) ∧ f ≠ 0 ∧ k < 4 ∧ s.tamperDue = 0 ∧ s.tem.observe = false :=
  ⟨{ pulse0 with tem := { pulse0.tem with observe := false } }, 768, 0, 5, 5, 5, 1, 4, true, [], by decide⟩
theorem wit_FusePulses_4 : ∃ (s : State) (w k : Nat) (b _r n t : Word) (st : Bool) (rest : List FusStep), running s .fusPulse = true ∧ s.fus = some ⟨.prog w b st :: rest, k⟩ ∧ 4 ≤ k ∧ b &&& ~~~(fuseStrict s w ||| (t &&& b) ||| (if st then 0 else n &&& b)) ≠ 0 :=
  ⟨{ pulse0 with fus := some { steps := [.prog 768 5 true], pulses := 4 } }, 768, 4, 5, 5, 5, 1, true, [], by decide⟩
theorem wit_FusePulses_6 : ∃ (s : State) (k : Nat) (m : Word) (r t : Bool), s.rst = .none ∧ tget s .fusPulse = none ∧ 0 < s.tamperDue ∧ k = tamperCount s ∧ k < 512 ∧ m = mk (k % 32) (k % 32) 1 ∧ (r ∨ t) :=
  ⟨{ r0 with tamperDue := 2 }, 0, 1, true, true, by decide⟩
theorem wit_FusePulses_7 : ∃ (s : State) (k : Nat) (m : Word), s.rst = .none ∧ tget s .fusPulse = none ∧ 0 < s.tamperDue ∧ k = tamperCount s ∧ k < 512 ∧ m = mk (k % 32) (k % 32) 1 :=
  ⟨{ r0 with tamperDue := 2 }, 0, 1, by decide⟩
theorem wit_FusePulses_8 : ∃ (s : State), s.rst = .none ∧ tget s .fusPulse = none ∧ 0 < s.tamperDue ∧ 512 ≤ tamperCount s :=
  ⟨{ setFuse r0 223 0x80000000 0x80000000 with tamperDue := 2 }, by decide⟩
theorem wit_CounterOperations_1 : ∃ (s : State) (a : Acc) (q : Nat) (d : Word), q < 4 ∧ takes s a .cst 0 (0x080 + 16 * q) (withField d 1 0 1) = true ∧ rbit s (coreResult q) 16 = false :=
  ⟨r0, sage, 0, 0x200, by decide⟩
theorem wit_CounterOperations_2 : ∃ (s : State) (a : Acc) (q : Nat) (d : Word), q < 4 ∧ takes s a .cst 0 (0x080 + 16 * q) (withField d 1 0 2) = true ∧ rbit s (coreResult q) 16 = false :=
  ⟨r0, ⟨2, true⟩, 2, 0x8C00, by decide⟩
theorem wit_CounterOperations_3 : ∃ (s : State) (a : Acc) (q : Nat) (d : Word), q < 4 ∧ takes s a .cst 0 (0x080 + 16 * q) (withField d 1 0 1) = true ∧ rbit s (coreResult q) 16 = true :=
  ⟨withRegs [(reg .cst 0 0x08C, 0x10000)], sage, 0, 0x200, by decide⟩
theorem wit_CounterOperations_4 : ∃ (s : State) (c : Nat) (d : Word), 68 ≤ c ∧ c < 256 ∧ takes s ⟨0, true⟩ .cst 0 (0x400 + 4 * c) d = true ∧ ownerValueOk c d = true :=
  ⟨r0, 140, 0x101, by decide⟩
theorem wit_CounterOperations_5 : ∃ (s : State) (a : Acc) (c : Nat) (d : Word), c < 256 ∧ takes s a .cst 0 (0x400 + 4 * c) d = true ∧ (a.master ≠ 0 ∨ ownerValueOk c d = false) :=
  ⟨r0, sage, 4, 0, by decide⟩
theorem wit_CounterOperations_6 : ∃ (s : State) (k q : Nat) (o : CstOp) (e : State), s.reconciling = false ∧ s.rst = .none ∧ s.cstOps[k]? = some o ∧ o.req = .core q ∧ cstBad s o = none ∧ e = { s with cstOps := s.cstOps.eraseIdx k } :=
  ⟨ctr0, 0, 0, ⟨.core 0, false, 2, 0⟩, { ctr0 with cstOps := [] }, by decide⟩
theorem wit_CounterOperations_7 : ∃ (s : State) (k q : Nat) (o : CstOp) (_bf : Bool), s.reconciling = false ∧ s.rst = .none ∧ s.cstOps[k]? = some o ∧ o.req = .core q ∧ cstBad s o = none ∧ cstResult s o ≠ counter s o.ctr :=
  ⟨ctr0, 0, 0, ⟨.core 0, false, 2, 0⟩, true, by decide⟩
theorem wit_CounterOperations_8 : ∃ (s : State) (k q code : Nat) (o : CstOp) (_x _y : Bool), (s.reconciling = false ∨ domOn s 29 = false) ∧ s.rst = .none ∧ s.cstOps[k]? = some o ∧ o.req = .core q ∧ cstBad s o = some code :=
  ⟨{ ctr0 with locked := true }, 0, 0, 0x0906, ⟨.core 0, false, 2, 0⟩, false, false, by decide⟩
theorem wit_CounterOperations_9 : ∃ (_s : State) (q : Nat) (o : CstOp), o.req = .core q ∧ o.ctr < 256 :=
  ⟨ctr0, 0, ⟨.core 0, false, 2, 0⟩, by decide⟩
theorem wit_CounterOperations_10 : ∃ (s : State) (c a b : Nat), s.reconciling = true ∧ s.rst ≠ .por ∧ domOn s 29 = true ∧ s.torn = [(c, some a, some b)] ∧ a ≠ b ∧ c < 256 ∧ s.pair.grantWaits = none :=
  ⟨{ r0 with torn := [(7, some 3, some 4)] }, 7, 3, 4, by decide⟩
theorem wit_TamperSamples_1 : ∃ (s : State) (i _c : Nat), s.rst = .none ∧ i ≤ 6 :=
  ⟨r0, 3, 7000, by decide⟩
theorem wit_TamperSamples_2 : ∃ (s : State) (i _c : Nat), s.rst = .none ∧ i ≤ 3 :=
  ⟨r0, 3, 5000, by decide⟩
theorem wit_TamperSamples_3 : ∃ (s : State) (_b : Bool), s.rst = .none ∧ s.tbLoss = false :=
  ⟨r0, true, by decide⟩
theorem wit_TamperSamples_4 : ∃ (s : State) (_b : Bool), s.rst = .none :=
  ⟨r0, true, by decide⟩
theorem wit_TamperSamples_5 : ∃ (s : State) (i : Nat) (_l : Bool), s.rst = .none ∧ s.tbLoss = false ∧ i ≤ 3 ∧ rbit s (temReg 0x048) i = true :=
  ⟨withRegs [(reg .tem 0 0x048, 0x12)], 1, false, by decide⟩
theorem wit_TamperSamples_6 : ∃ (s : State) (_c : Nat), s.rst = .none ∧ s.tem.window = false :=
  ⟨r0, 100, by decide⟩
theorem wit_TamperSamples_7 : ∃ (s t : State) (c : Nat), s.rst = .none ∧ s.tem.window = true ∧ t = sample (rset s (temReg 0x0EC) (mk 13 0 (c % 2 ^ 14))) 0xA0 false :=
  ⟨batt0, sample (rset batt0 (temReg 0x0EC) 100) 0xA0 false, 100, by decide⟩
theorem wit_TamperSamples_8 : ∃ (s : State) (i _c : Nat), s.rst = .none ∧ i ≤ 21 ∧ (i < 16 → pagePresent s.part .fgpCtl i = true) :=
  ⟨r0, 20, 0x99, by decide⟩
theorem wit_TamperSamples_9 : ∃ (s : State), s.rst = .none ∧ s.tbLoss = false :=
  ⟨{ r0 with tem := { r0.tem with met := [0x40, 3] } }, by decide⟩
theorem wit_TamperSamples_10 : ∃ (s : State) (n m : Nat) (old : List Nat), s.rst = .none ∧ s.tbLoss = false ∧ s.tem.met.contains 0x40 = false ∧ n = rfld s (temReg 0x068) 3 0 ∧ m = 100 * rfld s (temReg 0x068) 23 4 ∧ (old = (Tbl.get (fun _ => []) s.tem.excs 0x40).filter (fun t => s.tbTime ≤ t + m)) :=
  ⟨r0, 2, 10000, [], by decide⟩
theorem wit_TamperSamples_11 : ∃ (s : State), s.rst = .none ∧ s.tbLoss = true ∧ s.tem.met.contains 0x41 = false :=
  ⟨{ r0 with tbLoss := true }, by decide⟩
theorem wit_TamperSamples_12 : ∃ (s : State), s.rst = .none ∧ s.tem.met.contains 0x60 = false :=
  ⟨r0, by decide⟩
theorem wit_TamperAlarms_1 : ∃ (s : State), s.rst = .none ∧ s.tem.met.contains 0x60 = false ∧ s.tem.observe = false ∧ s.locked = false ∧ tamperNow s < 512 :=
  ⟨{ r0 with tem := { r0.tem with observe := false } }, by decide⟩
theorem wit_TamperAlarms_2 : ∃ (s : State), s.rst = .none ∧ s.tem.met.contains 0x60 = false ∧ s.tem.observe = true :=
  ⟨{ r0 with tem := { r0.tem with observe := true } }, by decide⟩
theorem wit_TamperAlarms_3 : ∃ (s : State), s.rst = .none ∧ s.tem.met.contains 0x60 = false ∧ s.tem.observe = false ∧ s.locked = true ∧ tamperNow s < 512 :=
  ⟨{ r0 with locked := true, tem := { r0.tem with observe := false } }, by decide⟩
theorem wit_TamperAlarms_4 : ∃ (s : State), running s .battOk = true :=
  ⟨batt0, by decide⟩
theorem wit_TamperAlarms_5 : ∃ (s : State), running s .battWin = true :=
  ⟨batt0, by decide⟩
theorem wit_TamperAlarms_6 : ∃ (s : State) (d : Word), takes s ⟨0, true⟩ .tem 0 0x058 (d ||| 1) = true ∧ fld d 31 16 = 0xA5C3 :=
  ⟨r0, 0xA5C30000, by decide⟩
theorem wit_WatchdogCounts_1 : ∃ (s : State) (w : Word), takes s ⟨0, true⟩ .bwd 0 0x048 w = true ∧ rfld s (reg .bwd 0 0x040) 7 0 = 0x0F ∧ fld w 31 16 = 0xA5C3 ∧ bit w 0 = true :=
  ⟨r0, 0xA5C30001, by decide⟩
theorem wit_WatchdogCounts_2 : ∃ (s : State) (w : Word), takes s ⟨0, true⟩ .bwd 0 0x050 w = true ∧ rfld s (reg .bwd 0 0x040) 7 0 = 0x0F ∧ fld w 31 16 = 0xA5C3 ∧ bit w 0 = true :=
  ⟨r0, 0xA5C30003, by decide⟩
theorem wit_WatchdogCounts_3 : ∃ (s : State), running s .bwdHalf = true :=
  ⟨tset r0 .bwdHalf 1, by decide⟩
theorem wit_WatchdogCounts_4 : ∃ (s : State) (a : Acc) (w : Word), takes s a .bwd 0 0x048 w = true ∧ (a.master ≠ 0 ∨ a.priv = false ∨ rfld s (reg .bwd 0 0x040) 7 0 ≠ 0x0F ∨ fld w 31 16 ≠ 0xA5C3) :=
  ⟨r0, ⟨1, true⟩, 0xA5C30001, by decide⟩
theorem wit_WatchdogCounts_5 : ∃ (s t : State) (w : Word), takes s ⟨0, true⟩ .twd 0 0x04C w = true ∧ s.tbLoss = false ∧ w ≠ 0 ∧ rfld s (reg .twd 0 0x040) 7 0 = 0x99 ∧ t = tset (rsetf (rset s (reg .twd 0 0x04C) (rget s (reg .twd 0 0x04C) ||| w)) (reg .twd 0 0x040) 7 0 0xAA) .twd (100 * rfld s (reg .twd 0 0x048) 23 0 + 1) :=
  ⟨r0, tset (rsetf (rset r0 (reg .twd 0 0x04C) 0x80000001) (reg .twd 0 0x040) 7 0 0xAA) .twd (100 * rfld r0 (reg .twd 0 0x048) 23 0 + 1), 0x80000001, by decide⟩
theorem wit_WatchdogCounts_6 : ∃ (s : State) (w : Word), takes s ⟨0, true⟩ .twd 0 0x04C w = true ∧ s.tbLoss = false ∧ w ≠ 0 ∧ rfld s (reg .twd 0 0x040) 7 0 ≠ 0x99 :=
  ⟨withRegs [(reg .twd 0 0x04C, 1), (reg .twd 0 0x040, 0xAA)], 3, by decide⟩
theorem wit_WatchdogCounts_7 : ∃ (s : State) (a : Acc) (w : Word), takes s a .twd 0 0x050 w = true ∧ s.tbLoss = false ∧ fld w 31 16 = 0xA5C3 ∧ rbit s (reg .twd 0 0x04C) (fld w 4 0) = true ∧ a.master.toNat = rfld s (reg .twd 0 (0x080 + 4 * fld w 4 0)) 7 0 ∧ a.priv = true ∧ rbit s (reg .twd 0 0x054) (fld w 4 0) = false :=
  ⟨withRegs [(reg .twd 0 0x04C, 0x80000000)], sage, 0xA5C3001F, by decide⟩
theorem wit_WatchdogCounts_8 : ∃ (s : State) (a : Acc) (w : Word), takes s a .twd 0 0x050 w = true ∧ s.tbLoss = false ∧ fld w 31 16 = 0xA5C3 ∧ rbit s (reg .twd 0 0x04C) (fld w 4 0) = true ∧ a.master.toNat = rfld s (reg .twd 0 (0x080 + 4 * fld w 4 0)) 7 0 ∧ a.priv = true ∧ rbit s (reg .twd 0 0x054) (fld w 4 0) = true :=
  ⟨withRegs [(reg .twd 0 0x04C, 0x80000000), (reg .twd 0 0x054, 0x80000000)], sage, 0xA5C3001F, by decide⟩
theorem wit_WatchdogCounts_9 : ∃ (s : State) (a : Acc) (w : Word), takes s a .twd 0 0x050 w = true ∧ s.tbLoss = false ∧ fld w 31 16 = 0xA5C3 ∧ rbit s (reg .twd 0 0x04C) (fld w 4 0) = false :=
  ⟨r0, sage, 0xA5C3001F, by decide⟩
theorem wit_WatchdogCounts_10 : ∃ (s t : State) (a : Acc) (w : Word), takes s a .twd 0 0x050 w = true ∧ s.tbLoss = false ∧ fld w 31 16 = 0xA5C3 ∧ rbit s (reg .twd 0 0x04C) (fld w 4 0) = true ∧ a.master.toNat ≠ rfld s (reg .twd 0 (0x080 + 4 * fld w 4 0)) 7 0 ∧ t = busLog s a true (reg .twd 0 0x050) 4 w .rights :=
  ⟨withRegs [(reg .twd 0 0x04C, 0x80000000)], busLog (withRegs [(reg .twd 0 0x04C, 0x80000000)]) ⟨2, true⟩ true (reg .twd 0 0x050) 4 0xA5C3001F .rights, ⟨2, true⟩, 0xA5C3001F, by decide⟩
theorem wit_WatchdogCounts_11 : ∃ (s : State) (a : Acc) (w : Word), takes s a .twd 0 0x050 w = true ∧ s.tbLoss = false ∧ fld w 31 16 ≠ 0xA5C3 :=
  ⟨r0, sage, 0xA5C2001F, by decide⟩
theorem wit_WatchdogCounts_12 : ∃ (s : State), running s .twd = true ∧ rget s (reg .twd 0 0x04C) &&& ~~~ rget s (reg .twd 0 0x054) &&& ~~~ s.twdNew = 0 :=
  ⟨tset r0 .twd 1, by decide⟩
theorem wit_WatchdogCounts_13 : ∃ (s : State), running s .twd = true ∧ rget s (reg .twd 0 0x04C) &&& ~~~ rget s (reg .twd 0 0x054) &&& ~~~ s.twdNew ≠ 0 ∧ rfld s (reg .twd 0 0x040) 7 0 = 0xAA :=
  ⟨tset (withRegs [(reg .twd 0 0x04C, 1), (reg .twd 0 0x040, 0xAA)]) .twd 1, by decide⟩
theorem wit_WatchdogCounts_14 : ∃ (s : State), running s .twd = true ∧ rget s (reg .twd 0 0x04C) &&& ~~~ rget s (reg .twd 0 0x054) &&& ~~~ s.twdNew ≠ 0 ∧ rfld s (reg .twd 0 0x040) 7 0 = 0xCC :=
  ⟨tset (withRegs [(reg .twd 0 0x04C, 1), (reg .twd 0 0x040, 0xCC)]) .twd 1, by decide⟩
theorem wit_PcieEndpointResets_1 : ∃ (s : State), pciUp s = true :=
  ⟨r0, by decide⟩
theorem wit_PcieEndpointResets_2 : ∃ (s u : State), ((∀ i, i < 65 → (inst s i).st = .none)) ∧ u = endpointReset s :=
  ⟨vfs0, endpointReset vfs0, by decide, rfl⟩
theorem wit_PcieEndpointResets_3 : ∃ (s : State), pciUp s = true :=
  ⟨withRegs [(reg .pci 0 0x040, 0x124)], by decide⟩
theorem wit_PcieEndpointResets_4 : ∃ (s : State), pciUp s = true ∧ rbit s (reg .pci 0 0x040) 8 = true :=
  ⟨withRegs [(reg .pci 0 0x040, 0x124)], by decide⟩
theorem wit_PcieEndpointResets_5 : ∃ (s : State) (speed width : Nat) (_l : Bool), pciUp s = true ∧ 1 ≤ speed ∧ speed ≤ 4 ∧ (width = 1 ∨ width = 2) ∧ rbit s (reg .pci 0 0x040) 8 = false :=
  ⟨r0, 4, 2, false, by decide⟩
theorem wit_PcieEndpointResets_6 : ∃ (s : State) (speed width : Nat), pciUp s = true ∧ 1 ≤ speed ∧ speed ≤ 4 ∧ (width = 1 ∨ width = 2) ∧ rbit s (reg .pci 0 0x040) 8 = true :=
  ⟨withRegs [(reg .pci 0 0x040, 0x124)], 4, 2, by decide⟩
theorem wit_PcieEndpointResets_7 : ∃ (s : State), pciUp s = true :=
  ⟨withRegs [(reg .pci 0 0x040, 0x124)], by decide⟩
theorem wit_PcieEndpointResets_8 : ∃ (s : State) (i : Nat), pciUp s = true ∧ 1 ≤ i ∧ i ≤ vfCount s ∧ (inst s i).st = .none :=
  ⟨vfs0, 2, by decide⟩
theorem wit_PcieEndpointResets_9 : ∃ (s : State) (i : Nat) (st : InstSt), pciUp s = true ∧ 1 ≤ i ∧ i ≤ vfCount s ∧ (inst s i).st = st ∧ st ≠ .none ∧ st ≠ .saved ∧ st ≠ .resetting :=
  ⟨setInst vfs0 2 { st := .frozen }, 2, .frozen, by decide⟩
theorem wit_PcieEndpointResets_10 : ∃ (s : State) (i : Nat), pciUp s = true ∧ 1 ≤ i ∧ i ≤ vfCount s ∧ (inst s i).st = .saved :=
  ⟨setInst vfs0 2 { st := .saved }, 2, by decide⟩
theorem wit_PcieEndpointResets_11 : ∃ (s : State) (num : Nat) (ari : Bool), pciUp s = true ∧ 0 < s.part.vfs ∧ num ≤ s.part.vfs ∧ (num ≤ 7 ∨ ari = true) ∧ vfCount s ≤ num ∧ s.insts = [] ∧ s.pci = [] ∧ s.msix = [] :=
  ⟨r0, 7, false, by decide⟩
theorem wit_PcieEndpointResets_12 : ∃ (s : State) (_en _ari : Bool) (num : Nat), pciUp s = true ∧ 0 < s.part.vfs ∧ s.part.vfs < num :=
  ⟨r0, true, true, 20000, by decide⟩
theorem wit_PcieFunctionCommands_1 : ∃ (s : State) (fn : Nat) (_f : PciFn), pciUp s = true ∧ 1 ≤ fn ∧ fn ≤ vfCount s ∧ ((∀ v, v < 4 → (msixEnt s fn v).pend = false)) :=
  ⟨vfs0, 3, { bme := true, msixEn := true }, by decide⟩
theorem wit_PcieFunctionCommands_2 : ∃ (s : State) (_f : PciFn), pciUp s = true ∧ ((∀ fn v, v < 64 → (msixEnt s fn v).pend = false)) :=
  ⟨vfs0, { bme := true, pri := true }, by decide, fun _ _ _ => rfl⟩
theorem wit_PcieFunctionCommands_3 : ∃ (s t : State) (fn v _addr _data : Nat) (_m : Bool), pciUp s = true ∧ (fn = 0 ∨ fn ≤ vfCount s) ∧ v < (if fn = 0 then 64 else 4) ∧ t = wakeFor s 2 ∧ ((∀ x, x < 64 → (msixEnt t fn x).pend = false)) :=
  ⟨vfs0, vfs0, 3, 3, 4096, 77, true, by decide⟩
theorem wit_PcieFunctionCommands_4 : ∃ (s : State) (fn v _addr _data : Nat) (_m : Bool), pciUp s = true ∧ (fn = 0 ∨ fn ≤ vfCount s) ∧ (if fn = 0 then 64 else 4) ≤ v :=
  ⟨vfs0, 3, 4, 4096, 77, true, by decide⟩
theorem wit_PcieFunctionCommands_5 : ∃ (s : State) (fn v _addr _data : Nat), pciUp s = true ∧ pwrState s = 0 ∧ (fn = 0 ∨ fn ≤ vfCount s) ∧ v < (if fn = 0 then 64 else 4) ∧ ((∀ x, x < 64 → x ≠ v → (msixEnt s fn x).pend = false)) ∧ (msixEnt s fn v).pend = true ∧ (pciFn s fn).msixEn = true ∧ (pciFn s fn).fmask = false ∧ (pciFn s fn).bme = true ∧ (pciFn s 0).d3 = false :=
  ⟨setMsix (setPciFn vfs0 3 { bme := true, msixEn := true }) 3 1 { pend := true }, 3, 1, 4096, 77, by decide⟩
theorem wit_PcieFunctionCommands_6 : ∃ (s : State) (fn v : Nat), running s (.resend (64 * fn + v)) = true ∧ s.vecs.contains (64 * fn + v) = true ∧ rfld s (reg .evh 0 0x040) 15 0 ≠ 0 :=
  ⟨{ tset (withRegs [(reg .evh 0 0x040, 5)]) (.resend 66) 9 with vecs := [66] }, 1, 2, by decide⟩
theorem wit_PcieFunctionCommands_7 : ∃ (s : State) (fn addr len : Nat) (_ws : List Walk), pciUp s = true ∧ (fn = 0 ∨ fn ≤ vfCount s) ∧ (jobsWith s (fun j => decide (j.sub = .inst fn) && j.fwd.isSome && usesRange s fn j addr len) = []) :=
  ⟨setPciFn (rset vfs0 (reg .itu 0 0x040) 1) 3 { ats := true }, 3, 0, 4096, [], by decide⟩
theorem wit_PcieFunctionCommands_8 : ∃ (s : State) (fn addr len t : Nat) (_ws : List Walk) (j : Job), pciUp s = true ∧ (fn = 0 ∨ fn ≤ vfCount s) ∧ atsOn s fn = true ∧ rbit s (reg .itu 0 0x040) 0 = true ∧ (jobsWith s (fun j => decide (j.sub = .inst fn) && j.fwd.isSome && usesRange s fn j addr len) = [(t, j)]) ∧ job? s t = some j :=
  ⟨ats0, 3, 0x5000, 4096, 5, [], atsJob, by decide, by decide, by decide, by decide, rfl, rfl⟩
theorem wit_PcieFunctionCommands_9 : ∃ (s : State) (idx : Nat) (_success : Bool) (_ws : List Walk), ((s.prgs.find? fun p => decide (p.idx = idx)) = none) ∧ s.prgStale.contains idx = false :=
  ⟨r0, 3, true, [], by decide⟩
theorem wit_PcieFunctionCommands_10 : ∃ (s : State) (idx : Nat) (_success : Bool) (_ws : List Walk), ((s.prgs.find? fun p => decide (p.idx = idx)) = none) ∧ s.prgStale.contains idx = true :=
  ⟨{ r0 with prgStale := [3] }, 3, true, [], by decide⟩
theorem wit_PcieFunctionCommands_11 : ∃ (s u : State) (p : Prg) (idx t : Nat) (_ws : List Walk), ((s.prgs.find? fun p => decide (p.idx = idx)) = some p) ∧ p.tag = some t ∧ (u = tstop { s with prgs := s.prgs.filter fun x => !(x.idx == idx) } (.prg idx)) :=
  ⟨prg0 (some 5), tstop { prg0 (some 5) with prgs := [] } (.prg 3), ⟨3, 3, some 5⟩, 3, 5, [], by decide⟩
theorem wit_PcieFunctionCommands_12 : ∃ (s u : State) (p : Prg) (idx : Nat) (_ws : List Walk), ((s.prgs.find? fun p => decide (p.idx = idx)) = some p) ∧ p.tag = none ∧ (u = tstop { s with prgs := s.prgs.filter fun x => !(x.idx == idx) } (.prg idx)) :=
  ⟨prg0 none, tstop { prg0 none with prgs := [] } (.prg 3), ⟨3, 3, none⟩, 3, [], by decide⟩
theorem wit_PcieFunctionCommands_13 : ∃ (s : State) (t i : Nat) (j : Job) (_ws : List Walk) (rest : List (Nat × Option Nat)), s.prgWait = (i, some t) :: rest ∧ job? s t = some j ∧ j.st = .faultFetch :=
  ⟨{ setJob r0 5 { atsJob with fwd := none, st := .faultFetch } with prgWait := [(3, some 5)] }, 5, 3, { atsJob with fwd := none, st := .faultFetch }, [], [], by decide⟩
theorem wit_PcieFunctionCommands_14 : ∃ (s : State) (idx : Nat) (_ws : List Walk), running s (.prg idx) = true :=
  ⟨prg0 none, 3, [], by decide⟩
theorem wit_PcieFunctionCommands_15 : ∃ (s : State) (t : Nat) (_ws : List Walk) (j : Job) (i : Nat), pciUp s = true ∧ running s (.pcieRead t) = true ∧ job? s t = some j ∧ j.sub = .inst i ∧ j.st = .running ∧ j.unit.isSome = true ∧ j.done = none :=
  ⟨tset (setJob vfs0 5 { atsJob with fwd := none, unit := some (0, 0) }) (.pcieRead 5) 9, 5, [], { atsJob with fwd := none, unit := some (0, 0) }, 3, by decide⟩
theorem wit_PcieFunctionCommands_16 : ∃ (s : State), pciUp s = true :=
  ⟨r0, by decide⟩
theorem wit_I3cPackets_1 : ∃ (s : State) (a : Nat) (p : Bytes), i3cUp s = true ∧ dynAddr s = some a ∧ rbit s (reg .i3c 0 0x040) 0 = true ∧ s.i3c.rx.length < 4 ∧ p ≠ [] ∧ p.length < i3cMwl s :=
  ⟨i3c0, 9, [1, 2, 3], by decide⟩
theorem wit_I3cPackets_2 : ∃ (s : State) (a : Nat) (p : Bytes) (c : Byte), i3cUp s = true ∧ dynAddr s = some a ∧ rbit s (reg .i3c 0 0x040) 0 = true ∧ s.i3c.rx.length < 4 ∧ p ≠ [] ∧ p.length < i3cMwl s ∧ c ≠ pec (addrByte a false :: p) :=
  ⟨i3c0, 9, [1, 2, 3], 0, by decide +kernel⟩
theorem wit_I3cPackets_3 : ∃ (s : State) (_bs : Bytes), i3cUp s = true ∧ (dynAddr s).isSome = true ∧ (rbit s (reg .i3c 0 0x040) 0 = false ∨ 4 ≤ s.i3c.rx.length) :=
  ⟨{ i3c0 with i3c := { rx := [[1], [2], [3], [4]] } }, [5, 6], by decide⟩
theorem wit_I3cPackets_4 : ∃ (s : State) (bs : Bytes), i3cUp s = true ∧ (dynAddr s).isSome = true ∧ rbit s (reg .i3c 0 0x040) 0 = true ∧ s.i3c.rx.length < 4 ∧ (bs.length < 2 ∨ i3cMwl s < bs.length) :=
  ⟨i3c0, [7], by decide⟩
theorem wit_I3cPackets_5 : ∃ (s : State) (a : Acc), takes s a .i3c 0 0x04C 1 = true :=
  ⟨{ i3c0 with i3c := { rx := [[1], [2, 3]] } }, sage, by decide⟩
theorem wit_I3cPackets_6 : ∃ (s : State) (a : Acc) (d : Word) (n : Nat), takes s a .i3c 0 0x050 (d ||| 0x10000) = true ∧ bit d 17 = false ∧ s.i3c.tx = none ∧ n = fld d 8 0 ∧ 0 < n ∧ n + 1 ≤ i3cMrl s :=
  ⟨rset i3c0 (reg .i3c 0 0x058) 50, sage, 5, 5, by decide⟩
theorem wit_I3cPackets_7 : ∃ (s : State) (a : Acc) (d : Word), takes s a .i3c 0 0x050 (d ||| 0x10000) = true ∧ bit d 17 = false ∧ (s.i3c.tx.isSome = true ∨ fld d 8 0 = 0 ∨ i3cMrl s ≤ fld d 8 0) :=
  ⟨{ i3c0 with i3c := { tx := some 5 } }, sage, 5, by decide⟩
theorem wit_I3cPackets_8 : ∃ (s : State) (n a : Nat), i3cUp s = true ∧ s.i3c.tx = some n ∧ dynAddr s = some a :=
  ⟨{ i3c0 with i3c := { tx := some 5 } }, 5, 9, by decide⟩
theorem wit_I3cPackets_9 : ∃ (s : State) (_acked : Bool), i3cUp s = true ∧ s.i3c.tx.isSome = true ∧ (dynAddr s).isSome = true ∧ rbit s (reg .i3c 0 0x044) 8 = true ∧ rbit s (reg .i3c 0 0x054) 1 = false :=
  ⟨{ rset i3c0 (reg .i3c 0 0x044) 0x189 with i3c := { tx := some 5 } }, true, by decide⟩
theorem wit_I3cPackets_10 : ∃ (s : State) (a : Acc), takes s a .i3c 0 0x050 0x20000 = true ∧ s.i3c.tx.isSome = true :=
  ⟨{ i3c0 with i3c := { tx := some 5 } }, sage, by decide⟩
theorem wit_I3cPackets_11 : ∃ (s : State), running s .i3cTx = true :=
  ⟨tset { i3c0 with i3c := { tx := some 5 } } .i3cTx 7, by decide⟩
theorem wit_I3cCommonCommands_1 : ∃ (s : State) (_e : Byte) (all : Bool), i3cUp s = true ∧ (all = true ∨ (dynAddr s).isSome = true) :=
  ⟨r0, 1, true, by decide⟩
theorem wit_I3cCommonCommands_2 : ∃ (s : State), i3cUp s = true ∧ (dynAddr s).isSome = true :=
  ⟨i3c0, by decide⟩
theorem wit_I3cCommonCommands_3 : ∃ (s : State) (a : Nat), i3cUp s = true ∧ dynAddr s = none ∧ a < 128 :=
  ⟨r0, 0x30, by decide⟩
theorem wit_I3cCommonCommands_4 : ∃ (s : State) (a : Nat), i3cUp s = true ∧ dynAddr s = none ∧ a < 128 :=
  ⟨r0, 0x30, by decide⟩
theorem wit_I3cCommonCommands_5 : ∃ (s : State) (a : Nat), i3cUp s = true ∧ (dynAddr s).isSome = true ∧ a < 128 :=
  ⟨i3c0, 0x30, by decide⟩
theorem wit_I3cCommonCommands_6 : ∃ (s : State) (n : Nat) (all : Bool), i3cUp s = true ∧ (all = true ∨ (dynAddr s).isSome = true) ∧ 69 ≤ n ∧ n ≤ 256 :=
  ⟨i3c0, 256, false, by decide⟩
theorem wit_I3cCommonCommands_7 : ∃ (s : State), i3cUp s = true ∧ (dynAddr s).isSome = true :=
  ⟨i3c0, by decide⟩
theorem wit_I3cCommonCommands_8 : ∃ (s : State) (all : Bool), i3cUp s = true ∧ (all = true ∨ (dynAddr s).isSome = true) :=
  ⟨{ i3c0 with i3c := { rx := [[1], [2, 3]], tx := some 5 } }, false, by decide⟩
theorem wit_I3cCommonCommands_9 : ∃ (_s : State) (e : Byte) (_all : Bool), e ≠ 1 :=
  ⟨i3c0, 0, false, by decide⟩
theorem wit_I3cCommonCommands_10 : ∃ (_s : State) (n : Nat) (_all : Bool), (n < 69 ∨ 256 < n) :=
  ⟨i3c0, 68, true, by decide⟩
theorem wit_I3cCommonCommands_11 : ∃ (s : State) (_a sa : Nat), ((dynAddr s).isSome = true ∨ sa ≠ 0x50 + rfld s (reg .rom 0 0x050) 12 10) :=
  ⟨i3c0, 3, 0x50, by decide⟩
theorem wit_I3cCommonCommands_12 : ∃ (s : State) (_e : Byte) (_a : Nat), (dynAddr s = none ∨ i3cUp s = false) :=
  ⟨r0, 1, 0x30, by decide⟩
theorem wit_ServicePortRequests_1 : ∃ (s : State) (_t _q : Nat) (_p : Bytes), svcUp s = true :=
  ⟨r0, 1, 2, [], by decide⟩
theorem wit_ServicePortRequests_2 : ∃ (s : State) (t q : Nat) (p : Bytes), newRequest s t q = true ∧ svcKnown t = false ∧ crcOk p = true :=
  ⟨calm, 0x33, 2, withCrc [], by decide, by decide, by decide +kernel⟩
theorem wit_ServicePortRequests_3 : ∃ (s : State) (q : Nat) (_p d : Bytes) (x : List (Nat × Nat × Bytes)), svcUp s = true ∧ s.svc.answered = (0x01, q, d) :: x :=
  ⟨{ calm with svc := { answered := [(1, 7, [5])] } }, 7, [], [5], [], by decide⟩
theorem wit_ServicePortRequests_4 : ∃ (s : State) (q : Nat) (p : Bytes), newRequest s 0x01 q = true ∧ crcOk p = false :=
  ⟨calm, 7, [1, 2, 3], by decide⟩
theorem wit_ServicePortRequests_5 : ∃ (s : State) (q : Nat) (p : Bytes), newRequest s 0x01 q = true ∧ crcOk p = true :=
  ⟨calm, 7, withCrc [], by decide, by decide +kernel⟩
theorem wit_ServicePortRequests_6 : ∃ (s : State) (q d : Nat) (p : Bytes), newRequest s 0x02 q = true ∧ p = withCrc (leBytes 2 d ++ [0, 0]) ∧ crcOk p = true ∧ d < 65536 :=
  ⟨calm, 7, 400, withCrc (leBytes 2 400 ++ [0, 0]), by decide, rfl, by decide +kernel, by decide⟩
theorem wit_ServicePortRequests_7 : ∃ (s : State) (d : Nat), running s .svcBaud = true ∧ s.svc.newDiv = some d :=
  ⟨tset { calm with svc := { newDiv := some 400 } } .svcBaud 8, 400, by decide⟩
theorem wit_ServicePortRequests_8 : ∃ (s : State) (d : Nat), running s .svcRevert = true ∧ s.svc.oldDiv = some d :=
  ⟨tset { calm with svc := { oldDiv := some 800 } } .svcRevert 8, 800, by decide⟩
theorem wit_ServicePortRequests_9 : ∃ (s : State) (q : Nat) (_p : Bytes), svcUp s = true ∧ ((s.svc.answered.any fun a => a.1 == 0x01 && a.2.1 == q) = false) ∧ 2 ≤ s.svc.queue.length :=
  ⟨{ calm with svc := { queue := [⟨0x40, 1, [], none⟩, ⟨1, 2, [], none⟩] } }, 7, [], by decide⟩
theorem wit_ServicePortRequests_10 : ∃ (s : State) (q : Nat) (_p : Bytes) (a : SvcReq), svcUp s = true ∧ ((s.svc.answered.any fun a => a.1 == 0x01 && a.2.1 == q) = false) ∧ s.svc.queue = [a] :=
  ⟨{ calm with svc := { queue := [⟨0x40, 1, [], none⟩] } }, 7, [], ⟨0x40, 1, [], none⟩, by decide⟩
theorem wit_ServiceSessions_1 : ∃ (s : State) (q : Nat) (p : Bytes), newRequest s 0x10 q = true ∧ crcOk p = true ∧ p.length = 4 :=
  ⟨{ withRegs [(reg .svc 0 0x044, 1)] with sage := .run }, 7, withCrc [], by decide, by decide +kernel, by decide +kernel⟩
theorem wit_ServiceSessions_2 : ∃ (s : State) (q i : Nat) (b p : Bytes), newRequest s 0x11 q = true ∧ s.svc.session = true ∧ i < 2048 ∧ b.length = 4096 ∧ s.bf = none ∧ p = leBytes 2 i ++ leBytes 2 (0xFFFF - i) ++ b ++ leBytes 4 (crc32c b).toNat :=
  ⟨{ r0 with svc := { session := true } }, 7, 5, zeros 4096, leBytes 2 5 ++ leBytes 2 (0xFFFF - 5) ++ zeros 4096 ++ leBytes 4 (crc32c (zeros 4096)).toNat, by decide, by decide, by decide, List.length_replicate, by decide, rfl⟩
theorem wit_ServiceSessions_3 : ∃ (s : State) (q i : Nat) (b p : Bytes) (c : Word) (_r : Option Bytes), newRequest s 0x11 q = true ∧ s.svc.session = true ∧ i < 2048 ∧ b.length = 4096 ∧ c ≠ crc32c b ∧ p = leBytes 2 i ++ leBytes 2 (0xFFFF - i) ++ b ++ leBytes 4 c.toNat :=
  ⟨{ r0 with svc := { session := true } }, 7, 5, zeros 4096, leBytes 2 5 ++ leBytes 2 (0xFFFF - 5) ++ zeros 4096 ++ leBytes 4 (crc32c (zeros 4096) + 1).toNat, crc32c (zeros 4096) + 1, none, by decide, by decide, by decide, List.length_replicate, succ_ne _, rfl⟩
theorem wit_ServiceSessions_4 : ∃ (s : State) (q i : Nat) (b p : Bytes) (r : Option Bytes), newRequest s 0x11 q = true ∧ s.svc.session = true ∧ i < 2048 ∧ b.length = 4096 ∧ s.bf = none ∧ r ≠ some b ∧ p = leBytes 2 i ++ leBytes 2 (0xFFFF - i) ++ b ++ leBytes 4 (crc32c b).toNat :=
  ⟨{ r0 with svc := { session := true } }, 7, 5, zeros 4096, leBytes 2 5 ++ leBytes 2 (0xFFFF - 5) ++ zeros 4096 ++ leBytes 4 (crc32c (zeros 4096)).toNat, none, by decide, by decide, by decide, List.length_replicate, by decide, nofun, rfl⟩
theorem wit_ServiceSessions_5 : ∃ (s : State) (q i : Nat) (b p : Bytes) (_r : Option Bytes), newRequest s 0x11 q = true ∧ s.svc.session = true ∧ i < 2048 ∧ b.length = 4096 ∧ s.bf.isSome = true ∧ p = leBytes 2 i ++ leBytes 2 (0xFFFF - i) ++ b ++ leBytes 4 (crc32c b).toNat :=
  ⟨{ r0 with svc := { session := true }, bf := some ⟨1, 0, 0, 4, false, true⟩ }, 7, 5, zeros 4096, leBytes 2 5 ++ leBytes 2 (0xFFFF - 5) ++ zeros 4096 ++ leBytes 4 (crc32c (zeros 4096)).toNat, none, by decide, by decide, by decide, List.length_replicate, by decide, rfl⟩
theorem wit_ServiceSessions_6 : ∃ (s : State) (q : Nat) (p : Bytes) (_r : Option Bytes), newRequest s 0x11 q = true ∧ (s.svc.session = false ∨ p.length ≠ 4104) :=
  ⟨calm, 7, [1], none, by decide⟩
theorem wit_ServiceSessions_7 : ∃ (s : State) (q : Nat) (p : Bytes) (_r : Option Bytes), newRequest s 0x11 q = true ∧ s.svc.session = true ∧ p.length = 4104 ∧ (fieldLe p 2 2 ≠ 0xFFFF - fieldLe p 0 2 ∨ 2047 < fieldLe p 0 2) :=
  ⟨{ r0 with svc := { session := true } }, 7, zeros 4104, none, by decide, by decide, List.length_replicate, Or.inl (by decide)⟩
theorem wit_ServiceSessions_8 : ∃ (s : State) (q : Nat) (p : Bytes), newRequest s 0x12 q = true ∧ s.svc.session = true ∧ crcOk p = true ∧ p.length = 4 :=
  ⟨{ r0 with svc := { session := true } }, 7, withCrc [], by decide, by decide, by decide +kernel, by decide +kernel⟩
theorem wit_ServiceSessions_9 : ∃ (s : State), running s .svcSession = true ∧ s.svc.session = true :=
  ⟨tset { r0 with svc := { session := true } } .svcSession 6, by decide⟩
theorem wit_ServiceSessions_10 : ∃ (s : State) (q o : Nat) (b p : Bytes), newRequest s 0x20 q = true ∧ o < 2 ^ 32 ∧ p = withCrc (leBytes 4 o ++ b) ∧ crcOk p = true :=
  ⟨push1, 7, 8, [1, 2, 3, 4], withCrc (leBytes 4 8 ++ [1, 2, 3, 4]), by decide, by decide, rfl, by decide +kernel⟩
theorem wit_ServiceSessions_11 : ∃ (s : State) (q n : Nat) (p : Bytes) (env : RomEnv) (g : State × Nat), newRequest s 0x21 q = true ∧ mayPush s 3 = true ∧ n < 2 ^ 32 ∧ p = withCrc (leBytes 4 n ++ [0xC3, 0xA5, 0, 0]) ∧ crcOk p = true ∧ g = pushGo { arrived s true with pushLen := BitVec.ofNat 32 n } 3 env :=
  ⟨push1, 7, 0, withCrc (leBytes 4 0 ++ [0xC3, 0xA5, 0, 0]), {}, pushGo { arrived push1 true with pushLen := BitVec.ofNat 32 0 } 3 {}, by decide, by decide, by decide, rfl, by decide +kernel, rfl⟩
theorem wit_ServiceSessions_12 : ∃ (s : State) (q : Nat) (p : Bytes) (_env : RomEnv), newRequest s 0x21 q = true ∧ (mayPush s 3 = false ∨ p.length ≠ 12 ∨ fieldLe p 4 4 ≠ 0xA5C3) ∧ crcOk p = true :=
  ⟨calm, 7, withCrc [], {}, by decide, by decide, by decide +kernel⟩
theorem wit_ServiceSessions_13 : ∃ (s : State) (k q : Nat) (b p : Bytes), newRequest s (0x40 + k) q = true ∧ k < 64 ∧ p = withCrc b ∧ crcOk p = true :=
  ⟨{ withRegs [(reg .svc 0 0x044, 2)] with sage := .run }, 5, 7, [1, 2, 3], withCrc [1, 2, 3], by decide, by decide, rfl, by decide +kernel⟩
theorem wit_ServiceSessions_14 : ∃ (s : State) (a : Acc) (d : Word) (r : SvcReq) (rest : List SvcReq), takes s a .svc 0 0x054 d = true ∧ s.svc.queue = r :: rest ∧ 0x40 ≤ r.type ∧ fld d 8 0 ≤ 256 :=
  ⟨{ calm with svc := { queue := [⟨0x40, 1, [], none⟩] } }, sage, 3, ⟨0x40, 1, [], none⟩, [], by decide⟩
theorem wit_ServiceSessions_15 : ∃ (s : State) (a : Acc) (d : Word), takes s a .svc 0 0x054 d = true ∧ ((s.svc.queue.head?.all fun r => r.type < 0x40) = true) :=
  ⟨calm, sage, 3, by decide⟩
theorem wit_ServiceSessions_16 : ∃ (s : State) (a : Acc) (d : Word) (r : SvcReq) (rest : List SvcReq), takes s a .svc 0 0x054 d = true ∧ s.svc.queue = r :: rest ∧ 0x40 ≤ r.type ∧ 256 < fld d 8 0 :=
  ⟨{ calm with svc := { queue := [⟨0x40, 1, [], none⟩] } }, sage, 257, ⟨0x40, 1, [], none⟩, [], by decide⟩
theorem wit_InstanceLifeCycle_1 : ∃ (s : State) (a : Acc) (i : Nat) (d : Word), takes s a .inst i 0x084 (withField d 3 0 1) = true ∧ fld d 31 16 = 0xA5C3 ∧ (inst s i).st = .none ∧ (i = 0 ∨ i ≤ vfCount s) ∧ (kslot s 4).st = .live ∧ createBad s i = false :=
  ⟨slots0, sage, 3, 0xA5C30000, by decide +kernel⟩
theorem wit_InstanceLifeCycle_3 : ∃ (s : State) (a : Acc) (i : Nat) (d : Word), takes s a .inst i 0x084 (withField d 3 0 1) = true ∧ fld d 31 16 = 0xA5C3 ∧ (inst s i).st = .none ∧ (i = 0 ∨ i ≤ vfCount s) ∧ (kslot s 4).st = .live ∧ createBad s i = true :=
  ⟨setKslot vfs0 4 { st := .live }, sage, 3, 0xA5C30000, by decide +kernel⟩
theorem wit_InstanceLifeCycle_4 : ∃ (s : State) (a : Acc) (i : Nat) (d : Word), takes s a .inst i 0x084 (withField d 3 0 1) = true ∧ fld d 31 16 = 0xA5C3 :=
  ⟨live0, sage, 3, 0xA5C30000, by decide⟩
theorem wit_InstanceLifeCycle_5 : ∃ (s : State) (a : Acc) (i : Nat) (d : Word), takes s a .inst i 0x084 (withField d 3 0 2) = true ∧ fld d 31 16 = 0xA5C3 ∧ (inst s i).st = .none :=
  ⟨r0, sage, 3, 0xA5C30000, by decide⟩
theorem wit_InstanceLifeCycle_6 : ∃ (s : State) (a : Acc) (i : Nat) (d : Word), takes s a .inst i 0x084 (withField d 3 0 2) = true ∧ fld d 31 16 = 0xA5C3 ∧ (inst s i).st ≠ .none ∧ (inst s i).st ≠ .resetting :=
  ⟨live0, sage, 3, 0xA5C30000, by decide⟩
theorem wit_InstanceLifeCycle_7 : ∃ (s : State) (a : Acc) (i : Nat) (d : Word), takes s a .inst i 0x084 (withField d 3 0 2) = true ∧ fld d 31 16 = 0xA5C3 ∧ (inst s i).st ≠ .none ∧ (inst s i).st ≠ .resetting ∧ genWait s i = 0 ∧ (s.jobs.all (fun e => decide (e.2.sub ≠ .inst i)) = true) ∧ s.cstOps = [] :=
  ⟨live0, sage, 3, 0xA5C30000, by decide +kernel⟩
theorem wit_InstanceLifeCycle_8 : ∃ (s : State) (a : Acc) (i : Nat) (d : Word) (_ws : List Walk) (st : InstSt), takes s a .inst i 0x084 (withField d 3 0 3) = true ∧ fld d 31 16 = 0xA5C3 ∧ (inst s i).st = st ∧ (st = .active ∨ st = .frozen ∨ st = .awaitRestore) :=
  ⟨live0, sage, 3, 0xA5C30000, [], .active, by decide +kernel⟩
theorem wit_InstanceLifeCycle_9 : ∃ (s : State) (a : Acc) (i : Nat) (d : Word), takes s a .inst i 0x084 (withField d 3 0 4) = true ∧ fld d 31 16 = 0xA5C3 ∧ i ≠ 0 ∧ (inst s i).st = .active :=
  ⟨live0, sage, 3, 0xA5C30000, by decide +kernel⟩
theorem wit_InstanceLifeCycle_10 : ∃ (s : State) (i : Nat), (inst s i).st = .freezing ∧ (s.jobs.all (fun e => decide (e.2.sub ≠ .inst i)) = true) :=
  ⟨setInst r0 3 { st := .freezing }, 3, by decide⟩
theorem wit_InstanceLifeCycle_11 : ∃ (s : State) (a : Acc) (i : Nat) (d : Word), takes s a .inst i 0x084 (withField d 3 0 5) = true ∧ fld d 31 16 = 0xA5C3 ∧ ((inst s i).st = .freezing ∨ (inst s i).st = .frozen) :=
  ⟨setInst live0 3 { st := .frozen }, sage, 3, 0xA5C30000, by decide +kernel⟩
theorem wit_InstanceLifeCycle_12 : ∃ (s : State) (a : Acc) (i : Nat) (d : Word), takes s a .inst i 0x084 (withField d 3 0 5) = true ∧ fld d 31 16 = 0xA5C3 ∧ (inst s i).st ≠ .freezing ∧ (inst s i).st ≠ .frozen :=
  ⟨live0, sage, 3, 0xA5C30000, by decide +kernel⟩
theorem wit_InstanceLifeCycle_13 : ∃ (s : State) (i : Nat), running s (.drain i) = true :=
  ⟨tset live0 (.drain 3) 8, 3, by decide⟩
theorem wit_InstanceLifeCycle_14 : ∃ (s : State) (i : Nat) (_ws : List Walk), running s (.genDelay i) = true :=
  ⟨tset (setInst r0 3 { st := .resetting, rst := some (.destroy, .none) }) (.genDelay 3) 8, 3, [], by decide⟩
theorem wit_InstanceMigration_1 : ∃ (s t : State) (a : Acc) (i : Nat) (d : Word) (inp : BusIn) (w z iv head body : Bytes), takes s a .inst i 0x084 (withField d 3 0 6) = true ∧ fld d 31 16 = 0xA5C3 ∧ inp.sram = [] ∧ inp.dill = [] ∧ i ≠ 0 ∧ ((inst s i).st = .frozen ∨ (inst s i).st = .saved ∧ (inst s i).savedTo = some (rbytes s (reg .inst i 0x140) 8 ++ rbytes s (reg .inst i 0x160) 8)) ∧ s.locked = false ∧ inp.wms = some w ∧ z = x25519 (inst s i).mig (rbytes s (reg .inst i 0x140) 8) ∧ body = blobBody s i ∧ (iv, t) = draw s 12 ∧ head = ascii "WMB1" ++ leBytes 2 1 ++ leBytes 2 0xB0 ++ leBytes 4 (0xC0 + body.length) ++ leBytes 1 i ++ leBytes 1 (inst s i).gen ++ leBytes 2 (carried s i).length ++ leBytes 4 s.part.cap ++ leBytes 1 (ctrRange s i).2 ++ zeros 3 ++ leBytes 8 s.tbTime ++ rbytes s (reg .inst i 0x100) 8 ++ rbytes s (reg .inst i 0x140) 8 ++ rbytes s (reg .inst i 0x120) 8 ++ rbytes s (reg .inst i 0x160) 8 ++ iv ++ zeros 4 :=
  ⟨frozen0, (draw frozen0 12).2, sage, 3, 0xA5C30000, { wms := some [] }, [], x25519 [] (rbytes frozen0 (reg .inst 3 0x140) 8), (draw frozen0 12).1, ascii "WMB1" ++ leBytes 2 1 ++ leBytes 2 0xB0 ++ leBytes 4 (0xC0 + (blobBody frozen0 3).length) ++ leBytes 1 3 ++ leBytes 1 (inst frozen0 3).gen ++ leBytes 2 (carried frozen0 3).length ++ leBytes 4 frozen0.part.cap ++ leBytes 1 (ctrRange frozen0 3).2 ++ zeros 3 ++ leBytes 8 frozen0.tbTime ++ rbytes frozen0 (reg .inst 3 0x100) 8 ++ rbytes frozen0 (reg .inst 3 0x140) 8 ++ rbytes frozen0 (reg .inst 3 0x120) 8 ++ rbytes frozen0 (reg .inst 3 0x160) 8 ++ (draw frozen0 12).1 ++ zeros 4, blobBody frozen0 3, by decide, by decide, by decide, by decide, by decide, by decide, by decide, rfl, rfl, rfl, rfl, rfl⟩
theorem wit_InstanceMigration_2 : ∃ (s : State) (a : Acc) (i : Nat) (d : Word) (inp : BusIn), takes s a .inst i 0x084 (withField d 3 0 6) = true ∧ fld d 31 16 = 0xA5C3 ∧ inp.sram = [] ∧ inp.dill = [] ∧ (i = 0 ∨ (inst s i).st ≠ .frozen ∧ ¬((inst s i).st = .saved ∧ (inst s i).savedTo = some (rbytes s (reg .inst i 0x140) 8 ++ rbytes s (reg .inst i 0x160) 8))) :=
  ⟨live0, sage, 3, 0xA5C30000, {}, by decide⟩
theorem wit_InstanceMigration_3 : ∃ (s : State) (a : Acc) (i : Nat) (d : Word) (inp : BusIn), takes s a .inst i 0x084 (withField d 3 0 6) = true ∧ fld d 31 16 = 0xA5C3 ∧ inp.sram = [] ∧ inp.dill = [] ∧ i ≠ 0 ∧ (inst s i).st = .frozen :=
  ⟨{ frozen0 with locked := true }, sage, 3, 0xA5C30000, {}, by decide⟩
theorem wit_InstanceMigration_4 : ∃ (s : State) (a : Acc) (i : Nat) (d : Word) (inp : BusIn), takes s a .inst i 0x084 (withField d 3 0 7) = true ∧ fld d 31 16 = 0xA5C3 ∧ inp.sram = [] ∧ inp.dill = [] ∧ i ≠ 0 ∧ (inst s i).st = .awaitRestore :=
  ⟨{ await0 with locked := true }, sage, 3, 0xA5C30000, {}, by decide⟩
theorem wit_InstanceMigration_5 : ∃ (s : State) (a : Acc) (i : Nat) (_d : Word) (inp : BusIn), silent s a = false ∧ silent (coreStores s inp) a = false ∧ reg .inst i 0x084 < 0x1000000 :=
  ⟨live0, sage, 3, 0, { sram := [(0x20000000, [1])] }, by decide⟩
theorem wit_InstanceMigration_6 : ∃ (s t : State) (a : Acc) (i n : Nat) (d : Word) (inp : BusIn) (w b e z : Bytes), takes s a .inst i 0x084 (withField d 3 0 7) = true ∧ fld d 31 16 = 0xA5C3 ∧ inp.sram = [] ∧ inp.dill = [] ∧ i ≠ 0 ∧ (inst s i).st = .awaitRestore ∧ s.locked = false ∧ inp.wms = some w ∧ inp.blob = some e ∧ n = fieldLe e 8 4 ∧ b = sliceZ e 0 n ∧ z = x25519 (inst s i).mig (rbytes s (reg .inst i 0x140) 8) ∧ (t = ((List.range (instKeys s i).2).drop 1).foldl (fun u r => if (kslot u ((instKeys s i).1 + r)).st = .empty ∨ (kslot u ((instKeys s i).1 + r)).st = .retired then u else endSlot u ((instKeys s i).1 + r)) s) :=
  ⟨await0, await0, sage, 3, 0, 0xA5C30000, { wms := some [], blob := some [] }, [], [], [], x25519 [] (rbytes await0 (reg .inst 3 0x140) 8), by decide, by decide, by decide, by decide, by decide, by decide, by decide, rfl, rfl, by decide, by decide, rfl, by decide +kernel⟩
theorem wit_InstanceMigration_7 : ∃ (s : State) (a : Acc) (i : Nat) (d : Word) (inp : BusIn), takes s a .inst i 0x084 (withField d 3 0 7) = true ∧ fld d 31 16 = 0xA5C3 ∧ inp.sram = [] ∧ inp.dill = [] ∧ (i = 0 ∨ (inst s i).st ≠ .awaitRestore) :=
  ⟨live0, sage, 3, 0xA5C30000, {}, by decide⟩
theorem wit_InstanceFaultsAndChannel_1 : ∃ (s : State) (a : Acc) (i : Nat) (_ws : List Walk), takes s a .inst i 0x0A8 1 = true :=
  ⟨live0, sage, 3, [], by decide⟩
theorem wit_InstanceFaultsAndChannel_2 : ∃ (s : State) (a : Acc) (i : Nat) (_ws : List Walk), takes s a .inst i 0x0A8 2 = true :=
  ⟨live0, sage, 3, [], by decide⟩
theorem wit_InstanceFaultsAndChannel_3 : ∃ (s : State) (a : Acc) (i : Nat) (_ws : List Walk), takes s a .inst i 0x0A8 4 = true :=
  ⟨live0, sage, 3, [], by decide⟩
theorem wit_InstanceFaultsAndChannel_4 : ∃ (s : State) (t i : Nat) (j : Job) (_ws : List Walk), (jobsWith s (fun j => decide (j.sub = .inst i) && j.fwd.isSome) = [(t, j)]) ∧ job? s t = some j :=
  ⟨setJob r0 5 atsJob, 5, 3, atsJob, [], rfl, rfl⟩
theorem wit_InstanceFaultsAndChannel_5 : ∃ (s : State) (t : Nat) (j : Job) (_ws : List Walk), job? s t = some j ∧ j.st = .faultFetch :=
  ⟨setJob r0 5 { atsJob with fwd := none, st := .faultFetch }, 5, { atsJob with fwd := none, st := .faultFetch }, [], by decide⟩
theorem wit_InstanceFaultsAndChannel_6 : ∃ (s : State) (a : Acc) (i : Nat) (d : Word), takes s a .inst i 0x0B0 (withField d 1 0 1) = true ∧ rbit s (reg .inst i 0x0BC) 16 = false ∧ fld d 13 8 < (ctrRange s i).2 :=
  ⟨live0, vf3, 3, 0x100, by decide⟩
theorem wit_InstanceFaultsAndChannel_7 : ∃ (s : State) (a : Acc) (i : Nat) (d : Word), takes s a .inst i 0x0B0 (withField d 1 0 2) = true ∧ rbit s (reg .inst i 0x0BC) 16 = false ∧ fld d 13 8 < (ctrRange s i).2 :=
  ⟨live0, vf3, 3, 0x100, by decide⟩
theorem wit_InstanceFaultsAndChannel_8 : ∃ (s : State) (a : Acc) (i : Nat) (d : Word), takes s a .inst i 0x0B0 (withField d 1 0 2) = true ∧ rbit s (reg .inst i 0x0BC) 16 = false ∧ (ctrRange s i).2 ≤ fld d 13 8 :=
  ⟨live0, vf3, 3, 0x200, by decide⟩
theorem wit_InstanceFaultsAndChannel_9 : ∃ (s : State) (a : Acc) (i : Nat) (d : Word), takes s a .inst i 0x0B0 (withField d 1 0 1) = true ∧ rbit s (reg .inst i 0x0BC) 16 = false ∧ (ctrRange s i).2 ≤ fld d 13 8 :=
  ⟨live0, vf3, 3, 0x200, by decide⟩
theorem wit_InstanceFaultsAndChannel_10 : ∃ (s : State) (a : Acc) (d : Word), takes s a .inst 0 0x420 d = true ∧ rfld s (reg .inst 0 0x424) 17 16 ≠ 1 ∧ 1 ≤ fld d 18 8 ∧ fld d 18 8 ≤ 1024 :=
  ⟨live0, pf0, 0x40005, by decide⟩
theorem wit_InstanceFaultsAndChannel_11 : ∃ (s : State) (a : Acc) (d : Word), takes s a .inst 0 0x420 d = true ∧ (rfld s (reg .inst 0 0x424) 17 16 = 1 ∨ fld d 18 8 = 0 ∨ 1024 < fld d 18 8) :=
  ⟨live0, pf0, 5, by decide⟩
theorem wit_InstanceFaultsAndChannel_12 : ∃ (s : State) (a : Acc) (d : Word), takes s a .inst 0 0x428 (d ||| 0x80000000) = true ∧ rfld s (reg .inst 0 0x424) 17 16 = 1 ∧ fld d 7 0 = rfld s (reg .inst 0 0x424) 7 0 ∧ fld d 18 8 ≤ 1024 :=
  ⟨rset live0 (reg .inst 0 0x424) 0x10005, sage, 0x40005, by decide⟩
theorem wit_InstanceFaultsAndChannel_13 : ∃ (s : State) (a : Acc) (d : Word), takes s a .inst 0 0x428 (d ||| 0x80000000) = true ∧ (rfld s (reg .inst 0 0x424) 17 16 ≠ 1 ∨ fld d 7 0 ≠ rfld s (reg .inst 0 0x424) 7 0 ∨ 1024 < fld d 18 8) :=
  ⟨live0, sage, 0x40005, by decide⟩
theorem wit_InstanceFaultsAndChannel_14 : ∃ (s : State) (t n : Nat) (j : Job) (_ws : List Walk), running s (.remJob t) = true ∧ job? s t = some j ∧ j.fwd = some n :=
  ⟨tset (setJob r0 5 atsJob) (.remJob 5) 8, 5, 2, atsJob, [], by decide⟩
theorem wit_RingSides_1 : ∃ (s : State) (x : Nat), running s (.heartbeat x) = true :=
  ⟨ring0, 1, by decide⟩
theorem wit_RingSides_2 : ∃ (s : State) (x : Nat), sideOn s x = true ∧ sideUp s x = true :=
  ⟨ring0, 1, by decide⟩
theorem wit_RingSides_3 : ∃ (s : State) (x : Nat), sideOn s x = true ∧ sideUp s x = false :=
  ⟨rset r0 (reg .lms 1 0x044) 1, 1, by decide⟩
theorem wit_RingSides_4 : ∃ (s : State) (x : Nat) (f : Frame17), sideOn s x = true ∧ (side s x).st = .training ∧ f.type = 1 ∧ frameOk f = true ∧ s.tbLoss = false ∧ myNode s ≠ 0 :=
  ⟨node5, 1, hello17, by decide⟩
theorem wit_RingSides_5 : ∃ (s : State) (x : Nat), running s (.silent x) = true ∧ x < 2 ∧ sideUp s x = true :=
  ⟨tset ring0 (.silent 1) 9, 1, by decide⟩
theorem wit_RingSides_6 : ∃ (s : State) (x : Nat), sideOn s x = true :=
  ⟨ring0, 1, by decide⟩
theorem wit_RingForming_1 : ∃ (s : State), running s .discover = true ∧ myNode s = 0 ∧ rbit s (reg .lms 0 0x080) 5 = false :=
  ⟨tset ring0 .discover 9, by decide⟩
theorem wit_RingForming_2 : ∃ (s : State) (x : Nat) (f : Frame17), x < 2 ∧ sideOn s x = true ∧ sideUp s x = true ∧ frameOk f = true ∧ f.type = 2 ∧ f.flags.testBit 2 = false ∧ myNode s ≠ 0 ∧ s.tbLoss = false :=
  ⟨both5, 1, { type := 2, dst := 0, src := 0, srcInc := 3, payload := [1, 0, 1, 0, 3, 0] }, by decide⟩
theorem wit_RingForming_3 : ∃ (s : State) (x : Nat) (f : Frame17), x < 2 ∧ sideOn s x = true ∧ sideUp s x = true ∧ frameOk f = true ∧ f.type = 2 ∧ f.flags.testBit 2 = true ∧ myNode s ≠ 0 ∧ s.tbLoss = false :=
  ⟨both5, 1, { type := 2, flags := 4, dst := 0, src := 0, srcInc := 3, payload := [1, 0, 1, 0, 3, 0] }, by decide⟩
theorem wit_RingForming_4 : ∃ (s : State) (f : Frame17), sideOn s 0 = true ∧ sideUp s 0 = true ∧ frameOk f = true ∧ f.type = 2 ∧ f.flags.testBit 2 = false ∧ myNode s = 0 ∧ (f.src ≠ 0 ∨ f.srcInc = s.incarnation) ∧ fieldLe f.payload 0 2 = (topoSeq s + 1) % 65536 ∧ s.discOut ≠ [] ∧ s.tbLoss = false :=
  ⟨{ setSide (rset ring0 (reg .lms 0 0x044) 1) 0 { st := .up } with discOut := [1] }, { type := 2, dst := 0, src := 0, srcInc := ring0.incarnation, payload := [1, 0, 2, 0, 3, 0, 5, 4, 0] }, by decide⟩
theorem wit_RingForming_5 : ∃ (s : State) (x : Nat) (f : Frame17) (t : Topo), x < 2 ∧ sideOn s x = true ∧ sideUp s x = true ∧ frameOk f = true ∧ f.type = 3 ∧ f.src ≠ myNode s ∧ myNode s ≠ 0 ∧ s.topo = none ∧ f.hops < 127 ∧ t.seq = fieldLe f.payload 0 2 ∧ t.brk = (if fieldLe f.payload 4 1 = 0xFF then none else some (fieldLe f.payload 4 1)) ∧ t.entries = readEntries f.payload 5 (fieldLe f.payload 3 1) :=
  ⟨both5, 1, { type := 3, dst := 0xFF, src := 0, srcInc := 3, payload := [1, 0, 2, 2, 0xFF, 0, 3, 0, 5, 4, 0] }, ⟨1, none, [(0, 3), (5, 4)]⟩, by decide⟩
theorem wit_RingForming_6 : ∃ (s : State) (t : Topo) (old : Topo), s.topo = some old ∧ old.entries = [] ∧ t.brk = none ∧ myNode s = 5 ∧ t.entries = [(0, 3), (5, s.incarnation)] ∧ (peer s 0).inc = 0 :=
  ⟨{ both5 with topo := some ⟨0, none, []⟩ }, ⟨1, none, [(0, 3), (5, both5.incarnation)]⟩, ⟨0, none, []⟩, by decide⟩
theorem wit_RingForming_7 : ∃ (s : State) (t : Topo), running s .topoRepeat = true ∧ s.topo = some t :=
  ⟨tset { ring0 with topo := some ⟨1, none, [(0, 3), (5, 4)]⟩ } .topoRepeat 9, ⟨1, none, [(0, 3), (5, 4)]⟩, by decide⟩
theorem wit_RingForming_8 : ∃ (s : State), running s .isolated = true :=
  ⟨tset both5 .isolated 9, by decide⟩
theorem wit_RingForming_9 : ∃ (s : State), running s .status = true :=
  ⟨both5, by decide⟩
theorem wit_RingForming_10 : ∃ (s : State) (x n : Nat) (f : Frame17), reaches s x f = true ∧ f.type = 4 ∧ myNode s = 0 ∧ f.src = n ∧ n < 64 ∧ f.flags.testBit 1 = false ∧ rbit s (reg .lms 0 (0x200 + 4 * n)) 8 = false :=
  ⟨ring0, 1, 5, { type := 4, dst := 0, src := 5, payload := [0x69, 1, 0, 0] }, by decide⟩
theorem wit_RingForming_11 : ∃ (s : State) (n : Nat), running s (.nodeAge n) = true :=
  ⟨tset ring0 (.nodeAge 5) 9, 5, by decide⟩
theorem wit_RingForming_12 : ∃ (s : State) (x : Nat) (f : Frame17), reaches s x f = true ∧ f.type = 5 ∧ myNode s = 0 ∧ f.flags.testBit 1 = false ∧ rbit s (reg .lms 0 0x080) 5 = false ∧ tget s .discover = none :=
  ⟨ring0, 1, { type := 5, dst := 0, src := 5, payload := [1, 0, 3, 0] }, by decide⟩
theorem wit_ReliableDelivery_1 : ∃ (s : State) (x : Nat) (f : Frame17) (_inp : LmsIn), sideOn s x = true ∧ sideUp s x = true ∧ frameOk f = true ∧ (side s x).wrapped = false ∧ f.type ≠ 1 ∧ f.type ≠ 2 ∧ f.type ≠ 3 ∧ f.dst ≠ myNode s ∧ f.dst ≠ 0xFF :=
  ⟨both5, 1, { type := 4, dst := 0, src := 7, payload := [0x69, 1, 0, 0] }, {}, by decide⟩
theorem wit_ReliableDelivery_2 : ∃ (s : State) (x : Nat) (f : Frame17), reaches s x f = true ∧ f.type = 6 ∧ f.flags.testBit 3 = false :=
  ⟨both5, 1, { type := 6, flags := 2, dst := 5, src := 0, ack := 1 }, by decide⟩
theorem wit_ReliableDelivery_3 : ∃ (s : State) (f u : Frame17) (k : Nat), f.flags.testBit 1 = true ∧ f.dst = myNode s ∧ (peer s f.src).unacked = [(u, k)] ∧ (peer s f.src).queue = [] ∧ seqBefore u.seq f.ack = true ∧ u.type = 0x12 :=
  ⟨setPeer both5 0 { unacked := [({ type := 0x12, dst := 0, src := 5 }, 0)] }, { type := 6, flags := 2, dst := 5, src := 0, ack := 1 }, { type := 0x12, dst := 0, src := 5 }, 0, by decide⟩
theorem wit_ReliableDelivery_4 : ∃ (s : State) (x : Nat) (f : Frame17) (_inp : LmsIn) (p : Peer), reaches s x f = true ∧ f.type = 0x11 ∧ p = peer (frameTaken s x f) f.src ∧ f.dstInc = 0 ∧ f.seq ≠ p.rxNext ∧ seqBefore f.seq p.rxNext = false ∧ p.held.length < 8 ∧ ((p.held.any fun h => h.1.seq == f.seq) = false) :=
  ⟨both5, 1, { type := 0x11, flags := 1, dst := 5, src := 0, seq := 2, payload := [0x40, 0x30, 0, 0, 1, 0, 0, 0, 1, 2, 3, 4] }, {}, {}, by decide⟩
theorem wit_ReliableDelivery_5 : ∃ (s : State) (x : Nat) (f : Frame17) (_inp : LmsIn) (p : Peer), reaches s x f = true ∧ f.type = 0x11 ∧ p = peer (frameTaken s x f) f.src ∧ f.dstInc = 0 ∧ f.seq ≠ p.rxNext ∧ seqBefore f.seq p.rxNext = true ∧ ((p.replies.any fun r => r.1 == f.seq) = false) :=
  ⟨setPeer both5 0 { rxNext := 3 }, 1, { type := 0x11, flags := 1, dst := 5, src := 0, seq := 2, payload := [0x40, 0x30, 0, 0, 1, 0, 0, 0, 1, 2, 3, 4] }, {}, { rxNext := 3 }, by decide⟩
theorem wit_ReliableDelivery_6 : ∃ (s : State) (x k : Nat) (f u : Frame17) (_inp : LmsIn) (p : Peer), reaches s x f = true ∧ f.type = 0x11 ∧ p = peer (frameTaken s x f) f.src ∧ f.dstInc = 0 ∧ f.seq ≠ p.rxNext ∧ seqBefore f.seq p.rxNext = true ∧ p.replies = [(f.seq, u.seq)] ∧ p.unacked = [(u, k)] :=
  ⟨setPeer both5 0 { rxNext := 3, replies := [(2, 7)], unacked := [({ type := 0x12, dst := 0, src := 5, seq := 7 }, 0)] }, 1, 0, { type := 0x11, flags := 1, dst := 5, src := 0, seq := 2, payload := [0x40, 0x30, 0, 0, 1, 0, 0, 0, 1, 2, 3, 4] }, { type := 0x12, dst := 0, src := 5, seq := 7 }, {}, { rxNext := 3, replies := [(2, 7)], unacked := [({ type := 0x12, dst := 0, src := 5, seq := 7 }, 0)] }, by decide⟩
theorem wit_ReliableDelivery_7 : ∃ (s t : State) (x : Nat) (f : Frame17) (_inp : LmsIn), reaches s x f = true ∧ f.type = 0x11 ∧ t = frameTaken s x f ∧ f.dstInc ≠ 0 ∧ f.dstInc ≠ t.incarnation :=
  ⟨{ both5 with incarnation := 7 }, frameTaken { both5 with incarnation := 7 } 1 { type := 0x11, flags := 1, dst := 5, src := 0, dstInc := 9, payload := [0x40, 0x30, 0, 0, 1, 0, 0, 0, 1, 2, 3, 4] }, 1, { type := 0x11, flags := 1, dst := 5, src := 0, dstInc := 9, payload := [0x40, 0x30, 0, 0, 1, 0, 0, 0, 1, 2, 3, 4] }, {}, by decide, by decide, rfl, by decide, by decide⟩
theorem wit_ReliableDelivery_8 : ∃ (s : State) (n : Nat), running s (.ackDelay n) = true :=
  ⟨tset both5 (.ackDelay 0) 9, 0, by decide⟩
theorem wit_ReliableDelivery_9 : ∃ (s : State) (n q k : Nat) (f : Frame17), running s (.retx n q) = true ∧ (((peer s n).unacked.find? fun u => u.1.seq == q) = some (f, k)) ∧ barred s n = false ∧ k < rfld s (reg .lms 0 0x084) 11 8 :=
  ⟨tset (setPeer both5 0 { unacked := [({ type := 0x12, dst := 0, src := 5 }, 0)] }) (.retx 0 0) 9, 0, 0, 0, { type := 0x12, dst := 0, src := 5 }, by decide⟩
theorem wit_ReliableDelivery_10 : ∃ (s : State) (n q k : Nat) (f : Frame17), running s (.retx n q) = true ∧ (((peer s n).unacked.find? fun u => u.1.seq == q) = some (f, k)) ∧ (barred s n = true ∨ rfld s (reg .lms 0 0x084) 11 8 ≤ k) :=
  ⟨tset (setPeer both5 0 { unacked := [({ type := 0x12, dst := 0, src := 5 }, 15)] }) (.retx 0 0) 9, 0, 0, 15, { type := 0x12, dst := 0, src := 5 }, by decide⟩
theorem wit_RemoteAccess_1 : ∃ (s : State) (a : Acc) (o n : Nat) (w : Bool) (_d sel : Word), opens s a w o = true ∧ sel = rget s (reg .lms 0 (0x0A0 + 4 * (o / 0x100000 % 4))) ∧ bit sel 7 = true ∧ n = fld sel 5 0 ∧ n ≠ myNode s ∧ fld sel 11 8 < 12 ∧ s.dups.contains n = false :=
  ⟨rset ring0 (reg .lms 0 0x0A0) 0x85, sage, 0x3040, 5, true, 7, 0x85, by decide⟩
theorem wit_RemoteAccess_2 : ∃ (s : State) (a : Acc) (o : Nat) (w : Bool) (_d sel : Word), opens s a w o = true ∧ sel = rget s (reg .lms 0 (0x0A0 + 4 * (o / 0x100000 % 4))) ∧ (bit sel 7 = false ∨ fld sel 5 0 = myNode s ∨ 12 ≤ fld sel 11 8 ∨ s.dups.contains (fld sel 5 0) = true) :=
  ⟨ring0, sage, 0x3040, false, 7, 0, by decide⟩
theorem wit_RemoteAccess_3 : ∃ (s t : State) (x off k : Nat) (f : Frame17), isNext s x f = true ∧ f.type = 0x10 ∧ t = inOrder s x f ∧ off = fieldLe f.payload 0 3 ∧ k = fieldLe f.payload 4 1 ∧ off + 4 * k ≤ 0xC00000 :=
  ⟨both5, inOrder both5 1 rd17, 1, 0x3040, 1, rd17, by decide, rfl, rfl, by decide, by decide, by decide⟩
theorem wit_RemoteAccess_4 : ∃ (s t : State) (x : Nat) (f : Frame17), isNext s x f = true ∧ f.type = 0x10 ∧ t = inOrder s x f ∧ 0xC00000 < fieldLe f.payload 0 3 + 4 * fieldLe f.payload 4 1 :=
  ⟨both5, inOrder both5 1 { rd17 with payload := [0, 0, 0xC0, 0, 1] }, 1, { rd17 with payload := [0, 0, 0xC0, 0, 1] }, by decide, rfl, rfl, by decide⟩
theorem wit_RemoteAccess_5 : ∃ (s t : State) (x off k : Nat) (f : Frame17) (_inp : LmsIn), isNext s x f = true ∧ f.type = 0x11 ∧ t = inOrder s x f ∧ off = fieldLe f.payload 0 3 ∧ k = fieldLe f.payload 4 1 ∧ off + 4 * k ≤ 0xC00000 :=
  ⟨both5, inOrder both5 1 wr17, 1, 0x3040, 1, wr17, {}, by decide, rfl, rfl, by decide, by decide, by decide⟩
theorem wit_RemoteAccess_6 : ∃ (s t : State) (x : Nat) (f : Frame17) (_inp : LmsIn), isNext s x f = true ∧ f.type = 0x11 ∧ t = inOrder s x f ∧ 0xC00000 < fieldLe f.payload 0 3 + 4 * fieldLe f.payload 4 1 :=
  ⟨both5, inOrder both5 1 { wr17 with payload := [0, 0, 0xC0, 0, 1, 0, 0, 0, 1, 2, 3, 4] }, 1, { wr17 with payload := [0, 0, 0xC0, 0, 1, 0, 0, 0, 1, 2, 3, 4] }, {}, by decide, rfl, rfl, by decide⟩
theorem wit_RemoteAccess_7 : ∃ (s t : State) (x : Nat) (f : Frame17) (r : RaReq), isNext s x f = true ∧ f.type = 0x12 ∧ t = inOrder s x f ∧ (t.raReqs.find? (fun q => decide (q.node = f.src)) = some r) ∧ r.bulk = none ∧ fieldLe f.payload 0 2 = 0 :=
  ⟨wait17, inOrder wait17 1 rsp17, 1, rsp17, ⟨0, 0, false, 0, 0xC00040, none, 1⟩, by decide, rfl, rfl, by decide, rfl, by decide⟩
theorem wit_RemoteAccess_8 : ∃ (s t : State) (x : Nat) (f : Frame17) (r : RaReq), isNext s x f = true ∧ f.type = 0x12 ∧ t = inOrder s x f ∧ (t.raReqs.find? (fun q => decide (q.node = f.src)) = some r) ∧ r.bulk = none ∧ fieldLe f.payload 0 2 ≠ 0 :=
  ⟨wait17, inOrder wait17 1 { rsp17 with payload := [4, 0x14, 0, 0] }, 1, { rsp17 with payload := [4, 0x14, 0, 0] }, ⟨0, 0, false, 0, 0xC00040, none, 1⟩, by decide, rfl, rfl, by decide, rfl, by decide⟩
theorem wit_RemoteAccess_9 : ∃ (s t : State) (x : Nat) (f : Frame17), reaches s x f = true ∧ f.type = 0x20 ∧ t = frameTaken s x f ∧ t.evq.length < 64 :=
  ⟨both5, frameTaken both5 1 ev17, 1, ev17, by decide, rfl, rfl, by decide⟩
theorem wit_RemoteAccess_10 : ∃ (s t : State) (x : Nat) (f : Frame17), reaches s x f = true ∧ f.type = 0x20 ∧ t = frameTaken s x f ∧ 64 ≤ t.evq.length :=
  ⟨evfull, frameTaken evfull 1 ev17, 1, ev17, by decide, rfl, rfl, evfull_len⟩
theorem wit_RemoteAccess_11 : ∃ (s : State) (a : Acc), takes s a .lms 0 0x09C 1 = true :=
  ⟨{ r0 with evq := [(1, 2, 3)] }, sage, by decide⟩
theorem wit_RemoteJobs_1 : ∃ (s t : State) (x g : Nat) (f : Frame17) (inp : LmsIn) (sub : Sub), isNext s x f = true ∧ f.type = 0x30 ∧ t = inOrder s x f ∧ sub = .remote f.src (fieldLe f.payload 0 2) (fieldLe f.payload 2 1) (fieldLe f.payload 3 1) ∧ ((if inp.tag < 1024 ∧ job? t inp.tag = none then some inp.tag else (List.range 1024).find? fun k => (job? t k).isNone) = some g) ∧ rbit t (reg .lms 0 0x084) 12 = true ∧ quotaLeft t sub = true ∧ t.hw = none :=
  ⟨exec5, inOrder exec5 1 req17, 1, 5, req17, { tag := 5 }, .remote 0 3 2 1, by decide, rfl, rfl, by decide, by decide, by decide, by decide, by decide⟩
theorem wit_RemoteJobs_2 : ∃ (s t : State) (x : Nat) (f : Frame17) (_inp : LmsIn) (sub : Sub), isNext s x f = true ∧ f.type = 0x30 ∧ t = inOrder s x f ∧ sub = .remote f.src (fieldLe f.payload 0 2) (fieldLe f.payload 2 1) (fieldLe f.payload 3 1) ∧ (rbit t (reg .lms 0 0x084) 12 = false ∨ quotaLeft t sub = false ∨ t.hw ≠ none ∨ (∀ k < 1024, job? t k ≠ none)) :=
  ⟨noexec5, inOrder noexec5 1 req17, 1, req17, { tag := 5 }, .remote 0 3 2 1, by decide, rfl, rfl, by decide, Or.inl (by decide)⟩
theorem wit_RemoteJobs_3 : ∃ (s t : State) (x g : Nat) (f : Frame17) (j : Job), isNext s x f = true ∧ f.type = 0x32 ∧ t = inOrder s x f ∧ remoteTag t f.src (fieldLe f.payload 0 2) = some g ∧ job? t g = some j :=
  ⟨far5, inOrder far5 1 { req17 with type := 0x32, payload := [3, 0, 0, 0, 1, 2, 3, 4, 5, 6, 7, 8] }, 1, 9, { req17 with type := 0x32, payload := [3, 0, 0, 0, 1, 2, 3, 4, 5, 6, 7, 8] }, farJob, by decide, rfl, rfl, rfl, rfl⟩
theorem wit_RemoteJobs_4 : ∃ (s : State) (g : Nat) (j : Job) (n h i e : Nat), job? s g = some j ∧ j.sub = .remote n h i e :=
  ⟨far5, 9, farJob, 0, 3, 2, 1, by decide⟩
theorem wit_RemoteJobs_5 : ∃ (s t : State) (x g e n h i : Nat) (f : Frame17) (j : Job), isNext s x f = true ∧ f.type = 0x36 ∧ t = inOrder s x f ∧ remoteTag t f.src (fieldLe f.payload 0 2) = some g ∧ job? t g = some j ∧ j.sub = .remote n h i e :=
  ⟨far5, inOrder far5 1 { req17 with type := 0x36, payload := [3, 0, 1] }, 1, 9, 1, 0, 3, 2, { req17 with type := 0x36, payload := [3, 0, 1] }, farJob, by decide, rfl, rfl, rfl, rfl, rfl⟩
theorem wit_RemoteJobs_6 : ∃ (s : State) (g : Nat) (j : Job), job? s g = some j ∧ j.fwd = none ∧ j.timed = false ∧ j.st ≠ .squashing :=
  ⟨far5, 9, farJob, by decide⟩
theorem wit_RemoteJobs_7 : ∃ (s t u : State) (x g i n off : Nat) (f : Frame17) (j : Job) (inp : LmsIn) (hs : List (Nat × Nat)) (ws : List Walk) (b : Nat × Nat), isNext s x f = true ∧ f.type = 0x31 ∧ t = inOrder s x f ∧ homeJob t f = some (g, j, i) ∧ b = (if fieldLe f.payload 3 1 = 1 then (dAux j.desc, dAuxLen j.desc) else (dSrc j.desc, dSrcLen j.desc)) ∧ n = fieldLe f.payload 8 2 ∧ off = fieldLe f.payload 4 4 ∧ off + n ≤ b.2 ∧ translateAll t i 1 false g j.gen (pieces (b.1 + off) n) inp.walks = (u, hs, ws, none) :=
  ⟨home5, inOrder home5 1 brd17, (translateAll (inOrder home5 1 brd17) 3 1 false 5 0 (pieces 0x1000 8) [⟨true, [], false, false⟩]).1, 1, 5, 3, 8, 0, brd17, homeJ5, { walks := [⟨true, [], false, false⟩] }, [(0x5000, 8)], [], (0x1000, dSrcLen homeJ5.desc), by decide, rfl, rfl, rfl, by decide, by decide, by decide, by decide, rfl⟩
theorem wit_RemoteJobs_8 : ∃ (s t u v : State) (x g i n off : Nat) (f : Frame17) (j k : Job) (inp : LmsIn) (hs : List (Nat × Nat)) (ws : List Walk) (b : Nat × Nat) (r : TrRes), isNext s x f = true ∧ f.type = 0x31 ∧ t = inOrder s x f ∧ homeJob t f = some (g, j, i) ∧ b = (if fieldLe f.payload 3 1 = 1 then (dAux j.desc, dAuxLen j.desc) else (dSrc j.desc, dSrcLen j.desc)) ∧ n = fieldLe f.payload 8 2 ∧ off = fieldLe f.payload 4 4 ∧ off + n ≤ b.2 ∧ translateAll t i 1 false g j.gen (pieces (b.1 + off) n) inp.walks = (u, hs, ws, some r) ∧ v = answerFrame u f 0x32 (leBytes 2 g ++ leBytes 2 (remoteCode r)) ∧ job? v g = some k :=
  ⟨home5x, inOrder home5x 1 brd17, brdX.1, answerFrame brdX.1 brd17 0x32 (leBytes 2 5 ++ leBytes 2 (remoteCode (brdX.2.2.2.getD .park))), 1, 5, 3, 8, 0, brd17, homeJ5, homeJ5, { walks := [⟨true, [], false, false⟩] }, brdX.2.1, brdX.2.2.1, (0x1000, dSrcLen homeJ5.desc), brdX.2.2.2.getD .park, by decide, rfl, rfl, rfl, by decide, by decide, by decide, by decide, rfl, rfl, rfl⟩
theorem wit_RemoteJobs_9 : ∃ (s t : State) (x g i : Nat) (f : Frame17) (j : Job) (_inp : LmsIn), isNext s x f = true ∧ f.type = 0x31 ∧ t = inOrder s x f ∧ homeJob t f = some (g, j, i) ∧ (if fieldLe f.payload 3 1 = 1 then dAuxLen j.desc else dSrcLen j.desc) < fieldLe f.payload 4 4 + fieldLe f.payload 8 2 :=
  ⟨home5, inOrder home5 1 { brd17 with payload := [5, 0, 0, 0, 0, 0, 9, 0, 8, 0] }, 1, 5, 3, { brd17 with payload := [5, 0, 0, 0, 0, 0, 9, 0, 8, 0] }, homeJ5, {}, by decide, rfl, rfl, rfl, by decide⟩
theorem wit_RemoteJobs_10 : ∃ (s t u : State) (x g i off : Nat) (f : Frame17) (j : Job) (inp : LmsIn) (hs : List (Nat × Nat)) (ws : List Walk) (d : Bytes) (b : Nat × Nat) (r : Option TrRes), isNext s x f = true ∧ f.type = 0x33 ∧ t = inOrder s x f ∧ homeJob t f = some (g, j, i) ∧ d = f.payload.drop 8 ∧ off = fieldLe f.payload 4 4 ∧ (b = (if dType j.desc = 0x01 ∧ (dParam j.desc 0 = 1 ∨ dParam j.desc 0 = 2) then (dAux j.desc, dAuxLen j.desc) else (dDst j.desc, dDstLen j.desc))) ∧ off + d.length ≤ b.2 ∧ translateAll t i 3 true g j.gen (pieces (b.1 + off) d.length) inp.walks = (u, hs, ws, r) :=
  ⟨home5, inOrder home5 1 bwr17, (translateAll (inOrder home5 1 bwr17) 3 3 true 5 0 (pieces 0x20002000 1) [⟨true, [], false, false⟩]).1, 1, 5, 3, 0, bwr17, homeJ5, { walks := [⟨true, [], false, false⟩] }, [(0x6000, 1)], [], [0x7E], (0x20002000, dDstLen homeJ5.desc), none, by decide, rfl, rfl, rfl, rfl, rfl, by decide, by decide, rfl⟩
theorem wit_RemoteJobs_11 : ∃ (s t : State) (x g i : Nat) (f : Frame17) (j : Job) (_inp : LmsIn), isNext s x f = true ∧ f.type = 0x34 ∧ t = inOrder s x f ∧ homeJob t f = some (g, j, i) :=
  ⟨home5, inOrder home5 1 { brd17 with type := 0x34, payload := [5, 0, 0] ++ zeros 17 }, 1, 5, 3, { brd17 with type := 0x34, payload := [5, 0, 0] ++ zeros 17 }, homeJ5, {}, by decide, rfl, rfl, rfl⟩
theorem wit_RemoteJobs_12 : ∃ (s t : State) (x g i : Nat) (f : Frame17) (j : Job) (_inp : LmsIn), isNext s x f = true ∧ f.type = 0x35 ∧ t = inOrder s x f ∧ homeJob t f = some (g, j, i) :=
  ⟨home5, inOrder home5 1 { brd17 with type := 0x35, payload := [5, 0, 0, 0, 5, 0x14] }, 1, 5, 3, { brd17 with type := 0x35, payload := [5, 0, 0, 0, 5, 0x14] }, homeJ5, {}, by decide, rfl, rfl, rfl⟩
theorem wit_RemoteJobs_13 : ∃ (s t u : State) (x : Nat) (f : Frame17) (_inp : LmsIn) (e : Nat × Nat × Nat × Nat), isNext s x f = true ∧ t = inOrder s x f ∧ homeJob t f = none ∧ (t.issued.find? (fun e => decide (e.2.2.2 = fieldLe f.payload 0 2)) = some e) ∧ u = settle (afterFrame s f (rcount t (reg .inst e.1 0x0AC) 15 8 1)) :=
  ⟨old5, inOrder old5 1 done17, settle (afterFrame old5 done17 (rcount (inOrder old5 1 done17) (reg .inst 3 0x0AC) 15 8 1)), 1, done17, {}, (3, 0, 0, 5), by decide, rfl, rfl, rfl, rfl⟩
theorem wit_RingPushesAndBulk_1 : ∃ (s t : State) (x o : Nat) (f : Frame17) (d : Bytes), isNext s x f = true ∧ f.type = 0x40 ∧ t = inOrder s x f ∧ o = fieldLe f.payload 0 4 ∧ d = f.payload.drop 4 :=
  ⟨push5, inOrder push5 1 pd17, 1, 8, pd17, [1, 2, 3, 4], by decide, rfl, rfl, by decide, rfl⟩
theorem wit_RingPushesAndBulk_2 : ∃ (s t : State) (x : Nat) (f : Frame17) (_inp : LmsIn), isNext s x f = true ∧ f.type = 0x41 ∧ t = inOrder s x f :=
  ⟨push5, inOrder push5 1 pc17, 1, pc17, {}, by decide, rfl, rfl⟩
theorem wit_RingPushesAndBulk_3 : ∃ (s t : State) (x : Nat) (f : Frame17), reaches s x f = true ∧ f.type = 0x42 ∧ (f.dstInc = 0 ∨ f.dstInc = s.incarnation) ∧ f.seq = (peer (frameHeard s x) f.src).rxNext ∧ t = orderTaken (frameHeard s x) f :=
  ⟨chan0, orderTaken (frameHeard chan0 1) pr17, 1, pr17, by decide, rfl, Or.inl rfl, by decide, rfl⟩
theorem wit_RingPushesAndBulk_4 : ∃ (s : State) (c : Nat) (b : Bulk) (_code : Nat), bulk s c = some b :=
  ⟨setBulk r0 2 (some ⟨2, 5, false, 0, 0, 8, 0⟩), 2, ⟨2, 5, false, 0, 0, 8, 0⟩, 0x140A, by decide⟩
theorem wit_RingPushesAndBulk_5 : ∃ (s : State) (c _n : Nat) (b : Bulk), bulk s c = some b :=
  ⟨setBulk r0 2 (some ⟨2, 5, false, 0, 0, 8, 0⟩), 2, 8, ⟨2, 5, false, 0, 0, 8, 0⟩, by decide⟩
theorem wit_RingPushesAndBulk_6 : ∃ (s t : State) (x c e : Nat) (f : Frame17) (r : RaReq) (b : Bulk), isNext s x f = true ∧ f.type = 0x12 ∧ t = inOrder s x f ∧ (t.raReqs.find? (fun q => decide (q.node = f.src)) = some r) ∧ r.bulk = some (c, e) ∧ bulk t c = some b ∧ b.gen = e ∧ (inst t 0).gen = e :=
  ⟨fetch0, inOrder fetch0 1 frsp17, 1, 2, 0, frsp17, ⟨5, 0, false, 0, 0, some (2, 0), 1⟩, ⟨2, 5, false, 0, 0, 4, 0⟩, by decide, rfl, rfl, by decide, by decide, by decide, by decide, by decide⟩
theorem wit_RingPushesAndBulk_7 : ∃ (s : State) (a : Acc) (c n off len : Nat) (d : Word) (_m : Option Bytes), c < 4 ∧ served s a .lms 0 (0x0D0 + 32 * c) = true ∧ fld d 31 16 = 0xA5C3 ∧ bit d 14 = true ∧ bulk s c = none ∧ n = fld d 13 8 ∧ off = rfld s (reg .lms 0 (0x0C8 + 32 * c)) 23 0 ∧ len = rfld s (reg .lms 0 (0x0CC + 32 * c)) 22 0 ∧ myNode s = 0 ∧ n ≠ 0 ∧ 4 ≤ len ∧ len % 4 = 0 ∧ off % 4 = 0 ∧ off + len ≤ 0x400000 :=
  ⟨rset ring0 (reg .lms 0 0x10C) 8, pf0, 2, 5, 0, 8, 0xA5C34504, some [1, 2, 3], by decide⟩
theorem wit_RingPushesAndBulk_8 : ∃ (s : State) (a : Acc) (c n off len : Nat) (d : Word), c < 4 ∧ served s a .lms 0 (0x0D0 + 32 * c) = true ∧ fld d 31 16 = 0xA5C3 ∧ bit d 14 = true ∧ bulk s c = none ∧ n = fld d 13 8 ∧ off = rfld s (reg .lms 0 (0x0C8 + 32 * c)) 23 0 ∧ len = rfld s (reg .lms 0 (0x0CC + 32 * c)) 22 0 ∧ myNode s = 0 ∧ n ≠ 0 ∧ 4 ≤ len ∧ len ≤ 0x10000 ∧ len % 4 = 0 ∧ off % 4 = 0 :=
  ⟨rset ring0 (reg .lms 0 0x10C) 8, pf0, 2, 5, 0, 8, 0xA5C34500, by decide⟩
theorem wit_RingPushesAndBulk_9 : ∃ (s : State) (a : Acc) (c off len : Nat) (_d : Word) (_m : Option Bytes), c < 4 ∧ served s a .lms 0 (0x0D0 + 32 * c) = true ∧ bulk s c = none ∧ off = rfld s (reg .lms 0 (0x0C8 + 32 * c)) 23 0 ∧ len = rfld s (reg .lms 0 (0x0CC + 32 * c)) 22 0 :=
  ⟨ring0, pf0, 2, 0, 0, 0x4504, none, by decide⟩
theorem wit_RingPushesAndBulk_10 : ∃ (s : State) (a : Acc) (c : Nat) (d w : Word) (_m : Option Bytes), c < 4 ∧ served s a .lms 0 (0x0D0 + 32 * c) = true ∧ bulk s c ≠ none ∧ w = withField d 1 0 1 :=
  ⟨chan0, pf0, 2, 0xA5C34504, 0xA5C34505, none, by decide⟩
theorem wit_RingPushesAndBulk_11 : ∃ (s : State) (c : Nat), running s (.bulk c) = true :=
  ⟨tset (setBulk r0 2 (some ⟨2, 5, false, 0, 0, 8, 0⟩)) (.bulk 2) 9, 2, by decide⟩
theorem wit_ClaimsAndLeases_1 : ∃ (s : State) (_c _e _fl : Nat), pairUp s = true ∧ s.tbLoss = false :=
  ⟨pair0, 4, 0, 0, by decide⟩
theorem wit_ClaimsAndLeases_2 : ∃ (s : State) (_c _e _fl : Nat) (_b : Bool), (pairUp s = false ∨ s.tbLoss = true) :=
  ⟨{ pair0 with tbLoss := true }, 4, 0, 0, true, by decide⟩
theorem wit_ClaimsAndLeases_3 : ∃ (s : State) (_c _e _fl : Nat), pairUp s = true ∧ s.tbLoss = false :=
  ⟨claim0, 0, 4, 2, by decide⟩
theorem wit_ClaimsAndLeases_4 : ∃ (s : State), running s .clStale = true :=
  ⟨tset pair0 .clStale 7, by decide⟩
theorem wit_ClaimsAndLeases_6 : ∃ (s u : State) (x : Nat), s.pair.claim ≠ 0 ∧ paired s = true ∧ u = endClaim s x :=
  ⟨claim0, endClaim claim0 1, 1, by decide, by decide, rfl⟩
theorem wit_ClaimsAndLeases_7 : ∃ (s t : State) (a : Acc) (d : Word), served s a .pair 0 0x058 = true ∧ t = noted s a .pair 0 0x058 (withField d 1 0 1) :=
  ⟨pair0, noted pair0 sage .pair 0 0x058 0xA5C30001, sage, 0xA5C30000, by decide, rfl⟩
theorem wit_ClaimsAndLeases_8 : ∃ (s t : State) (a : Acc) (d : Word), served s a .pair 0 0x058 = true ∧ t = noted s a .pair 0 0x058 (withField d 1 0 2) :=
  ⟨pair0, noted pair0 sage .pair 0 0x058 0xA5C30002, sage, 0xA5C30000, by decide, rfl⟩
theorem wit_ClaimsAndLeases_9 : ∃ (s : State) (_k : Nat), witnessMode s = false :=
  ⟨pair0, 2, by decide⟩
theorem wit_ClaimsAndLeases_10 : ∃ (s : State) (_k : Nat) (b : Bytes), witnessMode s = true ∧ (b = (List.range 16).map (fun i => Config.freeByte (s.fresh + i))) :=
  ⟨rset pair0 (reg .pair 0 0x044) 0x80, 2, (List.range 16).map (fun i => Config.freeByte ((rset pair0 (reg .pair 0 0x044) 0x80).fresh + i)), by decide, rfl⟩
theorem wit_ClaimsAndLeases_11 : ∃ (s : State), running s .pairReq = true :=
  ⟨tset pair0 .pairReq 7, by decide⟩
theorem wit_ClaimsAndLeases_12 : ∃ (s t : State) (a : Acc) (d : Word), served s a .pair 0 0x130 = true ∧ t = noted s a .pair 0 0x130 (d ||| 1) :=
  ⟨pair0, noted pair0 sage .pair 0 0x130 0xA5C30001, sage, 0xA5C30000, by decide, rfl⟩
theorem wit_ClaimsAndLeases_13 : ∃ (s t : State) (_o : Nat) (g : Bytes), t = rsetf s (reg .pair 0 0x05C) 20 18 (fieldLe g 6 1) :=
  ⟨pair0, rsetf pair0 (reg .pair 0 0x05C) 20 18 (fieldLe (rbytes pair0 (reg .pair 0 0x0A0) 36) 6 1), 3, rbytes pair0 (reg .pair 0 0x0A0) 36, rfl⟩
theorem wit_ClaimsAndLeases_14 : ∃ (s t : State) (x : Nat) (f : Frame17), isNext s x f = true ∧ f.type = 0x50 ∧ f.payload.take 1 = [3] ∧ f.payload.length = 148 ∧ t = rsetBytes (inOrder s x f) (reg .pair 0 0x0A0) 36 (f.payload.drop 4) :=
  ⟨witness5, rsetBytes (inOrder witness5 1 grant17) (reg .pair 0 0x0A0) 36 (grant17.payload.drop 4), 1, grant17, by decide +kernel, rfl, by decide, by decide +kernel, rfl⟩
theorem wit_ClaimsAndLeases_15 : ∃ (_s : State) (g : Bytes), fieldLe g 6 1 = 1 :=
  ⟨pair0, zeros 6 ++ [1], by decide⟩
theorem wit_ClaimsAndLeases_16 : ∃ (_s : State) (g : Bytes) (c h : Nat), fieldLe g 6 1 = 2 ∧ c = fieldLe g 8 4 ∧ h = fieldLe g 0x44 4 :=
  ⟨pair0, zeros 6 ++ [2, 0, 4], 4, 0, by decide⟩
theorem wit_ClaimsAndLeases_17 : ∃ (s u : State) (g : Bytes), fieldLe g 6 1 = 2 ∧ fieldLe g 0x44 4 = 0 ∧ s.pair.fresh = false ∧ 0 < fieldLe g 8 4 ∧ u = applyGrant s g :=
  ⟨pair0, applyGrant pair0 (zeros 6 ++ [2, 0, 4]), zeros 6 ++ [2, 0, 4], by decide, by decide, by decide, by decide, rfl⟩
theorem wit_ClaimsAndLeases_19 : ∃ (s : State), running s .lease = true :=
  ⟨tset claim0 .lease 7, by decide⟩
theorem wit_ClaimsAndLeases_20 : ∃ (s : State), running s .holdoff = true :=
  ⟨tset claim0 .holdoff 7, by decide⟩
theorem wit_PairBeatsAndHealth_1 : ∃ (s : State), running s .beatSend = true :=
  ⟨tset pair0 .beatSend 7, by decide⟩
theorem wit_PairBeatsAndHealth_2 : ∃ (s t : State) (x : Nat) (f : Frame17), reaches s x f = true ∧ f.type = 0x51 ∧ t = frameTaken s x f :=
  ⟨standby5, frameTaken standby5 1 beat17, 1, beat17, by decide, rfl, rfl⟩
theorem wit_PairBeatsAndHealth_3 : ∃ (s t : State), running s .beatPeer = true ∧ s.pair.claim = 0 ∧ rbit s (reg .pair 0 0x044) 14 = true ∧ t = expired s .beatPeer :=
  ⟨tset (rset pair0 (reg .pair 0 0x044) 0x4000) .beatPeer 7, expired (tset (rset pair0 (reg .pair 0 0x044) 0x4000) .beatPeer 7) .beatPeer, by decide, by decide, by decide, rfl⟩
theorem wit_PairBeatsAndHealth_4 : ∃ (s t : State), running s .beatPeer = true ∧ (s.pair.claim ≠ 0 ∨ rbit s (reg .pair 0 0x044) 14 = false) ∧ t = expired s .beatPeer :=
  ⟨tset claim0 .beatPeer 7, expired (tset claim0 .beatPeer 7) .beatPeer, by decide, by decide, rfl⟩
theorem wit_PairBeatsAndHealth_5 : ∃ (s t : State), running s .claimAgain = true ∧ t = expired s .claimAgain :=
  ⟨tset { rset pair0 (reg .pair 0 0x044) 0x4000 with pair := { beatsLost := true } } .claimAgain 7, expired (tset { rset pair0 (reg .pair 0 0x044) 0x4000 with pair := { beatsLost := true } } .claimAgain 7) .claimAgain, by decide, rfl⟩
theorem wit_PairBeatsAndHealth_6 : ∃ (s t : State), running s .health = true ∧ t = expired s .health :=
  ⟨tset pair0 .health 7, expired (tset pair0 .health 7) .health, by decide, rfl⟩
theorem wit_PairBeatsAndHealth_7 : ∃ (s t : State) (a : Acc), served s a .pair 0 0x144 = true ∧ t = noted s a .pair 0 0x144 1 :=
  ⟨rset pair0 (reg .pair 0 0x044) 0x0180, noted (rset pair0 (reg .pair 0 0x044) 0x0180) sage .pair 0 0x144 1, sage, by decide, rfl⟩
theorem wit_PairBeatsAndHealth_8 : ∃ (s t : State) (a : Acc) (d : Word), served s a .pair 0 0x078 = true ∧ t = noted s a .pair 0 0x078 d :=
  ⟨running0 0x00040001, noted (running0 0x00040001) sage .pair 0 0x078 0xA5C30001, sage, 0xA5C30001, by decide, rfl⟩
theorem wit_PairBeatsAndHealth_9 : ∃ (s : State) (n _cs _fa : Nat) (_d : Bytes) (_b : Option Bool), (portOn s n = false ∨ pairUp s = false ∨ driving s = true) :=
  ⟨r0, 0, 0, 0x1000, [1, 2], none, by decide⟩
theorem wit_PairBeatsAndHealth_10 : ∃ (s u : State) (n _cs _fa : Nat) (_d : Bytes) (b : Option Bool), portOn s n = true ∧ pairUp s = true ∧ driving s = false ∧ u = (match b with | some x => setPort s n { port s n with cs0Busy := x } | none => s) :=
  ⟨setPort pair0 0 { st := .running }, setPort (setPort pair0 0 { st := .running }) 0 { port (setPort pair0 0 { st := .running }) 0 with cs0Busy := true }, 0, 0, 0x1000, [1, 2], some true, by decide, by decide, by decide, rfl⟩
theorem wit_PairBeatsAndHealth_12 : ∃ (s : State) (n fa : Nat) (d : Bytes) (p : Port), portOn s n = true ∧ pairUp s = true ∧ driving s = false ∧ p = port s n ∧ p.warm = [(fa, d.length)] ∧ 0 < d.length ∧ p.leafReqs = [] ∧ p.blocks = [] ∧ p.refills = [] ∧ p.seq = .idle ∧ p.snoop = [] ∧ fa + d.length < 2 ^ 32 ∧ (flashLane s).isSome = true ∧ s.jobs = [] ∧ p.st ≠ .recovering :=
  ⟨setPort pair0 0 { st := .running, warm := [(0x1000, 2)] }, 0, 0x1000, [1, 2], { st := .running, warm := [(0x1000, 2)] }, by decide⟩
theorem wit_PairMirrorAndWitness_1 : ∃ (s t : State) (a : Acc) (d w : Word) (k n : Nat), served s a .pair 0 0x134 = true ∧ w = d ||| 0x80000000 ∧ t = noted s a .pair 0 0x134 w ∧ k = fld d 7 0 ∧ n = fld d 16 8 :=
  ⟨claim0, noted claim0 sage .pair 0 0x134 0x80000510, sage, 0x0510, 0x80000510, 0x10, 5, by decide, by decide, rfl, by decide, by decide⟩
theorem wit_PairMirrorAndWitness_2 : ∃ (s t : State) (x c : Nat) (f : Frame17) (d : Bytes), isNext s x f = true ∧ f.type = 0x50 ∧ f.payload.take 2 = [4, 1] ∧ t = inOrder s x f ∧ mirrorParse t f.src f.payload = some (1, d) ∧ d.length = 16 ∧ allZero (sliceZ d 1 7) = true ∧ c = fieldLe d 0 1 ∧ 4 ≤ c ∧ c ≤ 67 :=
  ⟨standby5, inOrder standby5 1 mirror17, 1, 8, mirror17, mirror17.payload.drop 8, by decide, rfl, rfl, rfl, rfl, by decide, by decide, by decide, by decide, by decide⟩
theorem wit_PairMirrorAndWitness_3 : ∃ (s t : State) (x c : Nat) (f : Frame17) (d : Bytes), isNext s x f = true ∧ f.type = 0x50 ∧ f.payload.take 2 = [4, 1] ∧ t = inOrder s x f ∧ mirrorParse t f.src f.payload = some (1, d) ∧ c = fieldLe d 0 1 ∧ (d.length ≠ 16 ∨ allZero (sliceZ d 1 7) = false ∨ c < 4 ∨ 67 < c) :=
  ⟨standby5, inOrder standby5 1 mirror17c, 1, 3, mirror17c, mirror17c.payload.drop 8, by decide, rfl, rfl, rfl, rfl, by decide, by decide⟩
theorem wit_PairMirrorAndWitness_4 : ∃ (s t : State) (x n : Nat) (f : Frame17) (d r : Bytes), isNext s x f = true ∧ f.type = 0x50 ∧ f.payload.take 2 = [4, 2] ∧ t = inOrder s x f ∧ mirrorParse t f.src f.payload = some (2, d) ∧ n = fieldLe d 0 1 ∧ r = sliceZ d 4 80 :=
  ⟨setPort standby5 0 { st := .running }, inOrder (setPort standby5 0 { st := .running }) 1 quar17, 1, 0, quar17, quar17.payload.drop 8, sliceZ (quar17.payload.drop 8) 4 80, by decide, rfl, rfl, rfl, rfl, by decide, rfl⟩
theorem wit_PairMirrorAndWitness_5 : ∃ (s t : State) (x k : Nat) (f : Frame17) (d : Bytes), isNext s x f = true ∧ f.type = 0x50 ∧ k < 16 ∧ f.payload.take 2 = [4, BitVec.ofNat 8 (0x10 + k)] ∧ t = inOrder s x f ∧ mirrorParse t f.src f.payload = some (0x10 + k, d) :=
  ⟨standby5, inOrder standby5 1 firm17, 1, 3, firm17, [9, 9], by decide, rfl, by decide, rfl, rfl, by decide⟩
theorem wit_PairMirrorAndWitness_6 : ∃ (s t : State) (x _k : Nat) (f : Frame17), isNext s x f = true ∧ f.type = 0x50 ∧ t = inOrder s x f ∧ mirrorParse t f.src f.payload = none :=
  ⟨both5, inOrder both5 1 firm17, 1, 3, firm17, by decide, rfl, rfl, by decide⟩
theorem wit_PairMirrorAndWitness_7 : ∃ (s t : State) (a : Acc), served s a .pair 0 0x140 = true ∧ t = noted s a .pair 0 0x140 1 :=
  ⟨{ pair0 with pair := { mrx := [(1, []), (2, [])] } }, noted { pair0 with pair := { mrx := [(1, []), (2, [])] } } sage .pair 0 0x140 1, sage, by decide, rfl⟩
theorem wit_PairMirrorAndWitness_8 : ∃ (s t u : State) (x : Nat) (f : Frame17), isNext s x f = true ∧ f.type = 0x50 ∧ t = inOrder s x f ∧ u = (if rbit t (reg .pair 0 0x044) 6 = false then t else if 4 ≤ t.pair.win.length then report t .pair 0 0x150F 0 3 else irq { t with pair := { t.pair with win := t.pair.win ++ [(f.src, f.payload.take 264)] } } .pair 0 7) :=
  ⟨witness5, inOrder witness5 1 preq17, preqIn, 1, preq17, by decide, rfl, rfl, rfl⟩
theorem wit_PairMirrorAndWitness_9 : ∃ (s t : State) (a : Acc), served s a .pair 0 0x14C = true ∧ t = noted s a .pair 0 0x14C 1 :=
  ⟨{ pair0 with pair := { win := [(1, [])] } }, noted { pair0 with pair := { win := [(1, [])] } } sage .pair 0 0x14C 1, sage, by decide, rfl⟩
theorem wit_PairMirrorAndWitness_10 : ∃ (s t : State) (a : Acc) (d w : Word) (n : Nat), served s a .pair 0 0x150 = true ∧ w = d ||| 0x80000000 ∧ t = noted s a .pair 0 0x150 w ∧ n = fld d 5 0 :=
  ⟨rset pair0 (reg .pair 0 0x044) 0x40, noted (rset pair0 (reg .pair 0 0x044) 0x40) sage .pair 0 0x150 0x80000005, sage, 5, 0x80000005, 5, by decide, by decide, rfl, by decide⟩
theorem wit_PowerDomainSwitches_1 : ∃ (s : State) (n : Nat) (up : Bool), n < s.part.ports ∧ (port s n).preq = !up ∧ s.tbLoss = false ∧ s.rst ≠ .por :=
  ⟨r0, 3, true, by decide⟩
theorem wit_PowerDomainSwitches_2 : ∃ (s : State) (n : Nat) (up : Bool), (s.part.ports ≤ n ∨ (port s n).preq = up ∨ s.tbLoss = true ∨ s.rst = .por) :=
  ⟨r0, 3, false, by decide⟩
theorem wit_PowerDomainSwitches_3 : ∃ (s t : State) (a : Acc) (d : Word) (differ bad : List Nat), served s a .pwr 0 0x044 = true ∧ t = noted s a .pwr 0 0x044 d ∧ (differ = (List.range 30).filter (fun b => bit d b != (domOn t b && bit (domainsOf t.part) b))) ∧ (bad = differ.filter (fun b => !firmwareDomain b || !bit (domainsOf t.part) b)) :=
  ⟨r0, noted r0 sage .pwr 0 0x044 0x3FFFFFF7, sage, 0x3FFFFFF7, [3], [], by decide, rfl, by decide, by decide⟩
theorem wit_PowerDomainSwitches_5 : ∃ (s : State) (a : Acc) (d stored : Word), takes s a .pwr 0 0x044 d = true ∧ s.pwr.sw = [] ∧ stored = ((d &&& ~~~ 0x10F00000) ||| 0x10F00000) &&& domainsOf s.part ∧ ((∀ b, b < 30 → bit d b = (domOn s b && bit (domainsOf s.part) b))) :=
  ⟨r0, sage, domainsOf .wdx6416, ((domainsOf .wdx6416 &&& ~~~ 0x10F00000) ||| 0x10F00000) &&& domainsOf .wdx6416, by decide, by decide, rfl, by decide⟩
theorem wit_PowerDomainSwitches_6 : ∃ (s t : State) (a : Acc) (d : Word) (b : Nat), takes s a .pwr 0 0x044 d = true ∧ s.pwr.sw = [] ∧ firmwareDomain b = true ∧ b < 30 ∧ bit (domainsOf s.part) b = true ∧ domOn s b = true ∧ ((∀ k, k < 30 → bit d k = (decide (k ≠ b) && domOn s k && bit (domainsOf s.part) k))) ∧ t = rset s (reg .pwr 0 0x044) (((d &&& ~~~ 0x10F00000) ||| 0x10F00000) &&& domainsOf s.part) :=
  ⟨r0, rset r0 (reg .pwr 0 0x044) (((0x3FFFFFF7 &&& ~~~ 0x10F00000) ||| 0x10F00000) &&& domainsOf .wdx6416), sage, 0x3FFFFFF7, 3, by decide, by decide, by decide, by decide, by decide, by decide, by decide, rfl⟩
theorem wit_PowerDomainSwitches_7 : ∃ (s : State) (a : Acc) (d stored : Word) (b : Nat), takes s a .pwr 0 0x044 d = true ∧ s.pwr.sw = [] ∧ firmwareDomain b = false ∧ b < 30 ∧ bit (domainsOf s.part) b = true ∧ domOn s b = true ∧ ((∀ k, k < 30 → bit d k = (decide (k ≠ b) && domOn s k && bit (domainsOf s.part) k))) ∧ stored = ((d &&& ~~~ 0x10F00000) ||| 0x10F00000) &&& domainsOf s.part :=
  ⟨r0, sage, 0x3FEFFFFF, ((0x3FEFFFFF &&& ~~~ 0x10F00000) ||| 0x10F00000) &&& domainsOf .wdx6416, 20, by decide, by decide, by decide, by decide, by decide, by decide, by decide, rfl⟩
theorem wit_PowerDomainSwitches_8 : ∃ (s : State) (b : Nat) (on : Bool) (rest : List (Nat × Bool)), s.pwr.sw = (b, on) :: rest :=
  ⟨{ r0 with domOff := 0x8, pwr := { sw := [(3, true)] } }, 3, true, [], by decide⟩
theorem wit_PowerDomainSwitches_9 : ∃ (_s : State) (b : Nat), b < 30 :=
  ⟨r0, 3, by decide⟩
theorem wit_RestEntryAndWake_1 : ∃ (s t : State) (a : Acc) (d : Word), served s a .pwr 0 0x04C = true ∧ t = noted s a .pwr 0 0x04C (withField d 1 0 1) :=
  ⟨withRegs [(reg .rom 0 0x054, 0x80000000)], noted (withRegs [(reg .rom 0 0x054, 0x80000000)]) sage .pwr 0 0x04C 0xA5C30001, sage, 0xA5C30000, by decide, rfl⟩
theorem wit_RestEntryAndWake_3 : ∃ (s t : State) (a : Acc) (d : Word), served s a .pwr 0 0x04C = true ∧ t = noted s a .pwr 0 0x04C (withField d 1 0 2) :=
  ⟨withRegs [(reg .pwr 0 0x040, 1)], noted (withRegs [(reg .pwr 0 0x040, 1)]) sage .pwr 0 0x04C 0xA5C30002, sage, 0xA5C30000, by decide, rfl⟩
theorem wit_RestEntryAndWake_5 : ∃ (s : State), pwrState s = 2 :=
  ⟨withRegs [(reg .pwr 0 0x040, 2), (reg .pwr 0 0x050, 7)], by decide⟩
theorem wit_RestEntryAndWake_6 : ∃ (s : State) (b : Nat), pwrState s = 2 ∧ b < 23 ∧ bit (domainsOf s.part) b = true :=
  ⟨withRegs [(reg .pwr 0 0x040, 2)], 5, by decide⟩
theorem wit_RestEntryAndWake_7 : ∃ (s : State), running s .wake = true :=
  ⟨tset (withRegs [(reg .pwr 0 0x040, 3)]) .wake 7, by decide⟩
theorem wit_RestEntryAndWake_9 : ∃ (s : State), running s .wakeDone = true :=
  ⟨tset (withRegs [(reg .pwr 0 0x040, 4)]) .wakeDone 7, by decide⟩
theorem wit_WrongSizedAccesses_1 : ∃ (s t : State) (a : Acc) (off size : Nat) (_d : Word) (inp : BusIn), silent s a = false ∧ off < 0x1000000 ∧ (size ≠ 4 ∨ off % 4 ≠ 0) ∧ t = wakeByHost (coreStores s inp) a :=
  ⟨r0, r0, sage, 0x30042, 2, 7, {}, by decide, by decide, by decide, rfl⟩
theorem wit_WrongSizedAccesses_2 : ∃ (s t : State) (a : Acc) (off size : Nat), silent s a = false ∧ off < 0x1000000 ∧ (size ≠ 4 ∨ off % 4 ≠ 0) ∧ t = wakeByHost s a :=
  ⟨r0, r0, sage, 0x30042, 2, by decide, by decide, by decide, rfl⟩
theorem wit_ReservedPages_1 : ∃ (s t u : State) (a : Acc) (off _size : Nat) (_d : Word) (inp : BusIn), silent s a = false ∧ off < 0x1000000 ∧ pageOf off = .reserved ∧ t = wakeByHost (coreStores s inp) a ∧ u = wakeByHost s a :=
  ⟨r0, r0, r0, sage, 0xBFF000, 4, 7, {}, by decide, by decide, by decide, rfl, rfl⟩
theorem wit_ReservedPages_2 : ∃ (off : Nat) (_k : PageKind) (_i : Nat), 0xC00000 ≤ off ∧ off < 0x1000000 :=
  ⟨0xFFFFFF, .inst, 64, by decide⟩
theorem wit_MemoriesStayCanonical_1 : ∃ (s t : State), memoriesWf s = true ∧ step s = .next t :=
  ⟨queued0, nextOf (step queued0), by decide +kernel, rfl⟩
theorem wit_FuseBitsNeverRevert_1 : ∃ (s t : State) (_w : Nat), step s = .next t :=
  ⟨queued0, nextOf (step queued0), 191, rfl⟩
theorem wit_FuseBitsNeverRevert_2 : ∃ (s t : State), step s = .next t ∧ (∀ w, fuseStrict s w &&& ~~~ fuseRead s w = 0) :=
  ⟨queued0, nextOf (step queued0), rfl, fun _ => BitVec.and_not_self _⟩
theorem wit_CountersNeverFall_1 : ∃ (s t : State), countersWf s ∧ step s = .next t :=
  ⟨queued0, nextOf (step queued0), ⟨by decide, fun _ h => absurd (show _ ∈ ([] : List (Nat × Option Nat × Option Nat)) from h) List.not_mem_nil⟩, rfl⟩
theorem wit_QueueFirstInFirstOut_1 : ∃ (s t : State), step s = .next t :=
  ⟨queued0, nextOf (step queued0), rfl⟩
/-! ### Ill-formed commands are refused, one for each check -/

theorem test_wf_command : (Instr.twdCheckin ⟨0x02, true⟩ 0xA5C30002).wf = true := by decide
theorem test_wf_master : (Instr.berrClear ⟨0x05, true⟩).wf = false := by decide
theorem test_wf_master_privilege : (Instr.berrClear ⟨0x10, true⟩).wf = false := by decide
theorem test_wf_vf_page : (Instr.pageLock ⟨0x11, false⟩ 0x081).wf = true := by decide
theorem test_wf_vf_other_page : (Instr.pageLock ⟨0x11, false⟩ 0x082).wf = false := by decide
theorem test_wf_vf_instance : (Instr.instReset ⟨0x11, false⟩ 2 0 {}).wf = false := by decide
theorem test_wf_vf_control : (Instr.twdCheckin ⟨0x11, false⟩ 0xA5C30002).wf = false := by decide
theorem test_wf_config_payload : PciFn.wf { mps := 2 } = false := by decide
theorem test_wf_config_request : PciFn.wf { mrrs := 6 } = false := by decide
theorem test_wf_config_timeout : PciFn.wf { cto := 3 } = false := by decide
theorem test_wf_config_aspm : PciFn.wf { aspm := 4 } = false := by decide
theorem test_wf_config_unit : PciFn.wf { stu := 32 } = false := by decide
theorem test_wf_config_bar : PciFn.wf { bar0 := 2 ^ 64 } = false := by decide
theorem test_wf_config_write : (Instr.configWrite 0 { aspm := 4 }).wf = false := by decide
theorem test_wf_link_speed : (Instr.pcieLinkUp 5 ⟨1, false⟩).wf = false := by decide
theorem test_wf_link_width : (Instr.pcieLinkUp 4 ⟨3, false⟩).wf = false := by decide
theorem test_wf_chip_select : (Instr.snoopedFlashCommand 0 ⟨2, 0⟩ [] none).wf = false := by decide
theorem test_wf_flash_address : (Instr.snoopedFlashCommand 0 ⟨0, 2 ^ 32⟩ [] none).wf = false := by decide
theorem test_wf_master_dma : (Instr.berrClear ⟨0x51, true⟩).wf = false := by decide
theorem test_wf_page : (Instr.pageLock sage 0x1000).wf = false := by decide
theorem test_wf_offset : (Instr.registerWrite sage 0x1000000 4 0 {}).wf = false := by decide
theorem test_wf_port : (Instr.writeDisable 16 0).wf = false := by decide
theorem test_wf_rail : (Instr.supplyFall 9 0 0 0).wf = false := by decide
theorem test_wf_cmd_code_named : (Instr.cmdInvalid sage 0 7).wf = false := by decide
theorem test_wf_cmd_code_wide : (Instr.cmdInvalid sage 0 16).wf = false := by decide
theorem test_wf_latched_window : (Instr.latchedSetWrite sage 0 (.winMap 32) 0).wf = false := by decide
theorem test_wf_vst_bank : (Instr.scrubTick 4 .clean).wf = false := by decide
theorem test_wf_core_ring : (Instr.cqHeadWrite sage (.core 4) 0).wf = false := by decide
theorem test_wf_inst_ring : (Instr.cqHeadWrite sage (.inst 65) 0).wf = false := by decide
theorem test_wf_tag : (Instr.selfTestTimeout 1024).wf = false := by decide
theorem test_wf_lane : (Instr.hashSegment 0 0 8).wf = false := by decide
theorem test_wf_reserve_register : (Instr.laneReserveWrite sage 8 0).wf = false := by decide
theorem test_wf_dmi_core : (Instr.tapDmi (.halt 4) {}).wf = false := by decide
theorem test_wf_dmi_offset : (Instr.tapDmi (.busRead 0x1000000 4) {}).wf = false := by decide
theorem test_wf_push_offset : (Instr.pushApertureWrite 0x800000 []).wf = false := by decide
theorem test_wf_core_queue : (Instr.cstIncrement sage 4 0).wf = false := by decide
theorem test_wf_counter : (Instr.cstOwnerWrite sage 256 0).wf = false := by decide
theorem test_wf_function : (Instr.vfFlr 65).wf = false := by decide
theorem test_wf_page_request : (Instr.prgResponse 512 true {}).wf = false := by decide
theorem test_wf_i3c_address : (Instr.setnewda 128).wf = false := by decide
theorem test_wf_i3c_length : (Instr.setmwl ⟨false, 0x10000⟩).wf = false := by decide
theorem test_wf_service_sequence : (Instr.svcPushWrite 0x10000 []).wf = false := by decide
theorem test_wf_side : (Instr.silentTimeout 2).wf = false := by decide
theorem test_wf_node : (Instr.nodeAgeing 64).wf = false := by decide
theorem test_wf_frame_sequence_timer : (Instr.retransmitTimeout 5 0x10000).wf = false := by decide
theorem test_wf_aperture : (Instr.remoteApertureAccess sage false 0x400000 0).wf = false := by decide
theorem test_wf_bulk_channel : (Instr.bulkProgressTimeout 4).wf = false := by decide
theorem test_wf_mirror_kind : (Instr.mirrorFirmwareRecord 16 0 hello17).wf = false := by decide
theorem test_wf_source : (Instr.evhRouteWrite sage 576 0).wf = false := by decide
theorem test_wf_vector : (Instr.msixResend 0 64).wf = false := by decide
theorem test_wf_frame : (Instr.linkHello 0 hello17).wf = true := by decide
theorem test_wf_frame_type : Frame17.wf { hello17 with type := 256 } = false := by decide
theorem test_wf_frame_flags : Frame17.wf { hello17 with flags := 256 } = false := by decide
theorem test_wf_frame_dst : Frame17.wf { hello17 with dst := 256 } = false := by decide
theorem test_wf_frame_src : Frame17.wf { hello17 with src := 256 } = false := by decide
theorem test_wf_frame_seq : Frame17.wf { hello17 with seq := 0x10000 } = false := by decide
theorem test_wf_frame_ack : Frame17.wf { hello17 with ack := 0x10000 } = false := by decide
theorem test_wf_frame_srcInc : Frame17.wf { hello17 with srcInc := 0x10000 } = false := by decide
theorem test_wf_frame_dstInc : Frame17.wf { hello17 with dstInc := 0x10000 } = false := by decide
theorem test_wf_frame_hops : Frame17.wf { hello17 with hops := 256 } = false := by decide
theorem test_wf_frame_payload : Frame17.wf { hello17 with payload := zeros 265 } = false := by decide +kernel

/-! ### One-step tests, with the manual's worked examples -/

/-- An access of Dill `q`. -/
def dill (q : Nat) : Acc := ⟨BitVec.ofNat 8 (q + 1), true⟩
/-- A WDX-6408 and the same with port 5's domain off ("Discovery on a WDX-6408"). -/
def part8 : State := { r0 with part := .wdx6408 }
def part8off : State := { part8 with domOff := 0x20 }
theorem test_cap_units_6408 : readReg part8 0x44 = 0x20A12408 := by decide +kernel
theorem test_port5_id : readReg part8off 0x054000 = 0x000E0501 := by decide +kernel
theorem test_port5_cap : readReg part8off 0x054004 = 0 := by decide +kernel
/-- A stray write of an absent port: one record with cause 1, the offset and master 0. -/
theorem test_stray_write_off : readReg (nextOf (exec (.registerWrite sage 0x064000 4 5 {}) part8)) 0x100 = 0x064000 := by decide +kernel
theorem test_stray_write_info : readReg (nextOf (exec (.registerWrite sage 0x064000 4 5 {}) part8)) 0x104 = 0x1B00 := by decide +kernel

/-- Port 2 of "Dummy counts for an octal platform". -/
def octal2 : State :=
  withRegs [(reg .fgpCtl 2 0x040, 0x113206A0), (reg .fgpCtl 2 0x04C, 0x4224), (reg .fgpCtl 2 0x054, 0x10), (reg .fgpCtl 2 0x050, 0x0210EEEE)]
theorem test_dummy_eff : readReg octal2 (reg .fgpCtl 2 0x048) = 0x30004631 := by decide +kernel

/-- The task watchdog of "An edge, a duplicate and a bite", armed. -/
def twd0 : State :=
  tset (withRegs [(reg .twd 0 0x040, 1), (reg .twd 0 0x044, 0x000A0000), (reg .twd 0 0x048, 0x000186A0), (reg .twd 0 0x04C, 0xF),
    (reg .twd 0 0x080, 0), (reg .twd 0 0x084, 1), (reg .twd 0 0x088, 2), (reg .twd 0 0x08C, 3)]) .twd 5000000
theorem test_twd_seen : rget (nextOf (exec (.twdCheckin (dill 1) 0xA5C30002) twd0)) (reg .twd 0 0x054) = 4 := by decide +kernel
theorem test_twd_foreign : rget (nextOf (exec (.twdCheckin (dill 0) 0xA5C30003) twd0)) (reg .twd 0 0x060) = 0x01010103 := by decide +kernel
/-- Period 4 ends with slot 3 missing: PREBITE. -/
def twd4 : State := rset twd0 (reg .twd 0 0x054) 7
theorem test_twd_missed : rget (nextOf (exec .twdPeriodEnd twd4)) (reg .twd 0 0x05C) = 8 := by decide +kernel

/-- FGP3's doorbell and quarantine routed as in "A quarantine during a mailbox request". -/
def routed3 : State :=
  withRegs [(0x5284, 0x00009971), (0x52A0, 0x54), (reg .fgpCtl 3 0x014, 4), (reg .fgpMb 3 0x014, 1)]
theorem test_core2_claim : readReg (nextOf (exec (.pageIrqForce sage (reg .fgpMb 3 0 / 4096) 1) routed3)) (reg .evh 0 0x084) = 0x80001468 := by
  decide +kernel
theorem test_core0_claim : readReg (nextOf (exec (.pageIrqForce sage (reg .fgpCtl 3 0 / 4096) 4) routed3)) (reg .evh 0 0x064) = 0x80001C61 := by
  decide +kernel

/-- The parked job of VF 7 in "A pre-empted, faulting hash job". -/
def parked7 : State :=
  setJob (withRegs [(reg .cje 0 0x058, 0x1A3)]) 0x1A3
    { sub := .inst 7, desc := [1, 5] ++ zeros 62, st := .faultFetch, last := (0, 4), pos := 0x80000, faulted := true, preempted := true }
theorem test_tag_info : readReg parked7 (reg .cje 0 0x05C) = 0x00021E0C := by decide +kernel
theorem test_tag_pos : readReg parked7 (reg .cje 0 0x060) = 0x00080000 := by decide +kernel

/-- The OWNED device of "A droop, an opened case and an unlock". -/
def owned3 : State :=
  { setFuse (setFuse r0 192 0xFFFF 0xFFFF) 208 7 7 with fuseSh := [(192, 0xFFFF), (208, 7)], tem := { r0.tem with observe := false, ack := ackWord 3 } }
def case2 : State := rset owned3 (reg .tem 0 0x048) 0x44
theorem test_case_locks : (nextOf (exec (.caseInputChange 2 true) case2)).locked = true := by decide +kernel
theorem test_lock_info : readReg (nextOf (exec (.tamperCountAdvance true true) (nextOf (exec (.caseInputChange 2 true) case2)))) (reg .tem 0 0x04C) = 0x80000482 := by
  decide +kernel
theorem test_supply_sample : readReg (nextOf (exec (.supplySample 0 2700) owned3)) (reg .tem 0 0x0C0) = 0x0A8C := by decide +kernel

/-- Node 0 of "A node lost on a 48-node ring" after the new TOPOLOGY. -/
def head48 : State :=
  { r0 with sides := [(0, { st := .up }), (1, { st := .up })]
            topo := some ⟨2, some 16, ((List.range 17).map fun n => (n, n + 1)) ++ (List.range 30).map fun n => (n + 18, n + 19)⟩ }
theorem test_ring_status : readReg head48 (reg .lms 0 0x080) = 0x00022F0B := by decide +kernel
theorem test_topo : readReg head48 (reg .lms 0 0x0B0) = 0x0000902F := by decide +kernel

/-- Three domains of "A WDX-6408 resting" have been written off. -/
theorem test_domain_en : rget (nextOf (exec (.pwrDomainEnWrite sage 0x3FF3003F) part8)) (reg .pwr 0 0x044) = 0x3FF3003F := by decide +kernel
/-- P2_PREQ_N falls in REST: the PWR page's wake cause 1, and EVH_PREQ_STATUS bit 2. -/
theorem test_preq_status : rbit (nextOf (exec (.preqChange 2 false) (modPort r0 2 fun p => { p with preq := true }))) (reg .evh 0 0x048) 2 = true := by decide +kernel

/-! ### Pins: the examples of chapter 21 (R492) -/
theorem test_ball_j29 : ballAt 9 29 = .port 5 .prst := by decide
theorem test_ball_v6 : ballAt 17 6 = .port 14 .fcs1 := by decide
theorem test_ball_a3 : ballAt 1 3 = .port 0 (.pdq 0) := by decide
theorem test_ball_at32 : ballAt 34 32 = .port 8 (.pdq 0) := by decide
theorem test_ball_aa6 : ballAt 20 6 = .port 14 .prst := by decide
theorem test_ball_p6 : ballAt 14 6 = .port 15 .prst := by decide
/-- Right after reset P3_PRST_N is low and F3_RST_N is pulsed low (R98, R100); port 4's platform side is absent on a WDX-6404. -/
theorem test_pin_hold : ballDrive r0 (.port 3 .prst) = .low := by decide +kernel
theorem test_pin_flash_reset : ballDrive r0 (.port 3 .frst) = .low := by decide +kernel
theorem test_pin_absent : ballDrive { r0 with part := .wdx6404 } (.port 4 .prst) = .z := by decide +kernel

end Sys2Proof.Tests
end

section
/-! PROOFS. Proofs: what a register access does at the bus, the record of the bus error log, the page header, and the machine
right after reset. -/
namespace Sys2Proof.Machine

/-! ### Bit fields (R12) -/

theorem testBit_fld (w : Word) (hi lo j : Nat) :
    (fld w hi lo).testBit j = (decide (j < hi + 1 - lo) && w.getLsbD (lo + j)) := by
  simp [fld, BitVec.getLsbD, Nat.testBit_mod_two_pow, Nat.testBit_shiftRight]

theorem getLsbD_maskOf (hi lo i : Nat) :
    (maskOf hi lo).getLsbD i = (decide (i < 32) && (decide (lo ≤ i) && decide (i < hi + 1))) := by
  simp only [maskOf, BitVec.getLsbD_ofNat, Nat.testBit_shiftLeft, Nat.testBit_two_pow_sub_one, ge_iff_le]
  grind

/-- A bit of a word with a field replaced: the value's inside the field, the word's outside. -/
theorem getLsbD_setFld (w : Word) (hi lo v i : Nat) (h : i < 32) :
    (setFld w hi lo v).getLsbD i = if lo ≤ i ∧ i ≤ hi then v.testBit (i - lo) else w.getLsbD i := by
  simp only [setFld, BitVec.getLsbD_or, BitVec.getLsbD_and, BitVec.getLsbD_not, getLsbD_maskOf, BitVec.getLsbD_ofNat,
    Nat.testBit_shiftLeft, h]
  grind

theorem fld_setFld_same (w : Word) {hi lo : Nat} (v : Nat) (h : hi < 32) :
    fld (setFld w hi lo v) hi lo = v % 2 ^ (hi + 1 - lo) := by
  apply Nat.eq_of_testBit_eq
  intro j
  rw [testBit_fld, Nat.testBit_mod_two_pow]
  by_cases hj : j < hi + 1 - lo
  · rw [getLsbD_setFld _ _ _ _ _ (by omega), if_pos (by omega), Nat.add_sub_cancel_left]
  · simp [hj]

/-- A field beside the one replaced. -/
theorem fld_setFld_other (w : Word) {hi lo hi' lo' : Nat} (v : Nat) (h : hi < 32) (hd : hi < lo' ∨ hi' < lo) :
    fld (setFld w hi' lo' v) hi lo = fld w hi lo := by
  apply Nat.eq_of_testBit_eq
  intro j
  rw [testBit_fld, testBit_fld]
  by_cases hj : j < hi + 1 - lo
  · rw [getLsbD_setFld _ _ _ _ _ (by omega), if_neg (by omega)]
  · simp [hj]

theorem rfld_rsetf_same (s : State) (o : Nat) {hi lo : Nat} (v : Nat) (h : hi < 32) :
    rfld (rsetf s o hi lo v) o hi lo = v % 2 ^ (hi + 1 - lo) := by
  simp [rfld, rsetf, fld_setFld_same _ _ h]

theorem rfld_rsetf_other (s : State) (o : Nat) {hi lo hi' lo' : Nat} (v : Nat) (h : hi < 32) (hd : hi < lo' ∨ hi' < lo) :
    rfld (rsetf s o hi' lo' v) o hi lo = rfld s o hi lo := by
  simp [rfld, rsetf, fld_setFld_other _ _ h hd]

theorem rget_rsetf_other (s : State) {o a : Nat} (hi lo v : Nat) (h : a ≠ o) : rget (rsetf s o hi lo v) a = rget s a :=
  rget_rset_other s _ h

/-! ### Interrupt bits (R66) -/

theorem rget_irq_other (s : State) {k : PageKind} {i b a : Nat} (h : a ≠ reg k i 0x010) : rget (irq s k i b) a = rget s a :=
  rget_rset_other s _ h

/-- Setting an interrupt bit sets it and leaves the page's other ones. -/
theorem rbit_irq (s : State) (k : PageKind) (i b j : Nat) (h : j < 32) :
    rbit (irq s k i b) (reg k i 0x010) j = (decide (j = b) || rbit s (reg k i 0x010) j) := by
  simp only [rbit, irq, rsetb, rsetf, rget_rset_same, bit, b2n, getLsbD_setFld _ _ _ _ _ h]
  by_cases hj : j = b
  · simp [hj]
  · have hout : ¬ (b ≤ j ∧ j ≤ b) := by omega
    simp [hj, hout]

/-! ### Updates of the register file alone -/

/-- `u` is `s` but for its register file. -/
def OnlyRegs (s u : State) : Prop := ∃ r, u = { s with regs := r }

theorem OnlyRegs.refl (s : State) : OnlyRegs s s := ⟨s.regs, rfl⟩
theorem OnlyRegs.rset {s u : State} (h : OnlyRegs s u) (o : Nat) (v : Word) : OnlyRegs s (rset u o v) := by
  obtain ⟨r, rfl⟩ := h
  exact ⟨_, rfl⟩
theorem OnlyRegs.irq {s u : State} (h : OnlyRegs s u) (k : PageKind) (i b : Nat) : OnlyRegs s (irq u k i b) := h.rset _ _
theorem OnlyRegs.eq {s u : State} (h : OnlyRegs s u) : u = { s with regs := u.regs } := by
  obtain ⟨r, rfl⟩ := h
  rfl

/-! ### The bus error log (R79, R80) -/

/-- BOOT_BERR_STATUS. -/
def berrStatus : Nat := reg .cap 0 0x080
/-- Word `j` of entry `e` of the log. -/
def berrWord (e j : Nat) : Nat := reg .cap 0 (0x100 + 16 * e) + 4 * j

/-- The four words of entry `e` stored: the address, who accessed and how, the data and the time. -/
def berrStore (s : State) (e : Nat) (addr attr data time : Word) : State :=
  rset (rset (rset (rset s (berrWord e 0) addr) (berrWord e 1) attr) (berrWord e 2) data) (berrWord e 3) time
/-- The log's counts after one more record: entries held, the next entry to write, records made. -/
def berrCount (s : State) : State :=
  rcount (rsetf (rsetf s berrStatus 4 0 (min (rfld s berrStatus 4 0 + 1) 16)) berrStatus 11 8 ((rfld s berrStatus 11 8 + 1) % 16))
    berrStatus 31 16 1

theorem berrWord_eq (e j : Nat) : berrWord e j = reg .cap 0 (0x100 + 4 * j + 16 * e) := by simp only [berrWord, reg, pageBase]; omega
theorem berrWord_ne_status (e j : Nat) : berrWord e j ≠ berrStatus := by simp only [berrWord, berrStatus, reg, pageBase]; omega
theorem berrWord_ne_irq (e j : Nat) : berrWord e j ≠ reg .cap 0 0x010 := by simp only [berrWord, reg, pageBase]; omega
theorem berrWord_inj {e j j' : Nat} : berrWord e j = berrWord e j' ↔ j = j' := by simp only [berrWord, reg, pageBase]; omega

theorem rget_berrStore_other (s : State) {e a : Nat} (w0 w1 w2 w3 : Word) (h : ∀ j, a ≠ berrWord e j) :
    rget (berrStore s e w0 w1 w2 w3) a = rget s a := by simp [berrStore, rget_rset, h]
theorem rget_berrStore_addr (s : State) (e : Nat) (w0 w1 w2 w3 : Word) :
    rget (berrStore s e w0 w1 w2 w3) (berrWord e 0) = w0 := by simp [berrStore, rget_rset, berrWord_inj]
theorem rget_berrStore_attr (s : State) (e : Nat) (w0 w1 w2 w3 : Word) :
    rget (berrStore s e w0 w1 w2 w3) (berrWord e 1) = w1 := by simp [berrStore, rget_rset, berrWord_inj]
theorem rget_berrStore_data (s : State) (e : Nat) (w0 w1 w2 w3 : Word) :
    rget (berrStore s e w0 w1 w2 w3) (berrWord e 2) = w2 := by simp [berrStore, rget_rset, berrWord_inj]
theorem rget_berrStore_time (s : State) (e : Nat) (w0 w1 w2 w3 : Word) :
    rget (berrStore s e w0 w1 w2 w3) (berrWord e 3) = w3 := by simp [berrStore]

theorem rget_berrCount_other (s : State) {a : Nat} (h : a ≠ berrStatus) : rget (berrCount s) a = rget s a := by
  simp only [berrCount, rcount, rget_rsetf_other _ _ _ _ h]
theorem rfld_berrCount_held (s : State) : rfld (berrCount s) berrStatus 4 0 = min (rfld s berrStatus 4 0 + 1) 16 := by
  rw [berrCount, rcount, rfld_rsetf_other _ _ _ (by decide) (by decide), rfld_rsetf_other _ _ _ (by decide) (by decide),
    rfld_rsetf_same _ _ _ (by decide)]
  omega
theorem rfld_berrCount_next (s : State) : rfld (berrCount s) berrStatus 11 8 = (rfld s berrStatus 11 8 + 1) % 16 := by
  rw [berrCount, rcount, rfld_rsetf_other _ _ _ (by decide) (by decide), rfld_rsetf_same _ _ _ (by decide)]
  omega
theorem rfld_berrCount_made (s : State) :
    rfld (berrCount s) berrStatus 31 16 = satAdd (rfld s berrStatus 31 16) 1 65535 := by
  rw [berrCount, rcount, rfld_rsetf_same _ _ _ (by decide), rfld_rsetf_other _ _ _ (by decide) (by decide),
    rfld_rsetf_other _ _ _ (by decide) (by decide)]
  simp only [satAdd]
  omega

/-- A record's second word: master, direction, privilege, size and cause. -/
def berrAttr (a : Acc) (write : Bool) (size : Nat) (c : Cause) : Word :=
  mk 7 0 a.master.toNat ||| mk 8 8 (b2n write) ||| mk 9 9 (b2n a.priv) |||
    mk 11 10 (if size = 1 then 0 else if size = 2 then 1 else if size = 4 then 2 else 3) ||| mk 15 12 c.code

/-- The record and the counts, before the interrupt bits. -/
def berrLogged (s : State) (a : Acc) (write : Bool) (off size : Nat) (w : Word) (c : Cause) : State :=
  berrCount (berrStore s (rfld s berrStatus 11 8) (BitVec.ofNat 32 (off % 2 ^ 24)) (berrAttr a write size c) (if write then w else 0)
    (BitVec.ofNat 32 s.tbTime))

theorem rget_berrStore_status (s : State) (e : Nat) (w0 w1 w2 w3 : Word) :
    rget (berrStore s e w0 w1 w2 w3) berrStatus = rget s berrStatus :=
  rget_berrStore_other s _ _ _ _ fun j => (berrWord_ne_status e j).symm
theorem rfld_berrStore_status (s : State) (e hi lo : Nat) (w0 w1 w2 w3 : Word) :
    rfld (berrStore s e w0 w1 w2 w3) berrStatus hi lo = rfld s berrStatus hi lo := by
  simp only [rfld, rget_berrStore_status]

/-- A record in the log: its entry, the counts, interrupt bit 0, and bit 1 where it overwrites one. -/
theorem busLog_up {s : State} (h : pageUp s .cap 0 = true) (a : Acc) (write : Bool) (off size : Nat) (w : Word) (c : Cause) :
    busLog s a write off size w c =
      if rfld s berrStatus 4 0 = 16 then irq (irq (berrLogged s a write off size w c) .cap 0 0) .cap 0 1
      else irq (berrLogged s a write off size w c) .cap 0 0 := by
  simp only [busLog, h, berrLogged, berrCount, rfld_berrStore_status]
  rfl

theorem berrLogged_onlyRegs (s : State) (a : Acc) (write : Bool) (off size : Nat) (w : Word) (c : Cause) :
    OnlyRegs s (berrLogged s a write off size w c) :=
  (OnlyRegs.refl s).rset _ _ |>.rset _ _ |>.rset _ _ |>.rset _ _ |>.rset _ _ |>.rset _ _ |>.rset _ _

/-- A record changes registers only. -/
theorem busLog_onlyRegs (s : State) (a : Acc) (write : Bool) (off size : Nat) (w : Word) (c : Cause) :
    OnlyRegs s (busLog s a write off size w c) := by
  cases h : pageUp s .cap 0 with
  | false => simpa [busLog, h] using OnlyRegs.refl s
  | true =>
    have hl := (berrLogged_onlyRegs s a write off size w c).irq .cap 0 0
    rw [busLog_up h]
    split
    · exact hl.irq .cap 0 1
    · exact hl

/-- A record's interrupt bits change no other register. -/
theorem rget_busLog_up {s : State} (h : pageUp s .cap 0 = true) (a : Acc) (write : Bool) (off size : Nat) (w : Word) (c : Cause)
    {r : Nat} (hr : r ≠ reg .cap 0 0x010) :
    rget (busLog s a write off size w c) r = rget (berrLogged s a write off size w c) r := by
  rw [busLog_up h]
  split <;> simp only [rget_irq_other _ hr]

/-- What the log and the registers hold after a record (R79). -/
theorem busLog_record {s : State} (h : pageUp s .cap 0 = true) (a : Acc) (write : Bool) (off size : Nat) (w : Word) (c : Cause)
    {e : Nat} (he : e = rfld s berrStatus 11 8) :
    rget (busLog s a write off size w c) (berrWord e 0) = BitVec.ofNat 32 (off % 2 ^ 24) ∧
    rget (busLog s a write off size w c) (berrWord e 1) = berrAttr a write size c ∧
    rget (busLog s a write off size w c) (berrWord e 2) = (if write then w else 0) ∧
    rget (busLog s a write off size w c) (berrWord e 3) = BitVec.ofNat 32 s.tbTime := by
  subst he
  simp only [rget_busLog_up h _ _ _ _ _ _ (berrWord_ne_irq _ _), berrLogged, rget_berrCount_other _ (berrWord_ne_status _ _),
    rget_berrStore_addr, rget_berrStore_attr, rget_berrStore_data, rget_berrStore_time, and_self]

/-- The log's counts after a record (R79). -/
theorem busLog_counts {s : State} (h : pageUp s .cap 0 = true) (a : Acc) (write : Bool) (off size : Nat) (w : Word) (c : Cause) :
    rfld (busLog s a write off size w c) berrStatus 4 0 = min (rfld s berrStatus 4 0 + 1) 16 ∧
    rfld (busLog s a write off size w c) berrStatus 11 8 = (rfld s berrStatus 11 8 + 1) % 16 ∧
    rfld (busLog s a write off size w c) berrStatus 31 16 = satAdd (rfld s berrStatus 31 16) 1 65535 := by
  have hst (hi lo : Nat) : rfld (busLog s a write off size w c) berrStatus hi lo = rfld (berrLogged s a write off size w c) berrStatus hi lo := by
    rw [rfld, rget_busLog_up h _ _ _ _ _ _ (by decide)]; rfl
  simp only [hst, berrLogged, rfld_berrCount_held, rfld_berrCount_next, rfld_berrCount_made, rfld_berrStore_status, and_self]

/-- The interrupt bits of a record: bit 0, and bit 1 where it overwrites an entry (R79). -/
theorem busLog_irq {s : State} (h : pageUp s .cap 0 = true) (a : Acc) (write : Bool) (off size : Nat) (w : Word) (c : Cause) :
    rbit (busLog s a write off size w c) (reg .cap 0 0x010) 0 = true ∧
    (rfld s berrStatus 4 0 = 16 → rbit (busLog s a write off size w c) (reg .cap 0 0x010) 1 = true) := by
  rw [busLog_up h]
  split
  · simp [rbit_irq]
  · next hn => simp [rbit_irq, hn]

/-! ### A write that no page serves (R14, R69, R70, R73, R79) -/

/-- A command whose effect is `u` ends with `u`'s events delivered. -/
theorem done_congr {t u : State} (h : t = u) : done t = .next (settle u) := h ▸ rfl

theorem wakeByHost_awake {s : State} {a : Acc} (h : pwrState s = 0 ∨ (a.master ≠ 0x10 ∧ vfOf a = 0)) : wakeByHost s a = s := by
  unfold wakeByHost
  rw [if_neg]
  rintro ⟨hs, hm⟩
  rcases h with h | ⟨hpf, hvf⟩
  · exact hs h
  · exact hm.elim hpf fun hv => hv hvf

/-- The watchdogs have one page each (R68). -/
theorem pageNo_watchdog {p i : Nat} {k : PageKind} (hk : k = .bwd ∨ k = .twd) (h : pageNo p = .page k i) : i = 0 := by
  revert h
  fun_cases pageNo p <;> intro h <;> cases h <;> simp at hk ⊢

theorem wdRefused_other {s : State} {k : PageKind} (a : Acc) (o : Nat) (w : Word) (hb : k ≠ .bwd) (ht : k ≠ .twd) :
    wdRefused s k a o w = s := by
  simp [wdRefused, hb, ht]

/-- A refused write leaves its record, in the state that the stores before it and the wake leave; the watchdogs' records of a write
without rights (R344, R349) are theirs only. -/
theorem busWrite_refused {s : State} {a : Acc} {off size : Nat} {w : Word} {inp : BusIn} {c : Cause} (hs : silent s a = false)
    (ho : off < 0x1000000) (hc : writeCause (wakeByHost (coreStores s inp) a) a off size = some c)
    (hr : c ≠ .rights ∨ (pageOf off ≠ .page .bwd 0 ∧ pageOf off ≠ .page .twd 0)) :
    busWrite a off size w inp s = busLog (wakeByHost (coreStores s inp) a) a true off size w c := by
  unfold busWrite
  rw [if_neg (not_or.mpr ⟨by simp only [hs, Bool.false_eq_true, not_false_eq_true], by omega⟩)]
  simp only [hc]
  split
  · next k i hp =>
    split
    · next h =>
      obtain ⟨hb, ht⟩ := hr.resolve_left (· h)
      have h0 (k' : PageKind) (hk : k' = .bwd ∨ k' = .twd) (hn : pageOf off ≠ .page k' 0) : k ≠ k' := by
        rintro rfl
        exact hn (pageNo_watchdog hk hp ▸ hp)
      exact wdRefused_other a _ w (h0 _ (.inl rfl) hb) (h0 _ (.inr rfl) ht)
    · rfl
  · rfl

/-- An access of another size or alignment than a naturally aligned word has a cause, and that is not its master's rights (R14, R79). -/
theorem writeCause_wrong (s : State) (a : Acc) {off size : Nat} (h : size ≠ 4 ∨ off % 4 ≠ 0) :
    ∃ c, writeCause s a off size = some c ∧ c ≠ .rights := by
  have hw : (decide (size ≠ 4) || decide (off % 4 ≠ 0)) = true := by simpa using h
  unfold writeCause
  simp only [hw, if_true]
  split
  · exact ⟨_, rfl, by decide⟩
  · exact ⟨_, rfl, by decide⟩
  · repeat' split
    all_goals exact ⟨_, rfl, by decide⟩

theorem readCause_wrong (s : State) (a : Acc) {off size : Nat} (h : size ≠ 4 ∨ off % 4 ≠ 0) :
    ∃ c, readCause s a off size = some c := by
  have hw : (decide (size ≠ 4) || decide (off % 4 ≠ 0)) = true := by simpa using h
  unfold readCause
  simp only [hw, if_true]
  split <;> exact ⟨_, rfl⟩

/-- A read that its page does not serve answers zero and leaves its record. -/
theorem busRead_refused {s : State} {a : Acc} {off size : Nat} (ecc : EccRes) {c : Cause} (hs : silent s a = false)
    (ho : off < 0x1000000) (hc : readCause (wakeByHost s a) a off size = some c) :
    busRead a off size ecc s = emit (busLog (wakeByHost s a) a false off size 0 c) (.bus a.master off 0) := by
  unfold busRead busReadWord
  rw [if_neg (not_or.mpr ⟨by simp only [hs, Bool.false_eq_true, not_false_eq_true], by omega⟩)]
  simp only [hc]

/-! ### The page header (R64 to R66) -/

/-- A served write of a header register: its record, and the header's own effect. -/
theorem busWrite_headerNoted {s : State} {a : Acc} {k : PageKind} {i o : Nat} {w : Word} (h : served s a k i o = true) (ho : o < 0x040)
    (ht : k ≠ .twd ∨ s.tbLoss = false) :
    busWrite a (reg k i o) 4 w {} s = headerWrite (noted s a k i o w) k i o w := by
  rw [busWrite_served (coreStores_none s {} rfl rfl) h (by omega) fun hk => ht.resolve_left (· hk)]
  simp only [writeOn, noted, if_pos ho]

/-- A header register none of whose bits is read-only leaves no record. -/
theorem noted_header {s : State} {a : Acc} {k : PageKind} {i o : Nat} {w : Word} (ho : o < 0x040) (hro : headerRo o = 0) :
    noted s a k i o w = s := by
  simp [noted, ignoredBits, if_pos ho, hro]

/-- The same at the page number of a page-header command. -/
theorem busWrite_pageHeader {s : State} {a : Acc} {k : PageKind} {i o page : Nat} {w : Word} (h : served s a k i o = true)
    (ho : o < 0x040) (ht : k ≠ .twd ∨ s.tbLoss = false) (hp : page * 4096 = reg k i 0) :
    busWrite a (page * 4096 + o) 4 w {} s = headerWrite (noted s a k i o w) k i o w := by
  rw [hp]
  exact busWrite_headerNoted h ho ht

/-! ### Registers that hold their word (R16) -/

theorem rowAt_mem {k : PageKind} {i o : Nat} {r : RegRow} (h : rowAt k i o = some r) : r ∈ pageRows k 0 ∧ r.has o = true := by
  refine ⟨?_, by simpa using List.find?_some h⟩
  have hm := List.mem_of_find?_eq_some h
  cases k with
  | lms | inst =>
    simp only [pageRows] at hm ⊢
    split at hm
    · exact hm
    · exact (List.mem_filter.mp hm).1
  | _ => exact hm

/-- The row takes writes, and none of its fields is written once only. -/
def plainRow (r : RegRow) : Bool := !(rowReadable r &&& ~~~ r.ro ||| r.wo == 0) && r.rwo == 0

theorem markOnce_plain {r : RegRow} (h : plainRow r = true) (off : Nat) (s : State) : markOnce r off s = s := by
  simp only [plainRow, Bool.and_eq_true, beq_iff_eq] at h
  simp [markOnce, h.2]

theorem holds_iff {k : PageKind} {o : Nat} :
    holds k o = true ↔ ∃ sp ∈ heldRegs, sp.page = k ∧ ∃ j < sp.n, o = sp.first + sp.stride * j := by
  simp [holds, RegSpan.has]

/-- The rows of the registers of `heldRegs` in the register tables, one by one. -/
theorem heldRegs_plain : ∀ sp ∈ heldRegs, ∀ j < sp.n, ∀ r ∈ pageRows sp.page 0, r.has (sp.first + sp.stride * j) = true →
    plainRow r = true := by decide +kernel

/-- The page offsets whose write does more at its page than store what the register takes. -/
def actsAt (k : PageKind) (o : Nat) : Bool :=
  match k with
  | .cap => decide (o = 0x084)
  | .rom => decide (o ∈ [0x044, 0x054, 0x058, 0x05C, 0x114, 0x128] ∨ (0x068 ≤ o ∧ o < 0x074))
  | .tb => decide (o = 0x050)
  | .pwr => decide (o ∈ [0x044, 0x04C])
  | .evh => decide (o = 0x040)
  | .bwd => decide (o ∈ [0x048, 0x04C, 0x050])
  | .tem => decide (o = 0x058 ∨ (0x060 ≤ o ∧ o < 0x0B0))
  | .fus => decide (o = 0x044)
  | .cst => decide ((0x400 ≤ o ∧ o < 0x800) ∨ (0x080 ≤ o ∧ o < 0x0C0 ∧ o % 16 = 0))
  | .svc => decide (o = 0x054)
  | .i3c => decide (o ∈ [0x04C, 0x050] ∨ (0x200 ≤ o ∧ o < 0x300))
  | .pci => decide (o = 0x05C)
  | .pair => decide (o ∈ [0x044, 0x058, 0x078, 0x130, 0x134, 0x140, 0x144, 0x14C, 0x150])
  | .lms => decide (o ∈ [0x044, 0x084, 0x09C] ∨ (0x0C0 ≤ o ∧ o < 0x140 ∧ o % 32 ∈ [0x08, 0x0C, 0x10]))
  | .cje => decide (o = 0x040 ∨ (0x080 ≤ o ∧ o < 0x100))
  | .vst => decide (o = 0x040)
  | .du => decide (0x100 ≤ o ∧ o < 0x200)
  | .lane => decide (o = 0x040)
  | .fgpCtl => decide (o ∈ [0x040, 0x044, 0x04C, 0x050, 0x054, 0x084, 0x08C, 0x090, 0x094, 0x09C])
  | .fgpWin => decide (o ∈ [0x044, 0x048] ∨ 0x100 ≤ o)
  | .fgpMb => decide (o = 0x04C)
  | .inst => decide (o < 0x080 ∨ o ∈ [0x084, 0x08C, 0x090, 0x094, 0x0A8, 0x0B0, 0x408, 0x420, 0x428] ∨ (0x800 ≤ o ∧ o < 0xC00))
  | .evhRoute | .twd | .doorbell => true
  | _ => false

/-- Every other write stores the word that the register takes, and that is all it does at its page. -/
theorem pageWrite_stores {k : PageKind} {c : WCtx} (h : actsAt k (c.off % 4096) = false) (inp : BusIn) (i : Nat) (s : State) :
    pageWrite inp k i s c = storeW s c := by
  cases k <;> simp only [actsAt, decide_eq_false_iff_not, List.mem_cons, List.not_mem_nil, or_false] at h
  case kv | kvSlot | atu | itu | vstBank | curve | aes => rfl
  case evhRoute | twd | doorbell => cases h
  case cap => exact if_neg fun he : c.off = _ => h (by rw [he]; rfl)
  case fus => exact if_neg fun he : c.off = _ => h (by rw [he]; rfl)
  all_goals
    simp only [pageWrite, bootWrite, tbWrite, pwrWrite, evhWrite, bwdWrite, temWrite, cstWrite, svcWrite, i3cWrite, pciWrite, pairWrite,
      lmsWrite, cjeWrite, vstWrite, duWrite, laneWrite, fgpCtlWrite, fgpWinWrite, fgpMbWrite, instWrite]
    grind

/-- No held register acts, and none stands in the page header. -/
theorem heldRegs_store : ∀ sp ∈ heldRegs, ∀ j < sp.n, actsAt sp.page (sp.first + sp.stride * j) = false ∧
    0x040 ≤ sp.first + sp.stride * j ∧ sp.first + sp.stride * j < 4096 := by decide +kernel

/-- The register of a page that serves a write there. -/
theorem rowAt_served {s : State} {a : Acc} {k : PageKind} {i o : Nat} (h : served s a k i o = true) (hlo : 0x040 ≤ o) (hhi : o < 4096) :
    ∃ r, rowAt k i o = some r := by
  obtain ⟨_, _, _, _, hp, hc⟩ := served_iff h
  have hal : reg k i o % 4 = 0 := Decidable.byContradiction fun hne => by
    obtain ⟨c, hw, _⟩ := writeCause_wrong s a (size := 4) (.inr hne)
    rw [hc] at hw
    cases hw
  have ho : o / 4 * 4 = o := by have := reg_mod k i hhi; omega
  have hn : ¬ o < 0x040 := by omega
  simp only [writeCause, hp, reg_mod k i hhi, ho, reservedOff, if_neg hn] at hc
  cases hr : rowAt k i o with
  | none =>
    simp only [hr, Option.isNone_none, if_true] at hc
    repeat' split at hc
    all_goals cases hc
  | some r => exact ⟨r, rfl⟩

/-- A served write of a register whose row is plain: its record, and the page's own effect. -/
theorem busWrite_plain {s : State} {a : Acc} {k : PageKind} {i o : Nat} {w : Word} {r : RegRow} (h : served s a k i o = true)
    (hr : rowAt k i o = some r) (hp : plainRow r = true) (hlo : 0x040 ≤ o) (hhi : o < 4096) (ht : k = .twd → s.tbLoss = false) :
    busWrite a (reg k i o) 4 w {} s =
      pageWrite {} k i (noted s a k i o w) ⟨a, reg k i o, w, shown s k i o, takenWord s k i o w, pageLocked s k i⟩ := by
  have hw : (rowReadable r &&& ~~~ r.ro ||| r.wo == 0) = false := by
    simp only [plainRow, Bool.and_eq_true, Bool.not_eq_true'] at hp
    exact hp.1
  rw [busWrite_noted (coreStores_none s {} rfl rfl) h hr hlo hhi hw ht, markOnce_plain hp]

/-- A served write of a held register stores the word its access codes give (R15, R16). -/
theorem busWrite_held {s : State} {a : Acc} {k : PageKind} {i o : Nat} (w : Word) (hh : holds k o = true) (h : served s a k i o = true) :
    busWrite a (reg k i o) 4 w {} s = rset (noted s a k i o w) (reg k i o) (takenWord s k i o w) := by
  obtain ⟨sp, hsp, rfl, j, hj, rfl⟩ := holds_iff.mp hh
  obtain ⟨hacts, hlo, hhi⟩ := heldRegs_store sp hsp j hj
  obtain ⟨r, hr⟩ := rowAt_served h hlo hhi
  obtain ⟨hmem, hhas⟩ := rowAt_mem hr
  have ht : sp.page = .twd → s.tbLoss = false := fun hk => by rw [hk] at hacts; cases hacts
  rw [busWrite_plain h hr (heldRegs_plain sp hsp j hj r hmem hhas) hlo hhi ht,
    pageWrite_stores (by rw [reg_mod _ _ hhi]; exact hacts)]
  rfl

/-! ### Routing entries and the log's own register (R79, R463, R471, R472) -/

/-- The entry of source `src`. -/
theorem rowAt_route (src : Nat) : ∃ r, rowAt .evhRoute (src / 192) (0x100 + 4 * (src % 192)) = some r ∧ plainRow r = true := by
  refine ⟨_, List.find?_cons_of_pos ?_, by decide⟩
  simp only [RegRow.has, Bool.and_eq_true, decide_eq_true_eq, Nat.max_self]
  omega

/-- The CORE field of a word that has none set. -/
theorem and_coreMask {v : Word} (h : v &&& 0x7F00 = 0) : v &&& 0xFFFF80FF = v :=
  calc v &&& 0xFFFF80FF = v &&& 0xFFFF80FF ||| v &&& 0x7F00 := by rw [h]; exact BitVec.or_zero.symm
    _ = v &&& BitVec.allOnes 32 := (BitVec.and_or_distrib_left ..).symm
    _ = v := BitVec.and_allOnes

/-- A write of an unlocked entry of a present source stores what the entry takes, where it leaves a VF's source no CORE field. -/
theorem routeWrite_entry {s : State} {c : WCtx} {t src : Nat} (hsrc : 192 * t + (c.off % 4096 - 0x100) / 4 = src)
    (hl : c.locked = false) (hp : sourceAbsent s.part src = false) (hv : vfSource src = true → c.new &&& 0x7F00 = 0) :
    routeWrite t s c = rset s c.off c.new := by
  simp only [routeWrite, hsrc, hl, hp, Bool.false_eq_true, if_false]
  split
  · next h => rw [if_pos (hv h), storeW, and_coreMask (hv h)]
  · rfl

/-- A taken write of the entry of a present source on an unlocked page. -/
theorem busWrite_routeEntry {s : State} {a : Acc} {src : Nat} {w : Word}
    (h : takes s a .evhRoute (src / 192) (0x100 + 4 * (src % 192)) w = true) (hp : sourceAbsent s.part src = false)
    (hl : pageLocked s .evhRoute (src / 192) = false)
    (hv : vfSource src = true → takenWord s .evhRoute (src / 192) (0x100 + 4 * (src % 192)) w &&& 0x7F00 = 0) :
    busWrite a (reg .evhRoute (src / 192) (0x100 + 4 * (src % 192))) 4 w {} s =
      rset s (reg .evhRoute (src / 192) (0x100 + 4 * (src % 192))) (takenWord s .evhRoute (src / 192) (0x100 + 4 * (src % 192)) w) := by
  obtain ⟨r, hr, hplain⟩ := rowAt_route src
  have ho : 0x100 + 4 * (src % 192) < 4096 := by omega
  have hsrc : 192 * (src / 192) + (reg .evhRoute (src / 192) (0x100 + 4 * (src % 192)) % 4096 - 0x100) / 4 = src := by
    rw [reg_mod _ _ ho]
    omega
  rw [busWrite_plain (served_of_takes h) hr hplain (by omega) ho (by simp), noted_takes h]
  exact routeWrite_entry hsrc hl hp hv

/-- BOOT_BERR_CTRL empties the log (R79). -/
theorem busWrite_berrClear {s : State} {a : Acc} (h : served s a .cap 0 0x084 = true) :
    busWrite a (reg .cap 0 0x084) 4 1 {} s = rset (noted s a .cap 0 0x084 1) (reg .cap 0 0x080) 0 := by
  have hr : rowAt .cap 0 0x084 = some { name := "BOOT_BERR_CTRL", base := 0x084, stride := 0, count := 1, wo := 0x00000001 } := by decide
  rw [busWrite_plain h hr (by decide) (by decide) (by decide) (by simp)]
  simp [pageWrite, capWrite, bit]

/-! ### The machine right after reset (R17, R40, R254, R306, R318, R378, R478) -/

theorem reset_countersWf : countersWf State.reset := ⟨List.nodup_nil, fun _ ht => nomatch ht⟩

/-- The array of a new device holds the same at READ and at STRICT. -/
theorem reset_fuses (w : Nat) : fuseStrict State.reset w &&& ~~~ fuseRead State.reset w = 0 := by
  have h : fuseStrict State.reset w = fuseRead State.reset w := rfl
  rw [h, BitVec.and_not_self]

end Sys2Proof.Machine

open Sys2Proof Sys2Proof.Machine

/-- Settles O2, by one lemma for each kind of write and one for each part of a record. -/
theorem registerWriteRights : Obligations.RegisterWriteRights := by
  refine ⟨fun s a k i o w hh h => done_congr (busWrite_held w hh h), ?_, ?_, ?_, ?_, fun s a h => done_congr (busWrite_berrClear h), ?_⟩
  · intro s a off size w c hs hm ho hc hr
    have ht : wakeByHost (coreStores s {}) a = s := by rw [coreStores_none s {} rfl rfl, wakeByHost_awake hm]
    exact done_congr ((busWrite_refused hs ho (ht.symm ▸ hc) hr).trans (by rw [ht]))
  · exact fun s a off size w inp h => done_congr (if_pos h)
  · intro s a src w hsrc h hp hl
    have hv : vfSource src = false := by simp [vfSource]; omega
    exact done_congr (busWrite_routeEntry h hp hl (by simp [hv]))
  · intro s a src w _ _ h hp hl hcore
    rw [and_coreMask hcore]
    exact done_congr (busWrite_routeEntry h hp hl fun _ => hcore)
  · intro s a write off size e n w c hup he hn
    obtain ⟨haddr, hattr, hdata, htime⟩ := busLog_record hup a write off size w c he
    obtain ⟨hheld, hnext, hmade⟩ := busLog_counts hup a write off size w c
    obtain ⟨hirq, hover⟩ := busLog_irq hup a write off size w c
    rw [berrWord_eq] at haddr hattr hdata htime
    subst he hn
    exact ⟨haddr, hattr, hdata, htime, hheld, hnext, hmade, hirq, hover, (busLog_onlyRegs s a write off size w c).eq⟩

/-- Settles O3, through the effect of a served header write. -/
theorem pageHeaderCommands : Obligations.PageHeaderCommands := by
  refine ⟨fun s a k i page w h ht hp => done_congr ?_, fun s a k i page w h ht hp => done_congr ?_, fun s a k i w h ht => done_congr ?_,
    fun s a k i page h ht hp => done_congr ?_, fun s a k i page w h ht hp => done_congr ?_⟩
  · rw [busWrite_pageHeader h (by decide) ht hp, noted_header (by decide) rfl]
    rfl
  · rw [busWrite_pageHeader h (by decide) ht hp, noted_header (by decide) rfl]
    rfl
  · rw [busWrite_headerNoted h (by decide) ht, noted_header (by decide) rfl]
    rfl
  · rw [busWrite_pageHeader h (by decide) ht hp, noted_header (by decide) rfl]
    rfl
  · have hb : bit (w ||| 0x80000000) 31 = true := by simp [bit]
    rw [busWrite_pageHeader h (by decide) ht hp]
    exact if_pos hb

/-- Settles O54: such an access has a cause that is not its master's rights. -/
theorem wrongSizedAccesses : Obligations.WrongSizedAccesses := by
  refine ⟨?_, ?_⟩
  · rintro s _ a off size d inp hs ho hw rfl
    obtain ⟨c, hc, hne⟩ := writeCause_wrong (wakeByHost (coreStores s inp) a) a hw
    exact ⟨c, hc, done_congr (busWrite_refused hs ho hc (.inl hne))⟩
  · rintro s _ a off size hs ho hw rfl
    obtain ⟨c, hc⟩ := readCause_wrong (wakeByHost s a) a hw
    exact ⟨c, hc, busRead_refused .clean hs ho hc⟩

/-- Settles O60, by evaluating the state after reset. -/
theorem resetMeetsTheInvariants : Obligations.ResetMeetsTheInvariants := by
  intro n i k w c
  exact ⟨by decide, reset_countersWf, rfl, rfl, reset_fuses w, rfl, rfl, rfl, rfl, rfl, by decide, by decide, rfl, rfl, rfl⟩

end

section
/-! PROOFS. Proofs: what POR, DEVICE and PORT resets leave, and the triggers of them (R251 to R254, R274, R475). -/
namespace Sys2Proof.Machine

/-! ### Tables without an entry -/

/-- A key that the table does not list reads its default. -/
theorem get_unlisted {α : Type} (d : Nat → α) {t : Tbl α} {k : Nat} (h : ∀ e ∈ t, e.1 ≠ k) : Tbl.get d t k = d k := by
  induction t with
  | nil => rfl
  | cons e t ih =>
    simp only [Tbl.get, if_neg (h e List.mem_cons_self).symm]
    exact ih fun x hx => h x (List.mem_cons_of_mem _ hx)

/-! ### What a reset that covers the device keeps (R67, R254) -/

/-- The operations that POR cuts short leave the part. -/
theorem cstCut_fusAbandon_part (s : State) (tear : Nat) (r t : Word) : (fusAbandon (cstCut s tear) r t).part = s.part :=
  (fusAbandon_keeps _ _ _ (cstCut_keeps s tear (Keeps.refl s))).part

/-- The operations that a DEVICE reset finishes leave the part. -/
theorem fusAbandon_cstFinish_part (s : State) (r t : Word) (keep : CstReq → Bool) :
    (cstFinish (fusAbandon s r t) keep).part = s.part :=
  (cstFinish_keeps _ _ (fusAbandon_keeps _ _ _ (Keeps.refl s))).part

/-- Every register outside the timebase page, page 2, is at its reset value. -/
theorem rget_afterDevice (s : State) (ph : RstPhase) {off : Nat} (h : off / 4096 ≠ 2) : rget (afterDevice s ph) off = resetValue off :=
  get_unlisted _ fun e he heq => h (heq ▸ by simpa using (List.mem_filter.mp he).2)

/-- What holds once a DEVICE reset has begun (R253 steps 1 to 4). -/
theorem deviceBegins_frame (s : State) (cause : Nat) (inp : RstIn) :
    (deviceBegins s cause inp).rst = .device ∧ rget (deviceBegins s cause inp) (romReg 0x040) = mk 3 0 cause ∧
    (∀ off, off / 4096 ≠ 2 → off ≠ romReg 0x040 → rget (deviceBegins s cause inp) off = resetValue off) ∧
    (deviceBegins s cause inp).frames = [] ∧ (deviceBegins s cause inp).sram = [] ∧ (deviceBegins s cause inp).part = s.part := by
  have hpart := fusAbandon_cstFinish_part s inp.pulseR inp.pulseS fun _ => false
  unfold deviceBegins
  extract_lets a window b c
  have hc : c.rst = .device ∧ c.regs = b.regs ∧ c.frames = [] ∧ c.sram = [] ∧ c.part = s.part := by
    unfold c
    split
    · exact ⟨rfl, rfl, rfl, rfl, hpart⟩
    · exact ⟨rfl, rfl, rfl, rfl, hpart⟩
  obtain ⟨hrst, hregs, hframes, hsram, hcpart⟩ := hc
  refine ⟨hrst, rget_rset_same _ _ _, fun off htb hne => ?_, hframes, hsram, hcpart⟩
  rw [rget_rset_other _ _ hne, rget, hregs]
  exact rget_afterDevice a .device htb

/-- BOOT_RST_CAUSE after POR and after DEV_RST_N. -/
theorem mk_cause_por : mk 3 0 1 = 1 := by decide
theorem mk_cause_pin : mk 3 0 2 = 2 := by decide

/-! ### The triggers (R251, R252, R274) -/

/-- The row of BOOT_RST_REQ. -/
theorem rowAt_rstReq : rowAt .rom 0 0x044 = some { name := "BOOT_RST_REQ", base := 0x044, stride := 0, count := 1, wo := 0xFFFF0F0F } := by
  decide

/-- A taken write of BOOT_RST_REQ is a request. -/
theorem busWrite_rstReq {s : State} {a : Acc} {w : Word} (inp : RstIn) (h : takes s a .rom 0 0x044 w = true) :
    busWrite a (romReg 0x044) 4 w { rst := inp } s =
      rstReqWrite s ⟨a, romReg 0x044, w, shown s .rom 0 0x044, takenWord s .rom 0 0x044 w, pageLocked s .rom 0⟩ inp := by
  rw [romReg, busWrite_takes (coreStores_none s _ rfl rfl) h rowAt_rstReq (by decide) (by decide) (by decide) (by simp),
    markOnce_plain (by decide)]
  simp only [pageWrite, bootWrite, reg_mod .rom 0 (show 0x044 < 4096 by decide), if_true]

section
variable {s : State} {a : Acc} {w : Word} (inp : RstIn) (h : takes s a .rom 0 0x044 w = true)
include h

/-- A keyed request of kind DEVICE. -/
theorem busWrite_rstReq_device (hkey : fld w 31 16 = 0xA5C3) (hkind : fld w 3 0 = 1) :
    busWrite a (romReg 0x044) 4 w { rst := inp } s = deviceReset s 3 inp := by
  rw [busWrite_rstReq inp h]
  simp only [rstReqWrite, hkey, hkind, ne_eq, not_true_eq_false, if_false]

/-- A keyed request of kind PORT for a port that the part has. -/
theorem busWrite_rstReq_port (hkey : fld w 31 16 = 0xA5C3) (hkind : fld w 3 0 = 3) (hn : fld w 11 8 < s.part.ports) :
    busWrite a (romReg 0x044) 4 w { rst := inp } s = portReset' s (fld w 11 8) := by
  rw [busWrite_rstReq inp h]
  simp only [rstReqWrite, hkey, hkind, hn, ne_eq, not_true_eq_false, if_false, if_true]

/-- A request without its key. -/
theorem busWrite_rstReq_unkeyed (hkey : fld w 31 16 ≠ 0xA5C3) :
    busWrite a (romReg 0x044) 4 w { rst := inp } s = bootErr s 0x0101 0x044 := by
  rw [busWrite_rstReq inp h]
  exact if_pos hkey

end

/-- The kind that a request's command writes, and the fields beside it. -/
theorem fld_withKind (d : Word) (kind : Nat) : fld (withField d 3 0 kind) 3 0 = kind % 16 := fld_setFld_same d kind (by decide)
theorem fld_withKind_other (d : Word) (kind : Nat) {hi lo : Nat} (hhi : hi < 32) (hlo : 3 < lo) :
    fld (withField d 3 0 kind) hi lo = fld d hi lo := fld_setFld_other d kind hhi (.inr hlo)

/-- A DEVICE reset that finds no reset held: absorbed in a hardware phase of its rank or a higher one. -/
theorem deviceReset_unheld {s : State} (cause : Nat) (inp : RstIn) (h : s.rst = .none) :
    deviceReset s cause inp = if higherPhase s then s else deviceEnds (deviceBegins s cause inp) false inp.straps := by
  simp [deviceReset, h]

theorem rst_of_takes {s : State} {a : Acc} {k : PageKind} {i o : Nat} {w : Word} (h : takes s a k i o w = true) : s.rst = .none :=
  (served_iff (served_of_takes h)).1

end Sys2Proof.Machine

open Sys2Proof Sys2Proof.Machine

/-- Settles O21, by what a DEVICE reset leaves and one lemma for each kind of request. -/
theorem chipResets : Obligations.ChipResets := by
  refine ⟨?supplyFall, ?porEnd, ?porEndGiven, ?assert, ?release, ?rstReqDevice, ?absorbed, ?rstReqPort, ?unkeyed⟩
  case supplyFall =>
    intro s rail tear r t hs hrail
    have hn : ¬ (s.rst = .por ∨ rail > 8) := by simp [hs, hrail]
    exact ⟨_, done_congr (if_neg hn), rfl, rfl, fun _ => rfl, rfl, rfl, rfl, rfl, rfl, rfl, rfl, cstCut_fusAbandon_part s tear r t⟩
  case porEnd => exact fun s x pins hs => done_congr (if_neg (not_not_intro hs) |>.trans (by rw [mk_cause_por]; rfl))
  case porEndGiven => exact fun s x pins a i c l hs => done_congr (if_neg (not_not_intro hs) |>.trans (by rw [mk_cause_por]; rfl))
  case assert =>
    intro s inp hs hph
    have hn : ¬ (s.rst ≠ .none ∨ higherPhase s = true) := by simp [hs, hph]
    obtain ⟨hrst, hcause, hregs, hframes, hsram, hpart⟩ := deviceBegins_frame s 2 inp
    exact ⟨_, done_congr (if_neg hn), hrst, hcause.trans mk_cause_pin, hregs, hframes, hsram, hpart, rfl, rfl, rfl⟩
  case release =>
    rintro s _ inp hs rfl
    exact ⟨done_congr (if_neg (not_not_intro hs)), rfl, rfl, rfl, rfl, rfl, rfl⟩
  case rstReqDevice =>
    intro s a d inp h hkey
    rw [← fld_withKind_other d 1 (by decide) (by decide)] at hkey
    exact done_congr ((busWrite_rstReq_device inp h hkey (fld_withKind d 1)).trans (deviceReset_unheld 3 inp (rst_of_takes h)))
  case absorbed => exact fun s inp h => done_congr (if_pos h)
  case rstReqPort =>
    rintro s a d inp n h hkey hn hports
    rw [← fld_withKind_other d 3 (by decide) (by decide)] at hkey hn
    subst hn
    exact done_congr (busWrite_rstReq_port inp h hkey (fld_withKind d 3) hports)
  case unkeyed =>
    intro s a d inp h hkey
    rw [← fld_withKind_other d 1 (by decide) (by decide)] at hkey
    exact done_congr (busWrite_rstReq_unkeyed inp h hkey)

end

section
/-! PROOFS. Proofs: the own accesses of a port, and what the reads and checks of verified blocks leave (R28, R29, R144 to R161). -/
namespace Sys2Proof.Machine

/-! ### What own accesses leave of a port (R29) -/

@[simp] theorem port_modPort_same (s : State) (n : Nat) (f : Port → Port) : port (modPort s n f) n = f (port s n) :=
  port_setPort_same s n _

@[simp] theorem port_ownRead (s : State) (n cs addr len m : Nat) : port (ownRead s n cs addr len) m = port s m := by
  unfold ownRead flashOut
  extract_lets
  split <;> rfl

@[simp] theorem port_driveFrom (s : State) (n got m : Nat) (l : List (Nat × Nat × Nat)) : port (driveFrom s n got l) m = port s m := by
  induction l generalizing s got with
  | nil => rfl
  | cons r l ih => rw [driveFrom, ih, port_ownRead]

@[simp] theorem port_flashHash (s : State) (k m : Nat) : port (flashHash s k) m = port s m := by
  unfold flashHash
  split
  · split <;> rfl
  · rfl

/-- Own accesses that are made change how far their purpose has come, and nothing else of the port. -/
theorem port_ownWhole (s : State) (n : Nat) (k : Own) : ∃ o, port (ownWhole s n k) n = { port s n with own := o } := by
  dsimp only [ownWhole, ownTo]
  split
  · exact ⟨_, rfl⟩
  · rw [ownPut, port_modPort_same, port_driveFrom]
    exact ⟨_, rfl⟩

theorem seq_ownWhole (s : State) (n : Nat) (k : Own) : (port (ownWhole s n k) n).seq = (port s n).seq := by
  obtain ⟨o, ho⟩ := port_ownWhole s n k
  rw [ho]

/-- A port that fills a block has that block to read. -/
theorem ownReads_fill {s : State} {n w b : Nat} {again : Bool} (h : (port s n).seq = .fill w b again) : ownReads s n .fill ≠ [] := by
  simp [ownReads, h]

/-! ### Leaf fetches (R144) -/

/-- A leaf fetch whose node read is clean: the head request is taken off, and the pair read enters the cache where the level-1 node over
it is the pinned one. -/
theorem leafFetched_clean {t : State} {n : Nat} {data : Bytes} {r : LeafReq} {rest : List LeafReq} {c : TreeCtx}
    (hr : (port t n).leafReqs = r :: rest) (hc : treeOf (port t n) r.image = some c) :
    leafFetched t n data .clean =
      let u := ownClear (modPort t n fun p => { p with leafReqs := rest }) n .leaf
      let x := pairNode c r.leaf data
      if (frame t (c.first + r.leaf / 2 / 64)).st ≠ .valid then failedCheck u n 0x0E24 r.image r.win r.leaf r.fa (zeros 64)
      else if x.2 = pinnedNode t c r.leaf then modPort u n fun p => cachePut p x.1
      else failedCheck u n 0x0E25 r.image r.win r.leaf r.fa x.2 := by
  simp only [leafFetched, hr, hc, ne_eq, ite_not]
  rfl

/-- LEAF_FETCH_DONE where a fetch is due to end. -/
theorem leafFetchDone_due {s : State} {n : Nat} (data : Bytes) (e : EccRes) (hr : ownReads s n .leaf ≠ [])
    (he : ownEnds s n (if (port s n).st = .recovering then 1 else 0) .leaf = true) :
    exec (.leafFetchDone n data e) s = done (leafFetched (flashHash (ownWhole s n .leaf) 2) n data e) :=
  congrArg done (if_neg (by simp [hr, he]))

/-! ### Residency fill (R146) -/

/-- FILL_BLOCK_DONE where a block is due to end. -/
theorem fillBlockDone_due {s : State} {n : Nat} (data : Bytes) (hr : ownReads s n .fill ≠ []) (he : ownEnds s n 0 .fill = true) :
    exec (.fillBlockDone n data) s = done (fillBlock (flashHash (ownWhole s n .fill) 33) n data) :=
  congrArg done (if_neg (by simp [hr, he]))

section
variable {s t : State} {n w b : Nat} {again : Bool} {d : WinDesc}

/-- A port that fills once the accesses are made had the block to read. -/
theorem ownReads_fill_made (ht : t = flashHash (ownWhole s n .fill) 33) (hs : (port t n).seq = .fill w b again) :
    ownReads s n .fill ≠ [] := by
  rw [ht, port_flashHash, seq_ownWhole] at hs
  exact ownReads_fill hs

/-- A fill block whose leaf is in the cache: VALID where its digest is the leaf, else read once more, and a failed check the second
time. -/
theorem fillBlock_cached {leaf : Bytes} (data : Bytes) (hs : (port t n).seq = .fill w b again) (hd : (wins t n)[w]? = some d)
    (hl : cachedLeaf (port t n) (fillReq t n w b d).image (fillReq t n w b d).leaf = some leaf) :
    fillBlock t n data =
      let u := ownClear t n .fill
      let x := sliceZ data 0 4096
      if sha512 x = leaf then fillFrom (blockFilled u n w b d x) n w (b + 1)
      else if again then failedCheck u n 0x0E23 (fillReq t n w b d).image w (fillReq t n w b d).leaf (fillReq t n w b d).fa (sha512 x)
      else modPort (rcount u (reg .du 0 (0x108 + 16 * n)) 31 24 1) n fun p => { p with seq := .fill w b true } := by
  simp only [fillBlock, hs, hd, hl]
  rfl

/-- One whose leaf has left the cache asks for it again. -/
theorem fillBlock_uncached (data : Bytes) (hs : (port t n).seq = .fill w b again) (hd : (wins t n)[w]? = some d)
    (hl : cachedLeaf (port t n) (fillReq t n w b d).image (fillReq t n w b d).leaf = none) :
    fillBlock t n data = askLeaf t n (fillReq t n w b d) := by
  simp only [fillBlock, hs, hd, hl]

end

/-! ### Refill (R147) -/

/-- REFILL_DONE where a read is due to end. -/
theorem refillDone_due {s : State} {n : Nat} (data : Bytes) (hr : ownReads s n .refill ≠ []) (he : ownEnds s n 0 .refill = true) :
    exec (.refillDone n data) s = done (refillRead (flashHash (ownWhole s n .refill) 33) n data) :=
  congrArg done (if_neg (by simp [hr, he]))

/-- A refilled frame whose leaf is in the cache: VALID where its digest is the leaf, else read once more, and a failed check the second
time. -/
theorem refillRead_cached {t : State} {n f : Nat} {rest : List Nat} {leaf : Bytes} (data : Bytes) (hr : (port t n).refills = f :: rest)
    (hst : (port t n).st.refills = true) (hfill : (port t n).filling = false)
    (hl : cachedLeaf (port t n) (frame t f).image (frame t f).leaf = some leaf) :
    refillRead t n data =
      let u := ownClear t n .refill
      let x := sliceZ data 0 4096
      let fr := frame t f
      if sha512 x = leaf then
        modPort (setFrame u f { fr with st := .valid, data := x }) n fun p => { p with refills := rest, refillAgain := false }
      else if (port t n).refillAgain then failedCheck u n 0x0E23 fr.image fr.win fr.leaf (frameFa t n f) (sha512 x)
      else modPort (setFrame (rcount u (reg .du 0 (0x108 + 16 * n)) 31 24 1) f { fr with st := .filling }) n fun p =>
        { p with refillAgain := true } := by
  have hn : ¬ ((!(port t n).st.refills) = true ∨ (port t n).filling = true) := by simp [hst, hfill]
  simp only [refillRead, hr, if_neg hn, hl]

/-! ### Hashing and the checks of open blocks (R154, R156, R161) -/

/-- HASH_SEGMENT in the port's turn on a lane that takes the work, where the hash pointer moves. -/
theorem hashSegment_moves {s : State} {n fa lane p : Nat} {b : OpenBlk} (hturn : hashNext s = some n) (hlane : lane < s.part.lanes)
    (htakes : laneTakes s lane = true) (hb : openAt (port s n) fa = some b)
    (hp : p = segmentEnd b (if (List.range 16).any (fun m => decide (m ≠ n) && chunkReady s m) then 1 else 32) b.ptr) (hne : p ≠ b.ptr) :
    exec (.hashSegment n fa lane) s = done (modPort
      (flashOn { s with hashTurn := n } lane ((p - b.ptr) / 128 + (if p = 4096 then 1 else 0))) n fun q =>
        putBlock q { b with ptr := p }) := by
  have hn : ¬ (hashNext s ≠ some n ∨ s.part.lanes ≤ lane ∨ (!laneTakes s lane) = true) := by simp [hturn, htakes, hlane]
  refine congrArg done ((if_neg hn).trans ?_)
  subst hp
  simp only [hb, if_neg hne]

/-- The check of a whole block whose hash has come so far and whose leaf is in the cache. -/
theorem checkBlock_whole {s : State} {n fa : Nat} {b : OpenBlk} {leaf : Bytes} (hb : openAt (port s n) fa = some b)
    (hw : b.has 0 4096 = true) (hp : 3968 ≤ b.ptr) (hl : cachedLeaf (port s n) b.image b.leaf = some leaf) :
    checkBlock s n fa =
      if sha512 b.bytes = leaf then rcount (closeBlock s n b.fa) (reg .fgpMb n 0x304) 31 0 1
      else failedCheck s n 0x0E20 b.image b.win b.leaf b.fa (sha512 b.bytes) := by
  have hn : ¬ ((!b.has 0 4096) = true ∨ b.ptr < 3968) := by simp [hw, hp]
  simp only [checkBlock, hb, if_neg hn, hl]

/-- The end of a duration leaves the ports. -/
@[simp] theorem port_expired (s : State) (t : Timer) (m : Nat) : port (expired s t) m = port s m := by
  unfold expired elapse
  split <;> rfl

/-- DEFERRAL_EXPIRY of an open block. -/
theorem deferralExpiry_open {s : State} {n fa : Nat} {b : OpenBlk} (hon : portOn s n = true) (hb : openAt (port s n) fa = some b)
    (hrun : running s (.defer n (fa / 4096 * 4096)) = true) :
    exec (.deferralExpiry n fa) s = done (failedCheck (expired s (.defer n (fa / 4096 * 4096))) n 0x0E22 b.image b.win b.leaf b.fa
      (zeros 64)) := by
  refine congrArg done ((if_neg (by simp [hon])).trans ((fire_running hrun).trans ?_))
  simp only [port_expired, hb]

/-- A flash side that is free carries no forwarded command and no reset (R29, R98). -/
theorem quiet_of_free {s : State} {n : Nat} (h : flashFree s n = true) : flashQuiet s n = true := by
  rw [flashFree, Bool.and_eq_true] at h
  exact h.1

/-! ### Issue (R28, R29) -/

/-- An access that the port may make is driven from the byte after the last one received, and as many bytes recorded as came. -/
theorem ownIssue_next {s : State} {n i got cs a l : Nat} {k : Own} (data : Bytes) (hat : ownAt (port s n) k = (i, got))
    (hr : (ownReads s n k)[i]? = some (cs, a, l)) (hside : ownSide s n cs = true) {m : Nat} (hm : m = min l (got + data.length))
    {u : State} (hu : u = ownPut (ownRead s n cs (a + got) (l - got)) n k (if m = l then (i + 1, 0) else (i, m))) :
    ownIssue s n k data =
      if k = .refill then setFrame u ((port s n).refills.headD 0) { frame u ((port s n).refills.headD 0) with st := .filling }
      else if k = .warm ∧ m = l then ownClear (modPort u n fun p => { p with warm := p.warm.drop 1 }) n .warm
      else u := by
  have hport : (port u n).refills = (port s n).refills := by rw [hu, ownPut, port_modPort_same, port_ownRead]
  subst hm hu
  simp only [ownIssue, hat, hr, hside, Bool.not_true, Bool.false_eq_true, if_false]
  cases k with
  | refill =>
    simp only [hport, if_true]
    cases hf : (port s n).refills with
    | nil => simp [ownReads, hf] at hr
    | cons f rest => rfl
  | warm => simp only [reduceCtorEq, if_false, true_and]
  | leaf | tree | fill | verify | copy => simp only [reduceCtorEq, if_false, false_and]

section
variable {s : State} {n : Nat} {k : Own} (hk : Own.all.find? (ownPending s n) = some k)
include hk

/-- No leaf fetch waits where another purpose is the first in the order of R29. -/
theorem leaf_notPending (hl : k ≠ .leaf) : ownPending s n .leaf = false := by
  refine Bool.eq_false_iff.mpr fun hp => ?_
  rw [Own.all, List.find?_cons_of_pos hp] at hk
  exact hl (Option.some.inj hk).symm

/-- No tree load waits where a purpose after it is the first. -/
theorem tree_notPending (hl : k ≠ .leaf) (ht : k ≠ .tree) : ownPending s n .tree = false := by
  have hleaf := leaf_notPending hk hl
  refine Bool.eq_false_iff.mpr fun hp => ?_
  rw [Own.all, List.find?_cons_of_neg (Bool.eq_false_iff.mp hleaf), List.find?_cons_of_pos hp] at hk
  exact ht (Option.some.inj hk).symm

end

/-- The guard of OWN_ACCESS_ISSUE lets a port through that may drive its flash side. -/
theorem mayIssue {s : State} {n : Nat} (hquiet : flashQuiet s n = true) (hdrive : driving s = true) :
    ¬ ((!flashQuiet s n) = true ∨ (!driving s) = true) := by simp [hquiet, hdrive]

/-- The first access that waits is made, where block completion does not come before it. -/
theorem ownAccessIssue_first {s : State} {n : Nat} {k : Own} (data : Bytes) (hquiet : flashQuiet s n = true) (hdrive : driving s = true)
    (hk : Own.all.find? (ownPending s n) = some k) (hcomp : k = .leaf ∨ k = .tree ∨ completing (port s n) = none) (hne : k ≠ .copy) :
    exec (.ownAccessIssue n data) s = done (ownIssue s n k data) := by
  have hwaits : ownPending s n k = true := List.find?_some hk
  refine congrArg done ((if_neg (mayIssue hquiet hdrive)).trans ?_)
  by_cases hl : k = .leaf
  · subst hl
    rw [if_pos hwaits]
  by_cases ht : k = .tree
  · subst ht
    rw [if_neg (by simp [leaf_notPending hk hl]), if_pos hwaits]
  have hnone : completing (port s n) = none := (hcomp.resolve_left hl).resolve_left ht
  rw [if_neg (by simp [leaf_notPending hk hl]), if_neg (by simp [tree_notPending hk hl ht])]
  simp only [hnone, hk]

/-- Block completion takes the bytes it returns into the tap. -/
theorem ownAccessIssue_completion {s : State} {n : Nat} {b : OpenBlk} (data : Bytes) (hfree : flashFree s n = true)
    (hdrive : driving s = true) (hleaf : ownPending s n .leaf = false) (htree : ownPending s n .tree = false)
    (hb : completing (port s n) = some b) :
    exec (.ownAccessIssue n data) s =
      done (completeWith (ownRead s n 0 (b.fa + b.comp.getD b.ptr) (4096 - b.comp.getD b.ptr)) n b data) := by
  refine congrArg done ((if_neg (mayIssue (quiet_of_free hfree) hdrive)).trans ?_)
  simp only [hleaf, htree, hb, hfree, Bool.false_eq_true, if_false, if_true]

/-- The recovery copy erases its unit before its first read. -/
theorem ownAccessIssue_copy {s : State} {n : Nat} {g : Golden} (data : Bytes) (hfree : flashFree s n = true) (hdrive : driving s = true)
    (hk : Own.all.find? (ownPending s n) = some .copy) (hcomp : completing (port s n) = none) (hg : (port s n).golden = some g) :
    exec (.ownAccessIssue n data) s = done (ownIssue (eraseUnit s n g) n .copy data) := by
  have hleaf := leaf_notPending hk (by decide)
  have htree := tree_notPending hk (by decide) (by decide)
  refine congrArg done ((if_neg (mayIssue (quiet_of_free hfree) hdrive)).trans ?_)
  simp only [hleaf, htree, hcomp, hk, hg, hfree, Bool.false_eq_true, if_false, if_true]

end Sys2Proof.Machine

open Sys2Proof Sys2Proof.Machine

/-- Settles O12, by what each read, check and access does once it is due. -/
theorem verifiedStoreEvents : Obligations.VerifiedStoreEvents := by
  refine ⟨?leafPinned, ?leafNotPinned, ?fillCached, ?fillUncached, ?refill, ?hash, ?check, ?deferral, ?access, ?completion, ?copy⟩
  case leafPinned =>
    rintro s _ n _ data r rest c hreads rfl hends rfl hr hc hf
    rw [leafFetchDone_due data .clean hreads hends, leafFetched_clean hr hc]
    exact done_congr (if_neg (not_not_intro hf))
  case leafNotPinned =>
    rintro s _ n _ data _ r rest c hreads rfl hends rfl hr hc hf rfl
    rw [leafFetchDone_due data .clean hreads hends, leafFetched_clean hr hc]
    exact done_congr (if_pos hf)
  case fillCached =>
    rintro s t n w b again data leaf _ d _ hends ht hs hd rfl hl rfl
    rw [fillBlockDone_due data (ownReads_fill_made ht hs) hends, ← ht]
    exact done_congr (fillBlock_cached data hs hd hl)
  case fillUncached =>
    intro s t n w b again data d hends ht hs hd hl
    rw [fillBlockDone_due data (ownReads_fill_made ht hs) hends, ← ht]
    exact done_congr (fillBlock_uncached data hs hd hl)
  case refill =>
    rintro s _ n f rest data leaf _ _ hreads hends rfl hr hst hfill rfl hl rfl
    rw [refillDone_due data hreads hends]
    exact done_congr (refillRead_cached data hr hst hfill hl)
  case hash => exact fun s n fa lane p b hturn hlane htakes hb hp hne => hashSegment_moves hturn hlane htakes hb hp hne
  case check => exact fun s n fa b leaf hon hb hw hp hl => done_congr ((if_pos hon).trans (checkBlock_whole hb hw hp hl))
  case deferral => exact fun s n fa b hon hb hrun => deferralExpiry_open hon hb hrun
  case access =>
    intro s u n i got cs a l m data k f hquiet hdrive hk hcomp hne hat hr hside hm hu hf
    rw [ownAccessIssue_first data hquiet hdrive hk hcomp hne, ownIssue_next data hat hr hside hm hu, ← hf]
    rfl
  case completion =>
    rintro s n _ data b hfree hdrive hleaf htree hb rfl
    exact ownAccessIssue_completion data hfree hdrive hleaf htree hb
  case copy =>
    rintro s _ v n i got cs a l m data g hfree hdrive hk hcomp hg rfl hat hr hside hm hv
    rw [ownAccessIssue_copy data hfree hdrive hk hcomp hg, ownIssue_next data hat hr hside hm hv]
    rfl

end

section
/-! PROOFS. Proofs: the MANIFEST_CHECK jobs of the three modes (R173, R174, R184, R188, R199). -/
namespace Sys2Proof.Machine

/-- A manifest job's parameters carry its descriptor's mode. -/
theorem manParams_mode {s : State} {j : Job} {p : ManParams} (h : manParams s j = some p) : p.mode = fieldLe j.desc 0x35 1 := by
  unfold manParams at h
  extract_lets d mode at h
  split at h
  · cases h
  · cases h
    rfl

/-! ### Where a job of a manifest row stands (R98, R169, R171, R199) -/

section
variable {s : State} {tag mode : Nat} {man : Bytes} {dtts : List Bytes} {j : Job}
  (hj : job? s tag = some j) (hrun : j.st = .running) (hdone : j.done = none) (hlane : laneLost s j = false)
  (htype : dType j.desc = 0x1F) (hmode : fieldLe j.desc 0x35 1 = mode) (hrec : s.reconciling = false)
include hj hrun hdone hlane htype hmode hrec

/-- A job that has been ended meanwhile completes with its code. -/
theorem manifestJob_ended (hearly : j.early ≠ 0) :
    manifestJob s tag mode man dtts = finish s tag { status := j.early, ran := decide (j.early ≠ 0x0E37) } [] := by
  simp [manifestJob, hj, hrun, hdone, hlane, htype, hmode, hrec, hearly]

/-- A job whose reads can be made runs once its key has been checked and its lane's blocks counted, and completes with what the run
answers. -/
theorem manifestJob_runs {p : ManParams} {c : State} (hearly : j.early = 0) (hp : manParams s j = some p)
    (hcan : manifestCan s p man dtts = true)
    (hc : c = countUnit (if p.key.isNone then (chainCheck s (dKey j.desc)).1 else s) j 0 (manExtent man)) :
    manifestJob s tag mode man dtts =
      let x := manifestRun c p man dtts
      finish x.1 tag { status := x.2.1, result := x.2.2, ran := decide (x.2.1 ≠ 0x0E37) } [] := by
  simp [manifestJob, hj, hrun, hdone, hlane, htype, hmode, hrec, hearly, hp, hcan, hc]

end

/-! ### A run by mode and outcome (R173, R184, R188) -/

/-- A job that its port does not expect changes nothing. -/
theorem manifestRun_unexpected {c : State} {p : ManParams} (man : Bytes) (dtts : List Bytes) (h : jobExpected c p = false) :
    manifestRun c p man dtts = (c, 0x0E37, 0) := by
  simp [manifestRun, h]

section
variable {c t : State} {p : ManParams} {man : Bytes} {dtts : List Bytes} (hexp : jobExpected c p = true)
include hexp

/-- An expected job of mode MEASURE. -/
theorem manifestRun_measure (hmode : p.mode = 0)
    (ht : t = manifestRead (modPort c p.port fun q => { q with manAt := (jobFa c p p.manifest, manExtent man) }) p man) :
    manifestRun c p man dtts = match manCheck t p man with
      | .ok (m, raise) => (measureResult t p.port 0 m raise, 0, 0)
      | .error (code, e) => (measureResult t p.port code default false, code, e) := by
  cases hm : manCheck t p man <;> simp [manifestRun, hexp, hmode, ← ht, hm]

/-- An expected job of mode STAGE: its trees are read and checked where the manifest passes. -/
theorem manifestRun_stage (hmode : p.mode = 1)
    (ht : t = manifestRead (modPort c p.port fun q => { q with manAt := (jobFa c p p.manifest, manExtent man) }) p man) :
    manifestRun c p man dtts = match manCheck t p man with
      | .error (code, e) => (t, code, e)
      | .ok (m, _) =>
        let u := irq (stageReads t p.port (stageTrees t p man) dtts) .du 0 p.port
        match stageTreesBad t p.port m dtts with
        | some code => (duReport u code, code, 0)
        | none => (stageResult u p.port 0 m, 0, 0) := by
  cases hm : manCheck t p man with
  | error bad => simp [manifestRun, hexp, hmode, ← ht, hm]
  | ok x => cases hb : stageTreesBad t p.port x.1 dtts <;> simp [manifestRun, hexp, hmode, ← ht, hm, hb]

/-- An expected job of mode GOLDEN. -/
theorem manifestRun_golden (hmode : p.mode = 2)
    (ht : t = manifestRead (modPort c p.port fun q => { q with recBase := p.cs1Base }) p man) :
    manifestRun c p man dtts = match manCheck t p man with
      | .ok (m, _) => (goldenResult t p.port 0 p.start m ⟨p.cs1Base, p.dest, p.length, m.digest⟩, 0, 0)
      | .error (code, e) => (goldenResult t p.port code 0 default default, code, e) := by
  cases hm : manCheck t p man <;> simp [manifestRun, hexp, hmode, ← ht, hm]

end

end Sys2Proof.Machine

open Sys2Proof Sys2Proof.Machine

/-- Settles O14, by where a job stands and what an expected run of each mode answers. -/
theorem manifestChecks : Obligations.ManifestChecks := by
  refine ⟨?measure, ?stage, ?golden, ?unexpected, ?ended⟩
  case measure =>
    intro s c t tag man j p hj hrun hdone hearly hlane htype hmode hrec hp hcan hc hexp ht
    refine done_congr ((manifestJob_runs hj hrun hdone hlane htype hmode hrec hearly hp hcan hc).trans ?_)
    rw [manifestRun_measure hexp ((manParams_mode hp).trans hmode) ht]
    cases manCheck t p man <;> rfl
  case stage =>
    intro s c t tag man dtts j p hj hrun hdone hearly hlane htype hmode hrec hp hcan hc hexp ht
    refine done_congr ((manifestJob_runs hj hrun hdone hlane htype hmode hrec hearly hp hcan hc).trans ?_)
    rw [manifestRun_stage hexp ((manParams_mode hp).trans hmode) ht]
    cases manCheck t p man with
    | error bad => rfl
    | ok x =>
      dsimp only
      cases stageTreesBad t p.port x.1 dtts <;> rfl
  case golden =>
    intro s c t tag man j p hj hrun hdone hearly hlane htype hmode hrec hp hcan hc hexp ht
    refine done_congr ((manifestJob_runs hj hrun hdone hlane htype hmode hrec hearly hp hcan hc).trans ?_)
    rw [manifestRun_golden hexp ((manParams_mode hp).trans hmode) ht]
    cases manCheck t p man <;> rfl
  case unexpected =>
    intro s c tag mode man dtts j p hj hrun hdone hearly hlane htype hmode hdtts hrec hp hcan hc hexp
    have hjob : manifestJob s tag mode man dtts = finish c tag { status := 0x0E37, ran := false } [] := by
      rw [manifestJob_runs hj hrun hdone hlane htype hmode hrec hearly hp hcan hc, manifestRun_unexpected man dtts hexp]
      rfl
    refine ⟨?_, ?_, ?_⟩
    · rintro rfl
      obtain rfl := hdtts.resolve_left (by decide)
      exact done_congr hjob
    · rintro rfl
      exact done_congr hjob
    · rintro rfl
      obtain rfl := hdtts.resolve_left (by decide)
      exact done_congr hjob
  case ended =>
    rintro s tag mode man dtts j hj hrun hdone hearly hlane htype rfl hrec
    have hjob (ds : List Bytes) := manifestJob_ended (man := man) (dtts := ds) hj hrun hdone hlane htype rfl hrec hearly
    exact ⟨fun h => done_congr (h ▸ hjob []), fun h => done_congr (h ▸ hjob dtts), fun h => done_congr (h ▸ hjob [])⟩

end

section
/-! PROOFS. Proofs: the reserved pages, which answer nothing, and the remote aperture, which holds no page of this device (R68, R69). -/
namespace Sys2Proof.Machine

/-- Every access of a reserved page has the cause of one, whatever its size, alignment and master. -/
theorem writeCause_reservedPage (s : State) (a : Acc) {off : Nat} (size : Nat) (h : pageOf off = .reserved) :
    writeCause s a off size = some .reserved := by
  simp only [writeCause, h]
theorem readCause_reservedPage (s : State) (a : Acc) {off : Nat} (size : Nat) (h : pageOf off = .reserved) :
    readCause s a off size = some .reserved := by
  simp only [readCause, h]

/-- The remote aperture begins at page 0xC00 (R68). -/
theorem pageOf_aperture {off : Nat} (h : 0xC00000 ≤ off) : pageOf off = .aperture := by
  have hp : off / 4096 ≥ 0xC00 := by omega
  exact if_pos hp

end Sys2Proof.Machine

open Sys2Proof Sys2Proof.Machine

/-- Settles O55, by the cause of an access of a reserved page and what a refused access leaves. -/
theorem reservedPages : Obligations.ReservedPages := by
  refine ⟨?reserved, ?aperture⟩
  case reserved =>
    rintro s _ _ a off size d inp hs ho hp rfl rfl
    have hwrite := writeCause_reservedPage (wakeByHost (coreStores s inp) a) a size hp
    have hread := readCause_reservedPage (wakeByHost s a) a size hp
    exact ⟨done_congr (busWrite_refused hs ho hwrite (.inl (by decide))), busRead_refused .clean hs ho hread, rfl⟩
  case aperture =>
    intro off k i hlo _
    have hp := pageOf_aperture hlo
    exact ⟨hp, hp ▸ PageAt.noConfusion⟩

end

section
/-! PROOFS. Proofs: the scrub, the write-backs and the diagnostic reads of the verified store (R136, R148, R150, R163, R164). -/
namespace Sys2Proof.Machine

/-! ### The end of a counted duration (R52) -/

/-- The cycles that pass and the duration that stops leave the registers and the verified store. -/
@[simp] theorem expired_frame (s : State) (t : Timer) :
    (expired s t).part = s.part ∧ (expired s t).regs = s.regs ∧ (expired s t).frames = s.frames ∧
    (expired s t).writeBacks = s.writeBacks ∧ (expired s t).ports = s.ports := by
  unfold expired elapse
  split <;> exact ⟨rfl, rfl, rfl, rfl, rfl⟩

@[simp] theorem rget_expired (s : State) (t : Timer) (o : Nat) : rget (expired s t) o = rget s o := by simp [rget]
@[simp] theorem rfld_expired (s : State) (t : Timer) (o hi lo : Nat) : rfld (expired s t) o hi lo = rfld s o hi lo := by simp [rfld]
@[simp] theorem frame_expired (s : State) (t : Timer) (f : Nat) : frame (expired s t) f = frame s f := by simp [frame]

/-! ### A corrected word (R136, R148) -/

/-- A corrected word changes registers, the VST page's interrupt bit 0 among them, and is queued for write-back. -/
theorem eccNote_corrected (s : State) (f w source : Nat) :
    ∃ u, OnlyRegs s u ∧ rbit u (reg .vst 0 0x010) 0 = true ∧
      eccNote s f w source false = { u with writeBacks := u.writeBacks ++ [(f, w)] } := by
  unfold eccNote
  extract_lets k counted last bank noted
  have honly : OnlyRegs s noted := ((((OnlyRegs.refl s).rset _ _).rset _ _).rset _ _).irq _ _ _
  exact ⟨noted, honly, rbit_irq bank .vst 0 0 0 (by decide), if_neg (by decide)⟩

@[simp] theorem eccNote_corrected_frame (s : State) (f w source : Nat) :
    (eccNote s f w source false).writeBacks = s.writeBacks ++ [(f, w)] ∧ (eccNote s f w source false).frames = s.frames ∧
    (eccNote s f w source false).ports = s.ports := by
  obtain ⟨u, ⟨r, rfl⟩, -, h⟩ := eccNote_corrected s f w source
  rw [h]
  exact ⟨rfl, rfl, rfl⟩

theorem rbit_eccNote_corrected (s : State) (f w source : Nat) : rbit (eccNote s f w source false) (reg .vst 0 0x010) 0 = true := by
  obtain ⟨u, -, hbit, h⟩ := eccNote_corrected s f w source
  rw [h]
  exact hbit

/-! ### One scrub interval (R150, R164) -/

/-- VST_BANKk_SCRUB: the position in bits 15:0, the passes in bits 31:16. -/
abbrev scrubReg (k : Nat) : Nat := reg .vstBank k 0x048

/-- The frame at bank `k`'s scrub position. -/
def scrubFrame (s : State) (k : Nat) : Nat := k * s.part.framesPerBank + rfld s (scrubReg k) 15 0

/-- The scrub's read of frame `f`: what the ECC answers counts where the frame is VALID. -/
def scrubRead (s : State) (f : Nat) (ecc : EccRes) : State :=
  if (frame s f).st ≠ .valid then s else
    match ecc with
    | .clean => s
    | .corrected w => eccNote s f (w % 512) 1 false
    | .uncorrectable w => eccScrub (eccNote s f (w % 512) 1 true) f

/-- Bank `k`'s scrub interval started again. -/
def scrubRestart (s : State) (k : Nat) : State := tset s (.scrub k) (us (max 1 (rfld s (reg .vst 0 0x040) 19 4)))

/-- The position after frame index `i` of `per`: the next one, or 0 with the pass counted and the bank's bit set. -/
def scrubMove (s : State) (k i per : Nat) : State :=
  if i + 1 < per then rsetf s (scrubReg k) 15 0 (i + 1)
  else irq (rcount (rsetf s (scrubReg k) 15 0 0) (scrubReg k) 31 16 1) .vstBank k 0

/-- SCRUB_TICK where a bank's interval is due to end: the read at the position, the interval again, and the move. -/
theorem scrubTick_due {s : State} {k : Nat} (ecc : EccRes) (hon : pageOn s .vstBank k = true)
    (hen : rbit s (reg .vst 0 0x040) 0 = true) (hrun : running s (.scrub k) = true) :
    exec (.scrubTick k ecc) s =
      done (scrubMove (scrubRestart (scrubRead (expired s (.scrub k)) (scrubFrame s k) ecc) k) k (rfld s (scrubReg k) 15 0)
        s.part.framesPerBank) := by
  refine congrArg done ((if_neg (by simp [hon, hen])).trans ((fire_running hrun).trans ?_))
  simp only [rfld_expired, expired_frame]
  rfl

/-- A read without an error leaves the state, whether or not the frame is VALID. -/
theorem scrubRead_clean (s : State) (f : Nat) : scrubRead s f .clean = s := ite_self s

/-- A read of a VALID frame with a corrected word notes it. -/
theorem scrubRead_corrected {s : State} {f w : Nat} (hv : (frame s f).st = .valid) (hw : w < 512) :
    scrubRead s f (.corrected w) = eccNote s f w 1 false := by
  simp [scrubRead, hv, Nat.mod_eq_of_lt hw]

theorem scrubMove_next (s : State) {k i per : Nat} (h : i + 1 < per) :
    scrubMove s k i per = rsetf s (scrubReg k) 15 0 (i + 1) := if_pos h
theorem scrubMove_last (s : State) {k i per : Nat} (h : i + 1 = per) :
    scrubMove s k i per = irq (rcount (rsetf s (scrubReg k) 15 0 0) (scrubReg k) 31 16 1) .vstBank k 0 := if_neg (by omega)

@[simp] theorem rget_scrubRestart (s : State) (k o : Nat) : rget (scrubRestart s k) o = rget s o := rfl
@[simp] theorem scrubRestart_frame (s : State) (k : Nat) :
    (scrubRestart s k).frames = s.frames ∧ (scrubRestart s k).writeBacks = s.writeBacks ∧ (scrubRestart s k).ports = s.ports :=
  ⟨rfl, rfl, rfl⟩

/-- The move changes registers only. -/
theorem scrubMove_onlyRegs (s : State) (k i per : Nat) : OnlyRegs s (scrubMove s k i per) := by
  unfold scrubMove
  split
  · exact (OnlyRegs.refl s).rset _ _
  · exact (((OnlyRegs.refl s).rset _ _).rset _ _).irq _ _ _

@[simp] theorem scrubMove_frame (s : State) (k i per : Nat) :
    (scrubMove s k i per).frames = s.frames ∧ (scrubMove s k i per).writeBacks = s.writeBacks ∧
    (scrubMove s k i per).ports = s.ports := by
  obtain ⟨r, hr⟩ := scrubMove_onlyRegs s k i per
  rw [hr]
  exact ⟨rfl, rfl, rfl⟩

/-- A register outside the bank's page is as it was. -/
theorem rget_scrubMove_other (s : State) {k o : Nat} (i per : Nat) (hpos : o ≠ scrubReg k) (hirq : o ≠ reg .vstBank k 0x010) :
    rget (scrubMove s k i per) o = rget s o := by
  unfold scrubMove
  split
  · exact rget_rsetf_other s _ _ _ hpos
  · rw [rget_irq_other _ hirq, rcount, rget_rsetf_other _ _ _ _ hpos, rget_rsetf_other _ _ _ _ hpos]

/-- The registers of a bank's page and of the VST page lie apart (R68). -/
theorem scrubReg_ne_irq (k : Nat) : scrubReg k ≠ reg .vstBank k 0x010 := by simp only [scrubReg, reg]; omega
theorem vstIrq_ne_scrubReg (k : Nat) : reg .vst 0 0x010 ≠ scrubReg k := by simp only [scrubReg, reg, pageBase]; omega
theorem vstIrq_ne_bankIrq (k : Nat) : reg .vst 0 0x010 ≠ reg .vstBank k 0x010 := by simp only [reg, pageBase]; omega

/-- The end of a pass: the position is 0, the pass is counted up to the field's end, and the bank's bit is set. -/
theorem scrubMove_last_regs (s : State) {k i per : Nat} (h : i + 1 = per) :
    rfld (scrubMove s k i per) (scrubReg k) 15 0 = 0 ∧
    rfld (scrubMove s k i per) (scrubReg k) 31 16 = satAdd (rfld s (scrubReg k) 31 16) 1 0xFFFF ∧
    rbit (scrubMove s k i per) (reg .vstBank k 0x010) 0 = true := by
  have hirq (u : State) (hi lo : Nat) : rfld (irq u .vstBank k 0) (scrubReg k) hi lo = rfld u (scrubReg k) hi lo := by
    rw [rfld, rget_irq_other u (scrubReg_ne_irq k), rfld]
  rw [scrubMove_last s h, hirq, hirq, rcount]
  refine ⟨?position, ?passes, ?bit⟩
  case position =>
    rw [rfld_rsetf_other _ _ _ (by decide) (by decide), rfld_rsetf_same _ _ _ (by decide), Nat.zero_mod]
  case passes =>
    rw [rfld_rsetf_same _ _ _ (by decide), rfld_rsetf_other _ _ _ (by decide) (by decide)]
    simp only [satAdd]
    omega
  case bit => exact rbit_irq _ .vstBank k 0 0 (by decide)

/-! ### Diagnostic reads (R163) -/

/-- A word read of a page that answers: what the page does beside, and its word back to the master. -/
theorem busRead_page {s : State} {a : Acc} {k : PageKind} {i o : Nat} (ecc : EccRes) (hs : silent s a = false)
    (hm : pwrState s = 0 ∨ (a.master ≠ 0x10 ∧ vfOf a = 0)) (hoff : reg k i o < 0x1000000) (hp : pageOf (reg k i o) = .page k i)
    (hpres : pagePresent s.part k i = true) (hup : pageUp s k i = true) (hr : mayRead s a (.page k i) = true) (ho : o < 4096)
    (hal : o % 4 = 0) :
    busRead a (reg k i o) 4 ecc s = emit (readOn s k i o ecc).1 (.bus a.master (reg k i o) (readOn s k i o ecc).2) := by
  have hword : reg k i o % 4 = 0 := by have := reg_mod k i ho; omega
  have hcause : readCause s a (reg k i o) 4 = none := by simp [readCause, hp, hr, hword]
  have hreach : ¬ (silent s a = true ∨ reg k i o ≥ 0x1000000) := by simp only [hs, Bool.false_eq_true, false_or]; omega
  unfold busRead busReadWord
  rw [if_neg hreach, wakeByHost_awake hm]
  simp only [hcause, hp, hpres, hup, reg_mod k i ho, Bool.and_self, if_true]

/-- A diagnostic read of a VALID frame without an error answers its word and changes nothing. -/
theorem vstDiag_valid {s : State} {f w : Nat} (hf : f = rfld s (reg .vst 0 0x054) 14 0) (hw : w = rfld s (reg .vst 0 0x05C) 11 2)
    (hlt : f < s.part.frames) (hv : (frame s f).st = .valid) : vstDiag s .clean = (s, wordAtLe (frame s f).data w) := by
  subst hf hw
  have hn : ¬ ((frame s (rfld s (reg .vst 0 0x054) 14 0)).st ≠ .valid ∨ rfld s (reg .vst 0 0x054) 14 0 ≥ s.part.frames) := by
    simp only [hv, ne_eq, not_true_eq_false, false_or]
    omega
  exact if_neg hn

end Sys2Proof.Machine

open Sys2Proof Sys2Proof.Machine

/-- Settles O13, by what a scrub interval that is due reads and where it moves, and by the word of a diagnostic read. -/
theorem scrubAndDiagnosticReads : Obligations.ScrubAndDiagnosticReads := by
  refine ⟨?next, ?last, ?corrected, ?writeback, ?diagnostic⟩
  case next =>
    intro s k hon hen hrun hlt
    rw [scrubTick_due .clean hon hen hrun, scrubRead_clean, scrubMove_next _ hlt]
    simp only [scrubRestart, rfld_expired]
    rfl
  case last =>
    intro s k hon hen hrun hlast
    obtain ⟨hpos, hpasses, hbit⟩ := scrubMove_last_regs (scrubRestart (expired s (.scrub k)) k) hlast
    refine ⟨_, scrubTick_due .clean hon hen hrun, ?_⟩
    rw [scrubRead_clean]
    refine ⟨hpos, hpasses.trans ?_, hbit, by simp, by simp, by simp⟩
    simp [rfld, scrubReg]
  case corrected =>
    intro s k w hon hen hrun hv hw
    have hread : scrubRead (expired s (.scrub k)) (scrubFrame s k) (.corrected w) =
        eccNote (expired s (.scrub k)) (scrubFrame s k) w 1 false := scrubRead_corrected (by rwa [frame_expired]) hw
    refine ⟨_, scrubTick_due (.corrected w) hon hen hrun, ?_⟩
    rw [hread]
    refine ⟨by simp [scrubFrame, scrubReg], ?_, by simp, by simp⟩
    rw [rbit, rget_scrubMove_other _ _ _ (vstIrq_ne_scrubReg k) (vstIrq_ne_bankIrq k), rget_scrubRestart]
    exact rbit_eccNote_corrected _ _ _ _
  case writeback => exact fun s => rfl
  case diagnostic =>
    intro s a f w hs hm hup hr hf hw hlt hv
    have hread : readOn s .vst 0 0x060 .clean = (s, wordAtLe (frame s f).data w) := vstDiag_valid hf hw hlt hv
    refine done_congr ((busRead_page .clean hs hm (by decide) (by decide) rfl hup hr (by decide) (by decide)).trans ?_)
    rw [hread]

end

section
/-! PROOFS. Proofs: the commands of the BOOT block at device start (R262, R268, R270, R294). -/
namespace Sys2Proof.Machine

/-! ### Words with their lowest bit set -/

theorem fld_or_one (d : Word) {hi lo : Nat} (h : 0 < lo) : fld (d ||| 1) hi lo = fld d hi lo := by
  apply Nat.eq_of_testBit_eq
  intro j
  have hne : lo ≠ 0 := by omega
  simp [testBit_fld, hne]
theorem bit_or_one (d : Word) : bit (d ||| 1) 0 = true := by simp [bit]

/-! ### Writes of the BOOT block (R15, R16) -/

/-- A taken write of a register of the block that takes writes. -/
theorem busWrite_boot {s : State} {a : Acc} {o : Nat} {w : Word} {r : RegRow} {inp : BusIn} (hi : coreStores s inp = s)
    (h : takes s a .rom 0 o w = true) (hr : rowAt .rom 0 o = some r) (hlo : 0x040 ≤ o) (hhi : o < 4096)
    (hw : (rowReadable r &&& ~~~ r.ro ||| r.wo == 0) = false) :
    busWrite a (romReg o) 4 w inp s = markOnce r (romReg o)
      (bootWrite inp s ⟨a, romReg o, w, shown s .rom 0 o, takenWord s .rom 0 o w, pageLocked s .rom 0⟩) :=
  busWrite_takes hi h hr hlo hhi hw (by simp)

section
variable {s : State} (inp : BusIn) {c : WCtx}

theorem bootWrite_dbgLock (ho : c.off % 4096 = 0x054) : bootWrite inp s c = rsetb (storeW s c) c.off 31 true := by
  simp [bootWrite, ho]
theorem bootWrite_coreRelease (ho : c.off % 4096 = 0x058) : bootWrite inp s c = coreReleaseWrite s c := by simp [bootWrite, ho]
theorem bootWrite_lifeCycle (ho : c.off % 4096 = 0x05C) : bootWrite inp s c = lcCmdWrite s c inp.rst := by simp [bootWrite, ho]
theorem bootWrite_health (ho : c.off % 4096 = 0x114) : bootWrite inp s c = healthWrite s c := by simp [bootWrite, ho]

end

/-- BOOT_DBG_LOCK takes its one write, and bit 31 says that it has been written (R268). -/
theorem busWrite_dbgLock {s : State} {a : Acc} {w : Word} (h : takes s a .rom 0 0x054 w = true) :
    busWrite a (romReg 0x054) 4 w {} s =
      { rsetb (rset s (romReg 0x054) (takenWord s .rom 0 0x054 w)) (romReg 0x054) 31 true with
        rwoUsed := Tbl.set (fun _ => false) s.rwoUsed (romReg 0x054) true } := by
  have hr : rowAt .rom 0 0x054 =
      some { name := "BOOT_DBG_LOCK", base := 0x054, stride := 0, count := 1, rwo := 0x0000000F, ro := 0x80000000 } := by decide
  rw [busWrite_boot (coreStores_none s {} rfl rfl) h hr (by decide) (by decide) (by decide),
    bootWrite_dbgLock {} (reg_mod .rom 0 (by decide))]
  exact if_neg (by decide)

/-- A write of BOOT_CORE_RELEASE goes to the Dills that it names. -/
theorem busWrite_coreRelease {s : State} {a : Acc} {w : Word} (h : takes s a .rom 0 0x058 w = true) :
    busWrite a (romReg 0x058) 4 w {} s = ((List.range 3).filter (bit w)).foldl releaseDill s := by
  have hr : rowAt .rom 0 0x058 =
      some { name := "BOOT_CORE_RELEASE", base := 0x058, stride := 0, count := 1, w1s := 0x00000007, ro := 0xFFFF0700 } := by decide
  rw [busWrite_boot (coreStores_none s {} rfl rfl) h hr (by decide) (by decide) (by decide), markOnce_plain (by decide),
    bootWrite_coreRelease {} (reg_mod .rom 0 (by decide))]
  rfl

/-- A keyed submit of BOOT_LC_CMD marks the request and makes a CONTROL reset (R262). -/
theorem busWrite_lcSubmit {s : State} {a : Acc} {w : Word} (inp : RstIn) (h : takes s a .rom 0 0x05C w = true)
    (hkey : fld w 31 16 = 0xA5C3) (hgo : bit w 0 = true) :
    busWrite a (romReg 0x05C) 4 w { rst := inp } s = controlReset (rsetb s (romReg 0x060) 16 true) 10 inp := by
  have hr : rowAt .rom 0 0x05C = some { name := "BOOT_LC_CMD", base := 0x05C, stride := 0, count := 1, wo := 0xFFFF0001 } := by decide
  rw [busWrite_boot (coreStores_none s _ rfl rfl) h hr (by decide) (by decide) (by decide), markOnce_plain (by decide),
    bootWrite_lifeCycle _ (reg_mod .rom 0 (by decide))]
  simp [lcCmdWrite, hkey, hgo]

/-- BOOT_HEALTH_CONFIRM takes its effect from the word written (R294). -/
theorem busWrite_health {s : State} {a : Acc} {w : Word} (h : takes s a .rom 0 0x114 w = true) :
    busWrite a (romReg 0x114) 4 w {} s =
      healthWrite s ⟨a, romReg 0x114, w, shown s .rom 0 0x114, takenWord s .rom 0 0x114 w, pageLocked s .rom 0⟩ := by
  have hr : rowAt .rom 0 0x114 = some { name := "BOOT_HEALTH_CONFIRM", base := 0x114, stride := 0, count := 1, wo := 0xFFFF0001 } := by
    decide
  rw [busWrite_boot (coreStores_none s {} rfl rfl) h hr (by decide) (by decide) (by decide), markOnce_plain (by decide),
    bootWrite_health {} (reg_mod .rom 0 (by decide))]

/-- A keyed confirmation in TRIAL retires the boot watchdog. -/
theorem healthWrite_trial {s : State} {c : WCtx} (hkey : fld c.data 31 16 = 0xA5C3) (hgo : bit c.data 0 = true)
    (htrial : rbit s (romReg 0x100) 3 = true) (hst : bwdState s = 0x55) : healthWrite s c = bwdRetire s := by
  simp [healthWrite, hkey, hgo, htrial, hst]

/-! ### The release of one Dill (R270) -/

/-- The Dills of a release word that names one. -/
theorem released_one {d : Word} {q : Nat} (hq : q < 3) (h : fld d 2 0 = 2 ^ q) : (List.range 3).filter (bit d) = [q] := by
  have hbit : ∀ j ∈ List.range 3, bit d j = decide (q = j) := by
    intro j hj
    have hlt : j < 3 := List.mem_range.mp hj
    have hf := testBit_fld d 2 0 j
    rw [h, Nat.testBit_two_pow] at hf
    simpa [bit, hlt] using hf.symm
  rw [List.filter_congr hbit]
  match q, hq with
  | 0, _ | 1, _ | 2, _ => rfl

/-- A release goes as its checks answer. -/
theorem releaseDill_refused {s : State} {q code : Nat} (h : releaseBad s q = some code) :
    releaseDill s q = irq (bootErr (rsetf s (romReg 0x058) 31 16 code) code 0x058) .rom 0 1 := by simp only [releaseDill, h]
theorem releaseDill_runs {s : State} {q : Nat} (h : releaseBad s q = none) :
    releaseDill s q = rsetb s (romReg 0x058) (8 + q) true := by simp only [releaseDill, h]

/-- The release of a held Dill whose length and digest are valid turns on the digest of its image alone. -/
theorem releaseDill_image {s : State} {q len : Nat} (hheld : dillRuns s q = false)
    (hlen : len = (rget s (romReg (0x068 + 4 * q))).toNat) (hne : len ≠ 0) (hal : len % 4 = 0) (hmax : len ≤ 196608)
    (hon : domOn s 24 = true) (hdig : allZero (rbytes s (romReg (0x600 + 64 * q)) 16) = false) :
    releaseDill s q = if sha512 (memRead s.dillMem (q * 0x40000) len) = rbytes s (romReg (0x600 + 64 * q)) 16
      then rsetb s (romReg 0x058) (8 + q) true
      else irq (bootErr (rsetf s (romReg 0x058) 31 16 0x0102) 0x0102 0x058) .rom 0 1 := by
  have hvalid : ¬ (allZero (rbytes s (romReg (0x600 + 64 * q)) 16) = true ∨ len = 0 ∨ len % 4 ≠ 0 ∨ len > 196608) := by
    simp [hdig, hne, hal, hmax]
  have hbad : releaseBad s q =
      if sha512 (memRead s.dillMem (q * 0x40000) len) = rbytes s (romReg (0x600 + 64 * q)) 16 then none else some 0x0102 := by
    simp only [releaseBad, ← hlen, hheld, hon, if_neg hvalid, Bool.not_true, Bool.false_eq_true, if_false, false_or, ne_eq, ite_not]
  by_cases himg : sha512 (memRead s.dillMem (q * 0x40000) len) = rbytes s (romReg (0x600 + 64 * q)) 16
  · rw [if_pos himg]
    exact releaseDill_runs (hbad.trans (if_pos himg))
  · rw [if_neg himg]
    exact releaseDill_refused (hbad.trans (if_neg himg))

end Sys2Proof.Machine

open Sys2Proof Sys2Proof.Machine

/-- Settles O23, by the effect of a taken write of each of the four registers. -/
theorem deviceStartCommands : Obligations.DeviceStartCommands := by
  refine ⟨?dbgLock, ?release, ?submit, ?confirm, ?unkeyed⟩
  case dbgLock => exact fun s a d h => done_congr (busWrite_dbgLock h)
  case release =>
    intro s a d q len h hq hd hheld hlen hne hal hmax hon hdig
    refine done_congr ((busWrite_coreRelease h).trans ?_)
    rw [released_one hq hd]
    exact releaseDill_image hheld hlen hne hal hmax hon hdig
  case submit =>
    intro s a d inp h hkey
    exact done_congr (busWrite_lcSubmit inp h ((fld_or_one d (by decide)).trans hkey) (bit_or_one d))
  case confirm =>
    intro s a d h hkey htrial hst
    exact done_congr ((busWrite_health h).trans
      (healthWrite_trial ((fld_or_one d (by decide)).trans hkey) (bit_or_one d) htrial hst))
  case unkeyed =>
    intro s a d h hkey
    exact done_congr ((busWrite_health h).trans (if_pos (by rwa [fld_or_one d (by decide)])))

end

section
/-! PROOFS. Proofs: the common command codes of the I3C target (R365, R367). -/
namespace Sys2Proof.Machine

/-! ### Registers loaded in a row -/

/-- Loading registers from `o` on changes none below it, and nothing but registers. -/
theorem rget_rsetWords_below (s : State) {o a : Nat} (ws : List Word) (h : a < o) : rget (rsetWords s o ws) a = rget s a := by
  induction ws generalizing s o with
  | nil => rfl
  | cons w ws ih => rw [rsetWords, ih _ (by omega), rget_rset_other _ _ (by omega)]
theorem rsetWords_onlyRegs {s u : State} (h : OnlyRegs s u) (o : Nat) (ws : List Word) : OnlyRegs s (rsetWords u o ws) := by
  induction ws generalizing u o with
  | nil => exact h
  | cons w ws ih => exact ih (h.rset o w) (o + 4)

theorem tget_tstop_same (s : State) (t : Timer) : tget (tstop s t) t = none := by simp [tget, tstop]

/-! ### What a CCC reaches (R365) -/

section
variable {s : State} {all : Bool} {k : State → State}

/-- A directed CCC reaches a target that is up and has a dynamic address. -/
theorem directed_reaches (hup : i3cUp s = true) (ha : (dynAddr s).isSome = true) : directed s k = done (k s) := by
  simp only [directed, ccc, hup, ha, if_true]
theorem directed_misses (h : dynAddr s = none ∨ i3cUp s = false) : directed s k = done s := by
  rcases h with h | h <;> simp [directed, ccc, h]

/-- The broadcast form needs no dynamic address. -/
theorem cccOf_reaches (hup : i3cUp s = true) (ha : all = true ∨ (dynAddr s).isSome = true) : cccOf all s k = done (k s) := by
  cases all with
  | true => simp only [cccOf, ccc, hup, if_true]
  | false => exact directed_reaches hup (ha.resolve_left Bool.false_ne_true)
theorem cccOf_misses (h : dynAddr s = none ∨ i3cUp s = false) : cccOf false s k = done s := directed_misses h
/-- A CCC whose argument the target does not accept does nothing, whether it reaches the target or not. -/
theorem cccOf_fixed (all : Bool) (h : k s = s) : cccOf all s k = done s := by
  simp only [cccOf, directed, ccc, h, ite_self]

end

/-! ### The dynamic address (R365) -/

/-- RSTDAA needs an address to reset, so it reaches what a directed code does. -/
theorem rstdaa_directed (s : State) : execRstdaa s = directed s fun s => setDynAddr s none := rfl
theorem setdasa_own {s : State} {a : Nat} (hup : i3cUp s = true) (hn : dynAddr s = none) (ha : a < 128) :
    execSetdasa (staticAddr s) a s = done (setDynAddr s (some a)) := by
  simp [execSetdasa, ccc, hup, hn, Nat.mod_eq_of_lt ha]
theorem setdasa_other {s : State} {sa : Nat} (a : Nat) (h : (dynAddr s).isSome = true ∨ sa ≠ staticAddr s) :
    execSetdasa sa a s = done s := by
  have hnot : ¬ (sa = staticAddr s ∧ (dynAddr s).isNone = true) := by
    rintro ⟨hsa, hn⟩
    rcases h with h | h
    · rw [Option.isNone_iff_eq_none.mp hn] at h
      cases h
    · exact h hsa
  simp only [execSetdasa, ccc, if_neg hnot, ite_self]
theorem entdaa_unassigned {s : State} {a : Nat} (hup : i3cUp s = true) (hn : dynAddr s = none) (ha : a < 128) :
    execEntdaa a s = done (setDynAddr (emit s (.i3c (beBytes 6 (provisionalId s) ++ [0x06, 0x00]))) (some a)) := by
  simp [execEntdaa, ccc, hup, hn, Nat.mod_eq_of_lt ha]
theorem entdaa_assigned {s : State} (a : Nat) (h : (dynAddr s).isSome = true) : execEntdaa a s = done s := by
  simp [execEntdaa, ccc, h]
theorem setnewda_assigned {s : State} {a : Nat} (hup : i3cUp s = true) (h : (dynAddr s).isSome = true) (ha : a < 128) :
    execSetnewda a s = done (setDynAddr s (some a)) := by
  rw [execSetnewda, directed_reaches hup h, Nat.mod_eq_of_lt ha]

/-! ### Lengths (R367) -/

theorem lenOk_iff {n : Nat} : lenOk n = true ↔ 69 ≤ n ∧ n ≤ 256 := by simp [lenOk]
theorem lenOk_false {n : Nat} (h : n < 69 ∨ 256 < n) : ¬ lenOk n = true := by rw [lenOk_iff]; omega

/-! ### RSTACT (R365) -/

/-- The target's registers as its queues show them, after RSTACT has emptied them. -/
def queuesEmptied (s : State) : State := rsetf (rxView (tstop { s with i3c := {} } .i3cTx)) (i3cReg 0x054) 1 0 0

theorem rstact_queues (s : State) {all : Bool} (hup : i3cUp s = true) (ha : all = true ∨ (dynAddr s).isSome = true) :
    execRstact ⟨all, 1⟩ s = done (queuesEmptied s) := by
  rw [execRstact, cccOf_reaches hup ha]
  rfl

/-- The view of the head packet is in registers alone, and it counts the packets that wait. -/
theorem rxView_onlyRegs (s : State) : OnlyRegs s (rxView s) :=
  rsetWords_onlyRegs ((OnlyRegs.refl s).rset _ _ |>.rset _ _) _ _
theorem rfld_rxView_count (s : State) : rfld (rxView s) (i3cReg 0x048) 2 0 = s.i3c.rx.length % 8 := by
  have h : rget (rxView s) (i3cReg 0x048) = _ := rget_rsetWords_below _ _ (by decide)
  rw [rfld, h, ← rfld, rfld_rsetf_other _ _ _ (by decide) (by decide)]
  exact rfld_rsetf_same _ _ _ (by decide)

/-- RSTACT leaves no packet, no packet on its way out and no duration for one, and status registers that say so. -/
theorem queuesEmptied_facts (s : State) :
    (queuesEmptied s).i3c.rx = [] ∧ (queuesEmptied s).i3c.tx = none ∧ tget (queuesEmptied s) .i3cTx = none ∧
    rfld (queuesEmptied s) (i3cReg 0x048) 2 0 = 0 ∧ rfld (queuesEmptied s) (i3cReg 0x054) 1 0 = 0 := by
  have hcount : rfld (queuesEmptied s) (i3cReg 0x048) 2 0 = rfld (rxView (tstop { s with i3c := {} } .i3cTx)) (i3cReg 0x048) 2 0 :=
    congrArg (fld · 2 0) (rget_rsetf_other _ _ _ _ (by decide))
  obtain ⟨r, hr⟩ : OnlyRegs (tstop { s with i3c := {} } .i3cTx) (queuesEmptied s) := (rxView_onlyRegs _).rset _ _
  refine ⟨by rw [hr]; rfl, by rw [hr]; rfl, ?_, ?_, ?_⟩
  · rw [hr]
    exact tget_tstop_same { s with i3c := {} } .i3cTx
  · rw [hcount, rfld_rxView_count]
    rfl
  · exact rfld_rsetf_same _ _ _ (by decide)

end Sys2Proof.Machine

open Sys2Proof Sys2Proof.Machine

/-- Settles O37, by whom a command code reaches and what it does there. -/
theorem i3cCommonCommands : Obligations.I3cCommonCommands := by
  refine ⟨?events, ?rstdaa, ?entdaa, ?setdasa, ?setnewda, ?setLengths, ?get, ?rstactQueues, ?rstactOther, ?lengthOut, ?assigned, ?unheard⟩
  case events => exact fun s e all hup ha => ⟨cccOf_reaches hup ha, cccOf_reaches hup ha⟩
  case rstdaa => exact fun s hup ha => (rstdaa_directed s).trans (directed_reaches hup ha)
  case entdaa => exact fun s a hup hn ha => entdaa_unassigned hup hn ha
  case setdasa => exact fun s a hup hn ha => setdasa_own hup hn ha
  case setnewda => exact fun s a hup hs ha => setnewda_assigned hup hs ha
  case setLengths =>
    intro s n all hup ha hlo hhi
    have hok : lenOk n = true := lenOk_iff.mpr ⟨hlo, hhi⟩
    exact ⟨(cccOf_reaches hup ha).trans (done_congr (if_pos hok)), (cccOf_reaches hup ha).trans (done_congr (if_pos hok))⟩
  case get =>
    intro s hup ha
    change execGetmwl s = _ ∧ execGetmrl s = _ ∧ execGetpid s = _ ∧ execGetbcr s = _ ∧ execGetdcr s = _ ∧ execGetstatus s = _
    exact ⟨directed_reaches hup ha, directed_reaches hup ha, directed_reaches hup ha, directed_reaches hup ha, directed_reaches hup ha,
      directed_reaches hup ha⟩
  case rstactQueues =>
    intro s all hup ha
    exact ⟨_, rstact_queues s hup ha, queuesEmptied_facts s⟩
  case rstactOther => exact fun s e all he => cccOf_fixed all (if_pos he)
  case lengthOut =>
    exact fun s n all hn => ⟨cccOf_fixed all (if_neg (lenOk_false hn)), cccOf_fixed all (if_neg (lenOk_false hn))⟩
  case assigned => exact fun s a sa h => ⟨setdasa_other a h, entdaa_assigned a⟩
  case unheard =>
    intro s e a h
    change execEnec _ s = _ ∧ execDisec _ s = _ ∧ execRstdaa s = _ ∧ execSetnewda a s = _ ∧ execSetmwl _ s = _ ∧ execSetmrl _ s = _ ∧
      execGetmwl s = _ ∧ execGetmrl s = _ ∧ execGetpid s = _ ∧ execGetbcr s = _ ∧ execGetdcr s = _ ∧ execGetstatus s = _ ∧
      execRstact _ s = _
    exact ⟨cccOf_misses h, cccOf_misses h, (rstdaa_directed s).trans (directed_misses h), directed_misses h, cccOf_misses h,
      cccOf_misses h, directed_misses h, directed_misses h, directed_misses h, directed_misses h, directed_misses h, directed_misses h,
      cccOf_misses h⟩

end

section
/-! PROOFS. Proofs: the push aperture of the PCIe endpoint and the end of a push (R295, R296, R301, R363). -/
namespace Sys2Proof.Machine

/-! ### Writes of the push aperture (R301, R363) -/

section
variable {s : State} {off : Nat} {bs : List (Option Byte)} (hup : pciUp s = true)
include hup

/-- A write of PUSH_STATUS that differs from what it shows leaves its record only (R16). -/
theorem pushApertureWrite_status (hlen : bs.length = 4)
    (hne : BitVec.ofNat 32 (leNat (bs.map (·.getD 0))) ≠ rget (wakeFor s 2) (romReg 0x118)) :
    exec (.pushApertureWrite 0x400008 bs) s =
      done (busLog (wakeFor s 2) ⟨0x10, false⟩ true 0 4 (BitVec.ofNat 32 (leNat (bs.map (·.getD 0)))) .readOnly) := by
  refine congrArg done ((if_neg (by simp [hup])).trans ((if_pos ⟨rfl, hlen⟩).trans ((if_neg hne).trans ?_)))
  rw [hlen]

/-- A write that ends before PUSH_STATUS goes to boot SRAM, to the length or to PUSH_GO, or it is refused. -/
theorem pushApertureWrite_below (hoff : off < 0x400008) (hend : off + bs.length ≤ 0x400008) :
    exec (.pushApertureWrite off bs) s = done (
      if mayPush (wakeFor s 2) 1 ∧ off + bs.length ≤ 0x400000 then pushBytes (wakeFor s 2) 1 off bs
      else if mayPush (wakeFor s 2) 1 ∧ off = 0x400000 then
        ownPush { wakeFor s 2 with pushLen := BitVec.ofNat 32 (leNat (bs.map (·.getD 0))) &&& 0x007FFFFF } 1
      else if off = 0x400004 then wakeFor s 2
      else report (rcount (wakeFor s 2) (reg .pci 0 0x058) 15 0 1) .pci 0 0x1103 0 3) :=
  have hstatus : ¬ (off = 0x400008 ∧ bs.length = 4) := by omega
  have hreserved : ¬ (off ≥ 0x400008 ∨ off + bs.length > 0x400008) := by omega
  congrArg done ((if_neg (by simp [hup])).trans ((if_neg hstatus).trans (if_neg hreserved)))

/-- PCIe's bytes. -/
theorem pushApertureWrite_bytes (hmay : mayPush (wakeFor s 2) 1 = true) (hend : off + bs.length ≤ 0x400000) :
    exec (.pushApertureWrite off bs) s = done (pushBytes (wakeFor s 2) 1 off bs) := by
  rw [pushApertureWrite_below hup (by omega) (by omega), if_pos ⟨hmay, hend⟩]

/-- The length of PCIe's push. -/
theorem pushApertureWrite_length (hmay : mayPush (wakeFor s 2) 1 = true) (hne : 0 < bs.length) (hlen : bs.length ≤ 8) :
    exec (.pushApertureWrite 0x400000 bs) s = done
      (ownPush { wakeFor s 2 with pushLen := BitVec.ofNat 32 (leNat (bs.map (·.getD 0))) &&& 0x007FFFFF } 1) := by
  rw [pushApertureWrite_below hup (by omega) (by omega), if_neg (by omega), if_pos ⟨hmay, rfl⟩]

/-- A write while PCIe may not push. -/
theorem pushApertureWrite_refused (hmay : mayPush (wakeFor s 2) 1 = false) (hgo : off ≠ 0x400004) (hoff : off < 0x400008)
    (hend : off + bs.length ≤ 0x400008) :
    exec (.pushApertureWrite off bs) s = done (report (rcount (wakeFor s 2) (reg .pci 0 0x058) 15 0 1) .pci 0 0x1103 0 3) := by
  have hn (p : Prop) : ¬ (mayPush (wakeFor s 2) 1 = true ∧ p) := by simp [hmay]
  rw [pushApertureWrite_below hup hoff hend, if_neg (hn _), if_neg (hn _), if_neg hgo]

end

/-! ### PUSH_GO (R296, R301) -/

section
variable {s : State} {d : Word} (env : RomEnv) (hon : pageOn s .pci 0 = true)
include hon

theorem execPushGo_refused (hmay : mayPush s 1 = false) :
    exec (.pushGo d env) s = done (report (rcount s (reg .pci 0 0x058) 15 0 1) .pci 0 0x1103 0 3) :=
  congrArg done ((if_neg (by simp [hon])).trans (if_pos (by simp [hmay])))

theorem execPushGo_unkeyed (hmay : mayPush s 1 = true) (h : fld d 31 16 ≠ 0xA5C3 ∨ bit d 0 = false) :
    exec (.pushGo d env) s = done s :=
  congrArg done ((if_neg (by simp [hon])).trans ((if_neg (by simp [hmay])).trans (if_pos (by simpa using h))))

/-- The key and the go bit end PCIe's push. -/
theorem execPushGo_keyed (hmay : mayPush s 1 = true) (hkey : fld d 31 16 = 0xA5C3) (hgo : bit d 0 = true) :
    exec (.pushGo d env) s = done (pushGo s 1 env).1 :=
  congrArg done ((if_neg (by simp [hon])).trans ((if_neg (by simp [hmay])).trans (if_neg (by simp [hkey, hgo]))))

end

/-- The state in which source `src` has ended its push: it owns the window, and BOOT_PUSH_LEN shows the length. -/
def pushEnded (s : State) (src : Nat) : State := rset (ownPush s src) (romReg 0x11C) s.pushLen

/-- A push whose length is none of a bundle's. -/
theorem pushGo_badLength {s : State} (src : Nat) (env : RomEnv)
    (h : s.pushLen.toNat = 0 ∨ s.pushLen.toNat > 0x400000 ∨ s.pushLen.toNat % 64 ≠ 0) :
    pushGo s src env = (rsetf (report (pushEnded s src) .rom 0 0x013E 0 3) (romReg 0x118) 31 16 0x013E, 0x013E) := if_pos h

section
variable {s t : State} {src len : Nat} {env : RomEnv} {b : Bytes} {x : RomRun} (ht : t = pushEnded s src)
  (hlen : len = s.pushLen.toNat) (hok : 0 < len ∧ len ≤ 0x400000 ∧ len % 64 = 0) (hb : b = memRead t.bootSram 0 len)
  (hx : x = peekRec (romRun t env 0) env)
include ht hlen hok hb hx

/-- A bundle that passes its checks is started from its source's slot (R296). -/
theorem pushGo_boots (h : bundleBad x.s b len (x.rc.map (·.minVersion)) (!rbit x.s (romReg 0x050) 3) false = none) :
    pushGo s src env =
      (bootFrom { x with s := rsetb x.s (romReg 0x118) 0 false } env b (src + 2) (!decide (s.sage = .window true)) false, 0) := by
  have hlenOk : ¬ (len = 0 ∨ len > 0x400000 ∨ len % 64 ≠ 0) := by omega
  subst hlen hb hx ht
  simp only [pushEnded] at h
  simp only [pushGo, if_neg hlenOk, h]
  rfl

/-- A bundle that fails a check is rejected with its code, its bytes are zeroed and the window opens again (R296). -/
theorem pushGo_rejected {code : Nat}
    (h : bundleBad x.s b len (x.rc.map (·.minVersion)) (!rbit x.s (romReg 0x050) 3) false = some code) :
    pushGo s src env =
      (rsetf (openPush (rejectAs (bootZeroed x.s (if code = 0x0130 then len else fieldLe b 8 4)) code (src + 2))
        (decide (s.sage = .window true))) (romReg 0x118) 31 16 code, code) := by
  have hlenOk : ¬ (len = 0 ∨ len > 0x400000 ∨ len % 64 ≠ 0) := by omega
  subst hlen hb hx ht
  simp only [pushEnded] at h
  simp only [pushGo, if_neg hlenOk, h]
  rfl

end

end Sys2Proof.Machine

open Sys2Proof Sys2Proof.Machine

/-- Settles O27, by where a write of the aperture goes and how the check of a pushed bundle ends the push. -/
theorem pushWindow : Obligations.PushWindow := by
  refine ⟨?bytes, ?length, ?refused, ?status, ?goRefused, ?unkeyed, ?badLength, ?checked⟩
  case bytes =>
    rintro s _ off bs hup rfl hmay hend
    exact pushApertureWrite_bytes hup hmay hend
  case length =>
    rintro s _ bs hup rfl hmay hne hlen
    exact pushApertureWrite_length hup hmay hne hlen
  case refused =>
    rintro s _ off bs hup rfl hmay hgo hoff hend
    exact pushApertureWrite_refused hup hmay hgo hoff hend
  case status =>
    rintro s _ bs _ hup rfl hlen rfl hne
    exact pushApertureWrite_status hup hlen hne
  case goRefused => exact fun s d env hon hmay => execPushGo_refused env hon hmay
  case unkeyed => exact fun s d env hon hmay h => execPushGo_unkeyed env hon hmay h
  case badLength =>
    rintro s d env _ hon hmay hkey hgo rfl h
    rw [execPushGo_keyed env hon hmay hkey hgo, pushGo_badLength 1 env h]
    rfl
  case checked =>
    intro s t d env len b x hon hmay hkey hgo hlen hne hmax hal hwin ht hb hx
    have hok : 0 < len ∧ len ≤ 0x400000 ∧ len % 64 = 0 := ⟨hne, hmax, hal⟩
    have hsram : b = memRead t.bootSram 0 len := by rw [hb, ht]; rfl
    rw [execPushGo_keyed env hon hmay hkey hgo]
    refine done_congr ?_
    cases h : bundleBad x.s b len (x.rc.map (·.minVersion)) (!rbit x.s (reg .rom 0 0x050) 3) false with
    | none => rw [pushGo_boots ht hlen hok hsram hx h, hwin]; rfl
    | some code => rw [pushGo_rejected ht hlen hok hsram hx h, hwin]; rfl

end

section
/-! PROOFS. Proofs: how a frame for this node reaches its effect (R409 to R412, R415). -/
namespace Sys2Proof.Machine

/-! ### A frame that arrives (R409, R415) -/

/-- The start of a frame restarts a duration and counts in a register of its side; nothing else changes. -/
theorem frameHeard_frame (s : State) (x : Nat) :
    (frameHeard s x).sides = s.sides ∧ (frameHeard s x).peers = s.peers ∧ (frameHeard s x).incarnation = s.incarnation := by
  unfold frameHeard
  split <;> exact ⟨rfl, rfl, rfl⟩

theorem rget_frameHeard_other (s : State) {x a : Nat} (h : a ≠ reg .lms x 0x04C) : rget (frameHeard s x) a = rget s a := by
  refine (rget_rsetf_other _ _ _ _ h).trans ?_
  split <;> rfl

/-- Pages below those of the ring lie apart from its registers (R68). -/
theorem lmsReg_above {a : Nat} (x o : Nat) (h : a < 0x014000) : a ≠ reg .lms x o := by simp only [reg, pageBase]; omega

theorem myNode_frameHeard (s : State) (x : Nat) : myNode (frameHeard s x) = myNode s :=
  congrArg (fld · 9 4) (rget_frameHeard_other s (lmsReg_above x _ (by decide)))
theorem pwrState_frameHeard (s : State) (x : Nat) : pwrState (frameHeard s x) = pwrState s :=
  congrArg (fld · 2 0) (rget_frameHeard_other s (lmsReg_above x _ (by decide)))
theorem side_frameHeard (s : State) (x y : Nat) : side (frameHeard s x) y = side s y := by
  rw [side, side, (frameHeard_frame s x).1]

/-- What `reaches` says. -/
theorem reaches_iff {s : State} {x : Nat} {f : Frame17} :
    reaches s x f = true ↔ sideOn s x = true ∧ sideUp s x = true ∧ frameOk f = true ∧ (side s x).wrapped = false ∧
      f.dst = myNode s ∧ pwrState s = 0 ∧ f.type ≠ 1 ∧ f.type ≠ 2 ∧ f.type ≠ 3 := by
  simp only [reaches, Bool.and_eq_true, Bool.not_eq_true', decide_eq_true_eq, and_assoc]

/-- A frame that reaches this node is addressed to it. -/
theorem receive_reaches {s : State} {x : Nat} {f : Frame17} (inp : LmsIn) (h : reaches s x f = true) :
    receive s x f inp = addressedIn (frameHeard s x) f inp := by
  obtain ⟨hon, hup, hok, hwrap, hdst, -, h1, h2, h3⟩ := reaches_iff.mp h
  have hup' : sideUp (frameHeard s x) x = true := by rw [sideUp, side_frameHeard]; exact hup
  have hwrap' : (side (frameHeard s x) x).wrapped = false := by rw [side_frameHeard]; exact hwrap
  have hdst' : f.dst = myNode (frameHeard s x) := hdst.trans (myNode_frameHeard s x).symm
  have hheard : rcount (heard s x) (sideReg x 0x04C) 31 0 1 = frameHeard s x := rfl
  simp only [receive, hheard, hon, hok, hup', hwrap', ← hdst', h1, h2, h3, Bool.not_true, Bool.false_eq_true, if_false, if_true]

/-- A frame of a row's type arrives as it is. -/
theorem arrive_of_type {type x : Nat} {f : Frame17} (inp : LmsIn) (s : State) (h : f.type = type) :
    arrive type x f inp s = done (ringNote s (receive s x f inp)) := by
  subst h
  rfl

/-! ### Reliable delivery (R411, R412) -/

/-- The next frame of its source has its effect, and then those held behind it. -/
theorem reliableIn_next {s : State} {f : Frame17} (inp : LmsIn) (hinc : f.dstInc = 0 ∨ f.dstInc = s.incarnation)
    (hseq : f.seq = (peer s f.src).rxNext) :
    reliableIn s f inp = takeHeld f.src 8 (deliverFrame (orderTaken s f) f inp) := by
  have hthis : ¬ (f.dstInc ≠ 0 ∧ f.dstInc ≠ s.incarnation) := by omega
  exact (if_neg hthis).trans (if_pos hseq)

/-- What `isNext` says. -/
theorem isNext_iff {s : State} {x : Nat} {f : Frame17} :
    isNext s x f = true ↔ reaches s x f = true ∧ reliable f.type = true ∧ (f.dstInc = 0 ∨ f.dstInc = s.incarnation) ∧
      f.seq = (peer (frameTaken s x f) f.src).rxNext ∧ (frameTaken s x f).incarnation = s.incarnation := by
  simp only [isNext, Bool.and_eq_true, Bool.or_eq_true, decide_eq_true_eq, and_assoc]

/-- The device is not in Rest, so that no frame has to wake it. -/
theorem awake_of_reaches {s : State} {x : Nat} {f : Frame17} (h : reaches s x f = true) (p : Prop) :
    ¬ (pwrState (frameHeard s x) ≠ 0 ∧ p) := by
  obtain ⟨-, -, -, -, -, hrun, -⟩ := reaches_iff.mp h
  simp [pwrState_frameHeard, hrun]

/-- The next reliable frame of its source, but a PUSH_RSP, has its effect once its acknowledgement is taken. -/
theorem arrive_next {s : State} {type x : Nat} {f : Frame17} (inp : LmsIn) (h : isNext s x f = true) (htype : f.type = type)
    (hne : type ≠ 0x42) :
    arrive type x f inp s = done (afterFrame s f (deliverFrame (inOrder s x f) f inp)) := by
  obtain ⟨hreach, hrel, hinc, hseq, hsame⟩ := isNext_iff.mp h
  have hnext : reliableIn (frameTaken s x f) f inp = takeHeld f.src 8 (deliverFrame (inOrder s x f) f inp) :=
    reliableIn_next inp (by rwa [hsame]) hseq
  have hin : addressedIn (frameHeard s x) f inp = reliableIn (frameTaken s x f) f inp := by
    unfold addressedIn
    rw [if_neg (awake_of_reaches hreach _), if_neg (htype ▸ hne)]
    exact if_pos hrel
  rw [arrive_of_type inp s htype, receive_reaches inp hreach, hin, hnext]
  rfl

/-- A PUSH_RSP has its effect before its acknowledgement is taken (R424). -/
theorem arrive_pushRsp {s : State} {x : Nat} {f : Frame17} (inp : LmsIn) (h : reaches s x f = true) (htype : f.type = 0x42)
    (hinc : f.dstInc = 0 ∨ f.dstInc = s.incarnation) (hseq : f.seq = (peer (frameHeard s x) f.src).rxNext) :
    arrive 0x42 x f inp s =
      done (ringNote s (ackIn (takeHeld f.src 8 (deliverFrame (orderTaken (frameHeard s x) f) f inp)) f)) := by
  have hnext := reliableIn_next inp (s := frameHeard s x) (by rwa [(frameHeard_frame s x).2.2]) hseq
  have hin : addressedIn (frameHeard s x) f inp = ackIn (reliableIn (frameHeard s x) f inp) f := by
    unfold addressedIn
    rw [if_neg (awake_of_reaches h _)]
    exact if_pos htype
  rw [arrive_of_type inp s htype, receive_reaches inp h, hin, hnext]

end Sys2Proof.Machine

end

section
/-! PROOFS. Proofs: pushes over the ring at their target and bulk channels at node 0 (R295, R296, R424, R425, R429, R430). -/
namespace Sys2Proof.Machine

/-! ### Delivery by type (R408) -/

section
variable {f : Frame17} (s : State) (inp : LmsIn)

theorem deliverFrame_regRsp (h : f.type = 0x12) : deliverFrame s f inp = regRspIn s f := by simp only [deliverFrame, h]
theorem deliverFrame_pushData (h : f.type = 0x40) : deliverFrame s f inp = pushDataIn s f := by simp only [deliverFrame, h]
theorem deliverFrame_pushCtrl (h : f.type = 0x41) : deliverFrame s f inp = pushCtrlIn s f inp.rom := by simp only [deliverFrame, h]
theorem deliverFrame_pushRsp (h : f.type = 0x42) : deliverFrame s f inp = pushRspIn s f := by simp only [deliverFrame, h]

end

/-! ### A push at its target (R295, R296, R424) -/

theorem lmsPushOk_iff {s : State} : lmsPushOk s = true ↔ mayPush s 2 = true ∧ rbit s (reg .lms 0 0x084) 13 = true := by
  simp only [lmsPushOk, Bool.and_eq_true, lms]

/-- A PUSH_DATA is stored, or refused with what BOOT_PUSH_STATUS shows. -/
theorem pushDataIn_eq (s : State) (f : Frame17) :
    pushDataIn s f =
      if mayPush s 2 = true ∧ rbit s (reg .lms 0 0x084) 13 = true ∧
          fieldLe f.payload 0 4 + (f.payload.drop 4).length ≤ 0x400000 then
        pushBytes s 2 (fieldLe f.payload 0 4) ((f.payload.drop 4).map some)
      else answerFrame s f 0x42 ([0x07, 0x14] ++ leBytes 2 (rfld s (romReg 0x118) 31 16)) := by
  have hrefused : ((!lmsPushOk s) = true ∨ fieldLe f.payload 0 4 + (f.payload.drop 4).length > 0x400000) ↔
      ¬ (mayPush s 2 = true ∧ rbit s (reg .lms 0 0x084) 13 = true ∧ fieldLe f.payload 0 4 + (f.payload.drop 4).length ≤ 0x400000) := by
    rw [← and_assoc, ← lmsPushOk_iff, Decidable.not_and_iff_or_not, Bool.not_eq_true, Nat.not_le, Bool.not_eq_true']
  exact (ite_congr (propext hrefused) (fun _ => rfl) fun _ => rfl).trans (ite_not ..)

/-- A PUSH_CTRL sets the length and, with its key, ends the push, or it is refused. -/
theorem pushCtrlIn_eq (s : State) (f : Frame17) (env : RomEnv) :
    pushCtrlIn s f env =
      if mayPush s 2 = true ∧ rbit s (reg .lms 0 0x084) 13 = true then
        let u := { ownPush s 2 with pushLen := wordAtLe f.payload 0 }
        if wordAtLe f.payload 1 = 0xA5C30001 then
          let g := pushGo u 2 env
          answerFrame g.1 f 0x42 ([0, 0] ++ leBytes 2 g.2)
        else answerFrame u f 0x42 ([0, 0] ++ leBytes 2 (rfld u (romReg 0x118) 31 16))
      else answerFrame s f 0x42 ([0x07, 0x14] ++ leBytes 2 (rfld s (romReg 0x118) 31 16)) := by
  have hrefused : (!lmsPushOk s) = true ↔ ¬ (mayPush s 2 = true ∧ rbit s (reg .lms 0 0x084) 13 = true) := by
    rw [← lmsPushOk_iff, Bool.not_eq_true, Bool.not_eq_true']
  have hkeyed (v w : State) : (if wordAtLe f.payload 1 ≠ 0xA5C30001 then v else w) = if wordAtLe f.payload 1 = 0xA5C30001 then w else v :=
    ite_not ..
  refine (ite_congr (propext hrefused) (fun _ => rfl) fun _ => hkeyed _ _).trans (ite_not ..)

/-! ### The end and the progress of a channel (R424, R425, R430) -/

/-- A PUSH_RSP of no busy channel. -/
theorem pushRspIn_none {s : State} {f : Frame17} (h : pushChannel s f.src = none) : pushRspIn s f = staleItem s 0 := by
  simp only [pushRspIn, h]

/-- A PUSH_RSP of a channel ends it, unless it is of an earlier generation. -/
theorem pushRspIn_channel {s : State} {f : Frame17} {c : Nat} (h : pushChannel s f.src = some c) :
    pushRspIn s f = if (bulk s c).any fun b => decide (b.gen = (inst s 0).gen) then
        bulkEnd s c (if fieldLe f.payload 0 2 ≠ 0 then fieldLe f.payload 0 2 else fieldLe f.payload 2 2)
      else staleItem s 0 := by
  simp only [pushRspIn, h]

section
variable {s : State} {c : Nat} {b : Bulk} (h : bulk s c = some b)
include h

/-- The end of a busy channel: no frame of a PUSH waits any more, and answers still owed find no transfer. -/
theorem bulkEnd_busy (code : Nat) :
    bulkEnd s c code =
      let t := if b.kind = 1 then
          setPeer s b.node { peer s b.node with
            queue := (peer s b.node).queue.filter fun f => !(f.type == 0x40 || f.type == 0x41) }
        else s
      let t := tstop (setBulk t c none) (.bulk c)
      let t := { t with raReqs := t.raReqs.map fun r => if r.bulk.any (fun b => b.1 == c) then { r with bulk := some (c, 256) } else r }
      irq (rset t (lms (0x0D4 + 32 * c)) (mk 1 1 1 ||| mk 15 8 b.gen ||| mk 31 16 code)) .lms 0 7 := by
  simp only [bulkEnd, h]

/-- A busy channel's bytes are counted and its time starts again; it ends with 0 when all have moved and nothing is left to wait for. -/
theorem bulkMoved_busy (n : Nat) :
    bulkMoved s c n =
      let t := tset (rcount s (lms (0x0D8 + 32 * c)) 22 0 n) (.bulk c) (ms 1000)
      if rfld t (lms (0x0D8 + 32 * c)) 22 0 < b.len ∨ (b.kind = 1 ∧ b.finish) then t else bulkEnd t c 0 := by
  simp only [bulkMoved, h]

/-- A REG_RSP of a busy channel's transfer. -/
theorem regRspIn_bulk {f : Frame17} {r : RaReq} {e : Nat} (hreq : s.raReqs.find? (fun q => decide (q.node = f.src)) = some r)
    (hbulk : r.bulk = some (c, e)) (hgen : b.gen = e) (hinst : (inst s 0).gen = e) :
    regRspIn s f =
      let u := { s with raReqs := s.raReqs.eraseP fun q => decide (q.node = f.src) }
      if fieldLe f.payload 0 2 ≠ 0 then bulkEnd u c (fieldLe f.payload 0 2)
      else
        let d := sliceZ (f.payload.drop 4) 0 (4 * r.words)
        bulkMoved (emit u (.host 0 (b.haddr + rfld u (lms (0x0D8 + 32 * c)) 22 0) d)) c d.length := by
  have hthis : ¬ (b.gen ≠ e ∨ (inst s 0).gen ≠ e) := by simp [hgen, hinst]
  have hu : bulk { s with raReqs := s.raReqs.eraseP fun q => decide (q.node = f.src) } c = some b := h
  simp only [regRspIn, hreq, hbulk, hu]
  exact if_neg hthis

end

/-! ### Fields beside the one that a command writes -/

theorem bit_setFld_other (w : Word) {hi lo i : Nat} (v : Nat) (h : i < 32) (hd : i < lo ∨ hi < i) :
    bit (setFld w hi lo v) i = bit w i := by
  rw [bit, getLsbD_setFld _ _ _ _ _ h, if_neg (by omega), bit]

/-- The word of a start of kind `k`: its kind, and the fields of `d` beside it. -/
theorem bulkWord_fields (d : Word) {k : Nat} (hk : k < 4) :
    fld (withField d 1 0 k) 1 0 = k ∧ fld (withField d 1 0 k) 13 8 = fld d 13 8 ∧ fld (withField d 1 0 k) 31 16 = fld d 31 16 ∧
    bit (withField d 1 0 k) 2 = bit d 2 ∧ bit (withField d 1 0 k) 14 = bit d 14 :=
  ⟨(fld_setFld_same d k (by decide)).trans (Nat.mod_eq_of_lt hk), fld_setFld_other d k (by decide) (by decide),
    fld_setFld_other d k (by decide) (by decide), bit_setFld_other d k (by decide) (by decide),
    bit_setFld_other d k (by decide) (by decide)⟩

/-! ### A start that reaches LMS_BULKc_CTRL (R14, R73, R79) -/

/-- A record of the bus error log changes no register beyond the CAP page (R68). -/
theorem rget_busLog_beyond (s : State) (a : Acc) (write : Bool) (off size : Nat) (w : Word) (c : Cause) {r : Nat} (h : 4096 ≤ r) :
    rget (busLog s a write off size w c) r = rget s r := by
  cases hup : pageUp s .cap 0 with
  | false => rw [busLog, hup]; rfl
  | true =>
    have hentry : rfld s berrStatus 11 8 < 16 := Nat.mod_lt _ (by decide)
    have hword : ∀ j < 4, r ≠ berrWord (rfld s berrStatus 11 8) j := by
      intro j hj
      simp only [berrWord, reg, pageBase]
      omega
    have hirq : r ≠ reg .cap 0 0x010 := by simp only [reg, pageBase]; omega
    have hstatus : r ≠ berrStatus := by simp only [berrStatus, reg, pageBase]; omega
    rw [rget_busLog_up hup _ _ _ _ _ _ hirq, berrLogged, rget_berrCount_other _ hstatus]
    simp only [berrStore, rget_rset, hword 0 (by decide), hword 1 (by decide), hword 2 (by decide), hword 3 (by decide), if_false]

/-- A served write's record changes registers only, and none beyond the CAP page. -/
theorem noted_onlyRegs (s : State) (a : Acc) (k : PageKind) (i o : Nat) (w : Word) : OnlyRegs s (noted s a k i o w) := by
  unfold noted
  split
  · exact .refl s
  · exact busLog_onlyRegs ..

theorem rget_noted_beyond (s : State) (a : Acc) (k : PageKind) (i o : Nat) (w : Word) {r : Nat} (h : 4096 ≤ r) :
    rget (noted s a k i o w) r = rget s r := by
  unfold noted
  split
  · rfl
  · exact rget_busLog_beyond _ _ _ _ _ _ _ h

@[simp] theorem bulk_noted (s : State) (a : Acc) (k : PageKind) (i o : Nat) (w : Word) (c : Nat) :
    bulk (noted s a k i o w) c = bulk s c := by
  rw [(noted_onlyRegs s a k i o w).eq]
  rfl

@[simp] theorem dups_noted (s : State) (a : Acc) (k : PageKind) (i o : Nat) (w : Word) : (noted s a k i o w).dups = s.dups := by
  rw [(noted_onlyRegs s a k i o w).eq]

@[simp] theorem myNode_noted (s : State) (a : Acc) (k : PageKind) (i o : Nat) (w : Word) : myNode (noted s a k i o w) = myNode s :=
  congrArg (fld · 9 4) (rget_noted_beyond s a k i o w (by decide))

@[simp] theorem rfld_lms_noted (s : State) (a : Acc) (k : PageKind) (i o : Nat) (w : Word) (r hi lo : Nat) :
    rfld (noted s a k i o w) (lms r) hi lo = rfld s (lms r) hi lo :=
  congrArg (fld · hi lo) (rget_noted_beyond s a k i o w (by simp only [lms, reg, pageBase]; omega))

/-- The write of LMS_BULKc_CTRL as its block sees it. -/
def bulkCtx (s : State) (a : Acc) (c : Nat) (w : Word) : WCtx :=
  ⟨a, lms (0x0D0 + 32 * c), w, shown s .lms 0 (0x0D0 + 32 * c), takenWord s .lms 0 (0x0D0 + 32 * c) w, pageLocked s .lms 0⟩

theorem bulkCtx_off (s : State) (a : Acc) {c : Nat} (w : Word) (hc : c < 4) : (bulkCtx s a c w).off % 4096 = 0x0D0 + 32 * c :=
  reg_mod .lms 0 (by omega)

/-- The row of a channel's LMS_BULKc_CTRL. -/
theorem rowAt_bulkCtrl {c : Nat} (hc : c < 4) : rowAt .lms 0 (0x0D0 + 32 * c) =
    some { name := "LMS_BULKc_CTRL", base := 0x0D0, stride := 32, count := 4, wo := 0xFFFF7F07 } := by
  match c, hc with
  | 0, _ | 1, _ | 2, _ | 3, _ => decide

/-- A write of a channel's control register is a start of that channel. -/
theorem lmsWrite_bulkCtrl (s t : State) (a : Acc) {c : Nat} (w : Word) (mem : Option Bytes) (hc : c < 4) :
    lmsWrite 0 mem t (bulkCtx s a c w) = bulkWrite t c (bulkCtx s a c w) mem := by
  have hlow : ¬ 0x0D0 + 32 * c = 0x044 ∧ ¬ 0x0D0 + 32 * c = 0x084 ∧ ¬ 0x0D0 + 32 * c = 0x09C := by omega
  have hin : 0x0C0 ≤ 0x0D0 + 32 * c ∧ 0x0D0 + 32 * c < 0x140 := by omega
  have hkind : (0x0D0 + 32 * c) % 32 = 0x10 := by omega
  have hch : (0x0D0 + 32 * c - 0x0C0) / 32 = c := by omega
  simp only [lmsWrite, bulkCtx_off s a w hc, hlow, hin, hkind, hch, if_false, and_self, if_true]

/-- A start of channel `c` that its page serves. -/
theorem bulkCmd_served {s : State} {a : Acc} {c : Nat} (k : Nat) (d : Word) (mem : Option Bytes) (hc : c < 4)
    (h : served s a .lms 0 (0x0D0 + 32 * c) = true) :
    bulkCmd a c k d { blob := mem } s =
      done (bulkWrite (noted s a .lms 0 (0x0D0 + 32 * c) (withField d 1 0 k)) c (bulkCtx s a c (withField d 1 0 k)) mem) := by
  refine congrArg done ?_
  rw [busWrite_noted (coreStores_none s _ rfl rfl) h (rowAt_bulkCtrl hc) (by omega) (by omega) (by decide) (by simp),
    markOnce_plain (by decide)]
  exact lmsWrite_bulkCtrl _ _ _ _ _ hc

/-! ### What a start does (R424, R425, R429, R430) -/

/-- The registers of a channel. -/
theorem lms_bulkOff (c : Nat) : lms (0x0C0 + 32 * c) + 8 = lms (0x0C8 + 32 * c) := by simp only [lms, reg]; omega
theorem lms_bulkLen (c : Nat) : lms (0x0C0 + 32 * c) + 12 = lms (0x0CC + 32 * c) := by simp only [lms, reg]; omega

/-- Channel `c` runs as `b`: busy with its generation, nothing done, and its time started. -/
def bulkOpened (s : State) (c : Nat) (b : Bulk) : State :=
  let t := rset (rset (setBulk s c (some b)) (lms (0x0D4 + 32 * c)) (mk 0 0 1 ||| mk 15 8 b.gen)) (lms (0x0D8 + 32 * c)) 0
  tset { t with issued := (0, b.gen, t.tbTime, 65536 + c) :: t.issued } (.bulk c) (ms 1000)

/-- The frames of a PUSH of the bytes read from host memory; a read that fails ends the channel. -/
def pushFrames (s : State) (c : Nat) (b : Bulk) : Option Bytes → State
  | none => bulkEnd s c 0x0D04
  | some m =>
    let data (k : Nat) : Bytes := ((sliceZ m 0 b.len).drop (256 * k)).take 256
    let t := (List.range ((b.len + 255) / 256)).foldl (fun t k => sendFrame t b.node 0x40 (leBytes 4 (b.off + 256 * k) ++ data k)) s
    if b.finish then sendFrame t b.node 0x41 (leBytes 4 (b.off + b.len) ++ leBytes 4 0xA5C30001) else t

/-- The accesses and frames of a FETCH. -/
def fetchFrames (s : State) (c : Nat) (b : Bulk) : State :=
  let words (k : Nat) : Nat := min 64 ((b.len - 256 * k) / 4)
  (List.range ((b.len + 255) / 256)).foldl (fun t k =>
    sendFrame { t with raReqs := t.raReqs ++ [{ node := b.node, bulk := some (c, b.gen), words := words k }] } b.node 0x10
      (leBytes 4 (b.off + 256 * k) ++ leBytes 1 (words k))) s

/-- The transfer that a start of kind `k` with the word `d` asks for. -/
def bulkAsked (s : State) (c k : Nat) (d : Word) : Bulk :=
  { kind := k, node := fld d 13 8, finish := bit d 2, haddr := addr64 s (lms (0x0C0 + 32 * c)),
    off := rfld s (lms (0x0C8 + 32 * c)) 23 0, len := rfld s (lms (0x0CC + 32 * c)) 22 0, gen := (inst s 0).gen }

section
variable {s : State} {ch : Nat} {c : WCtx} (mem : Option Bytes)

theorem bulkWrite_busy (h : bulk s ch ≠ none) : bulkWrite s ch c mem = busyW s c :=
  if_pos (Option.isSome_iff_ne_none.mpr h)

variable (hfree : bulk s ch = none)
include hfree

/-- A start without its key, without bit 14 or outside the limits. -/
theorem bulkWrite_refused (h : fld c.data 31 16 ≠ 0xA5C3 ∨ bit c.data 14 = false ∨
      ¬ bulkOk s (fld c.data 1 0) (rfld s (lms (0x0C8 + 32 * ch)) 23 0) (rfld s (lms (0x0CC + 32 * ch)) 22 0) (fld c.data 13 8) = true) :
    bulkWrite s ch c mem = refuseW s .lms 0 0x1408 c := by
  refine (if_neg (by simp [hfree])).trans (if_pos ?_)
  simpa only [lms_bulkOff, lms_bulkLen, Bool.not_eq_true', Bool.not_eq_true] using h

/-- A keyed start within its limits opens its channel and sends its frames, but to a node that has a duplicate. -/
theorem bulkWrite_starts {k : Nat} {b : Bulk} (hkey : fld c.data 31 16 = 0xA5C3) (hgo : bit c.data 14 = true)
    (hkind : fld c.data 1 0 = k) (hb : b = bulkAsked s ch k c.data) (hok : bulkOk s k b.off b.len b.node = true) :
    bulkWrite s ch c mem =
      if s.dups.contains b.node then bulkEnd (bulkOpened s ch b) ch 0x1406
      else if k = 2 then fetchFrames (bulkOpened s ch b) ch b else pushFrames (bulkOpened s ch b) ch b mem := by
  subst hb hkind
  have htakes : ¬ (fld c.data 31 16 ≠ 0xA5C3 ∨ (!bit c.data 14) = true ∨ (!bulkOk s (fld c.data 1 0)
      (rfld s (lms (0x0C0 + 32 * ch) + 8) 23 0) (rfld s (lms (0x0C0 + 32 * ch) + 12) 22 0) (fld c.data 13 8)) = true) := by
    rw [lms_bulkOff, lms_bulkLen]
    simp only [bulkAsked] at hok
    simp [hkey, hgo, hok]
  refine (if_neg (by simp [hfree])).trans ((if_neg htakes).trans ?_)
  simp only [lms_bulkOff, lms_bulkLen]
  cases mem <;> rfl

end

/-! ### Starts by their commands (R424, R430) -/

/-- The limits of a PUSH, and of a FETCH. -/
theorem bulkOk_push {s : State} {off len n : Nat} :
    bulkOk s 1 off len n = true ↔ myNode s = 0 ∧ n ≠ 0 ∧ 4 ≤ len ∧ len % 4 = 0 ∧ off % 4 = 0 ∧ off + len ≤ 0x400000 := by
  simp only [bulkOk, Bool.and_eq_true, decide_eq_true_eq, if_true, and_assoc]
  exact and_congr_right fun h => by rw [h]
theorem bulkOk_fetch {s : State} {off len n : Nat} :
    bulkOk s 2 off len n = true ↔ myNode s = 0 ∧ n ≠ 0 ∧ 4 ≤ len ∧ len % 4 = 0 ∧ off % 4 = 0 ∧ len ≤ 0x10000 := by
  simp only [bulkOk, Bool.and_eq_true, decide_eq_true_eq, if_neg (show ¬ 2 = 1 by decide), true_and, and_assoc]
  exact and_congr_right fun h => by rw [h]

/-- The limits speak of the node's number alone. -/
@[simp] theorem bulkOk_noted (s : State) (a : Acc) (pk : PageKind) (i o : Nat) (w : Word) (k off len n : Nat) :
    bulkOk (noted s a pk i o w) k off len n = bulkOk s k off len n := by
  simp only [bulkOk, myNode_noted]

/-- A transfer's fields stand beside its kind. -/
theorem bulkAsked_withField (s : State) (c : Nat) {k : Nat} (d : Word) (hk : k < 4) :
    bulkAsked s c k (withField d 1 0 k) = bulkAsked s c k d := by
  obtain ⟨-, hnode, -, hfinish, -⟩ := bulkWord_fields d hk
  rw [bulkAsked, hnode, hfinish, bulkAsked]

/-- What a start asks for, by the registers before its record. -/
theorem bulkAsked_noted {s : State} {a : Acc} {c o n off len : Nat} {d w : Word} (k : Nat) (hn : n = fld d 13 8)
    (hoff : off = rfld s (lms (0x0C8 + 32 * c)) 23 0) (hlen : len = rfld s (lms (0x0CC + 32 * c)) 22 0) :
    bulkAsked (noted s a .lms 0 o w) c k d =
      { kind := k, node := n, finish := bit d 2, haddr := addr64 (noted s a .lms 0 o w) (lms (0x0C0 + 32 * c)), off := off, len := len,
        gen := (inst (noted s a .lms 0 o w) 0).gen } := by
  rw [bulkAsked, rfld_lms_noted, rfld_lms_noted, hn, hoff, hlen]

section
variable {s : State} {a : Acc} {c k : Nat} {d : Word} (mem : Option Bytes) (hc : c < 4)
  (hs : served s a .lms 0 (0x0D0 + 32 * c) = true)
include hc hs

/-- A start of a busy channel is recorded with cause 7. -/
theorem bulkCmd_busy (h : bulk s c ≠ none) :
    bulkCmd a c k d { blob := mem } s = done (busLog (noted s a .lms 0 (0x0D0 + 32 * c) (withField d 1 0 k)) a true
      (lms (0x0D0 + 32 * c)) 4 (withField d 1 0 k) .busy) := by
  rw [bulkCmd_served k d mem hc hs, bulkWrite_busy mem (by rwa [bulk_noted])]
  rfl

variable (hk : k < 4) (hfree : bulk s c = none)
include hk hfree

/-- A start that breaks its limits is reported. -/
theorem bulkCmd_refused {off len : Nat} (hoff : off = rfld s (lms (0x0C8 + 32 * c)) 23 0)
    (hlen : len = rfld s (lms (0x0CC + 32 * c)) 22 0)
    (h : fld d 31 16 ≠ 0xA5C3 ∨ bit d 14 = false ∨ ¬ bulkOk s k off len (fld d 13 8) = true) :
    bulkCmd a c k d { blob := mem } s =
      done (report (noted s a .lms 0 (0x0D0 + 32 * c) (withField d 1 0 k)) .lms 0 0x1408 (0x0D0 + 32 * c) 1) := by
  obtain ⟨hkind, hnode, hkey, -, hgo⟩ := bulkWord_fields d hk
  rw [← hkey, ← hgo, ← hnode, hoff, hlen] at h
  have hstart := bulkWrite_refused (s := noted s a .lms 0 (0x0D0 + 32 * c) (withField d 1 0 k)) (ch := c)
    (c := bulkCtx s a c (withField d 1 0 k)) mem ((bulk_noted ..).trans hfree)
    (by rw [rfld_lms_noted, rfld_lms_noted, bulkOk_noted]; exact hkind.symm ▸ h)
  rw [refuseW, bulkCtx_off _ _ _ hc] at hstart
  exact (bulkCmd_served k d mem hc hs).trans (congrArg done hstart)

/-- A keyed start within its limits opens its channel and sends its frames. -/
theorem bulkCmd_starts {b : Bulk} (hkey : fld d 31 16 = 0xA5C3) (hgo : bit d 14 = true)
    (hb : bulkAsked (noted s a .lms 0 (0x0D0 + 32 * c) (withField d 1 0 k)) c k d = b) (hok : bulkOk s k b.off b.len b.node = true) :
    bulkCmd a c k d { blob := mem } s = done (
      let t := bulkOpened (noted s a .lms 0 (0x0D0 + 32 * c) (withField d 1 0 k)) c b
      if s.dups.contains b.node then bulkEnd t c 0x1406
      else if k = 2 then fetchFrames t c b else pushFrames t c b mem) := by
  obtain ⟨hkind, -, hkey', -, hgo'⟩ := bulkWord_fields d hk
  have hstart := bulkWrite_starts (s := noted s a .lms 0 (0x0D0 + 32 * c) (withField d 1 0 k)) (ch := c)
    (c := bulkCtx s a c (withField d 1 0 k)) mem ((bulk_noted ..).trans hfree) (hkey'.trans hkey) (hgo'.trans hgo) hkind
    ((bulkAsked_withField _ c d hk).trans hb).symm ((bulkOk_noted ..).trans hok)
  rw [dups_noted] at hstart
  exact (bulkCmd_served k d mem hc hs).trans (congrArg done hstart)

end

end Sys2Proof.Machine

open Sys2Proof Sys2Proof.Machine

/-- Settles O48, by the effect of each frame and by what a start of a channel does. -/
theorem ringPushesAndBulk : Obligations.RingPushesAndBulk := by
  refine ⟨?data, ?ctrl, ?rsp, ?ends, ?moved, ?fetched, ?push, ?fetch, ?refused, ?busy, ?timeout⟩
  case data =>
    rintro s _ x _ f _ h htype rfl rfl rfl
    refine (arrive_next {} h htype (by decide)).trans (done_congr (congrArg (afterFrame s f) ?_))
    exact (deliverFrame_pushData _ _ htype).trans (pushDataIn_eq _ f)
  case ctrl =>
    rintro s t x f inp h htype rfl
    refine (arrive_next inp h htype (by decide)).trans (done_congr (congrArg (afterFrame s f) ?_))
    exact (deliverFrame_pushCtrl _ inp htype).trans (pushCtrlIn_eq _ f inp.rom)
  case rsp =>
    rintro s _ x f h htype hinc hseq rfl
    refine (arrive_pushRsp {} h htype hinc hseq).trans (done_congr ?_)
    rw [deliverFrame_pushRsp _ _ htype]
    cases hch : pushChannel (orderTaken (frameHeard s x) f) f.src with
    | none => rw [pushRspIn_none hch]; rfl
    | some c => rw [pushRspIn_channel hch]; rfl
  case ends => exact fun s c b code h => bulkEnd_busy h code
  case moved => exact fun s c n b h => bulkMoved_busy h n
  case fetched =>
    rintro s _ x c e f r b h htype rfl hreq hbulk hb hgen hinst
    refine (arrive_next {} h htype (by decide)).trans (done_congr (congrArg (afterFrame s f) ?_))
    exact (deliverFrame_regRsp _ _ htype).trans (regRspIn_bulk hb hreq hbulk hgen hinst)
  case push =>
    intro s a c n off len d m hc hs hkey hgo hfree hn hoff hlen hnode hne hmin hal hoal hend
    have hb := bulkAsked_noted (s := s) (a := a) (o := 0x0D0 + 32 * c) (w := withField d 1 0 1) 1 hn hoff hlen
    have hok : bulkOk s 1 off len n = true := bulkOk_push.mpr ⟨hnode, hne, hmin, hal, hoal, hend⟩
    refine (bulkCmd_starts m hc hs (by decide) hfree hkey hgo hb hok).trans (done_congr ?_)
    cases m <;> rfl
  case fetch =>
    intro s a c n off len d hc hs hkey hgo hfree hn hoff hlen hnode hne hmin hmax hal hoal
    have hb := bulkAsked_noted (s := s) (a := a) (o := 0x0D0 + 32 * c) (w := withField d 1 0 2) 2 hn hoff hlen
    have hok : bulkOk s 2 off len n = true := bulkOk_fetch.mpr ⟨hnode, hne, hmin, hal, hoal, hmax⟩
    exact (bulkCmd_starts none hc hs (by decide) hfree hkey hgo hb hok).trans (done_congr rfl)
  case refused =>
    intro s a c off len d m hc hs hfree hoff hlen bad
    refine ⟨fun h => bulkCmd_refused m hc hs (by decide) hfree hoff hlen ?_,
      fun h => bulkCmd_refused none hc hs (by decide) hfree hoff hlen ?_⟩
    · rw [bulkOk_push]
      grind
    · rw [bulkOk_fetch]
      grind
  case busy =>
    rintro s a c d _ m hc hs h rfl
    exact bulkCmd_busy m hc hs h
  case timeout => exact fun s c h => done_congr (fire_running h)

end
